-- ==== Sys2Proof/Word.lean ====
section
/-! DEFINITION. The words of the part's frames (spec 12 R190): what stands in a frame as a byte or a run of bytes is a bit vector;
a number the part counts with is a `Nat`. -/

namespace Sys2Proof

/-- One byte of a frame. -/
abbrev Byte := BitVec 8
/-- A 2-byte field. -/
abbrev Word16 := BitVec 16
/-- A 4-byte field. -/
abbrev Word32 := BitVec 32
/-- An 8-byte field. -/
abbrev Word64 := BitVec 64

end Sys2Proof
end

