-- ==== Sys2Proof/Config.lean ====
section
/-! DEFINITION. What the spec fixes for the part: the sizes of its tables and the bounds of its values; and the free values, which it
leaves open. -/

namespace Sys2Proof.Config

/-- 00_scope.md, Amounts: "9,999,999 is called the purse ceiling". -/
def purseCeiling : Nat := 9999999
/-- R28: one more than the greatest card number. -/
def cardNumbers : Nat := 10000000000000000
/-- R3. -/
def sets : Nat := 16384
/-- R27. -/
def programs : Nat := 32
/-- R17. -/
def passRanges : Nat := 4
/-- R143. -/
def slices : Nat := 1024
/-- R144. -/
def sites : Nat := 512
/-- R148. -/
def tills : Nat := 8192
/-- R155. -/
def links : Nat := 8
/-- R101. -/
def tags : Nat := 256
/-- R110. -/
def waiters : Nat := 16
/-- R82: live holds in the whole table. -/
def holds : Nat := 32768
/-- R82: live holds of one site. -/
def holdsPerSite : Nat := 512
/-- R82: live holds of one card. -/
def holdsPerCard : Nat := 8
/-- R84. -/
def notes : Nat := 1024
/-- R72. -/
def stackEntries : Nat := 4
/-- R119. -/
def exposures : Nat := 2048
/-- R123. -/
def journalRecords : Nat := 4096
/-- R123, R137: the high mark. -/
def highMark : Nat := 3072
/-- R155. -/
def inboundMessages : Nat := 32
/-- R155. -/
def replyEntries : Nat := 32
/-- R168, R188: where a counter stops. -/
def counterTop : Nat := 65535
/-- R148: where a till's total stops. -/
def totalTop : Nat := 4294967295
/-- R123: the greatest sequence. -/
def lastSequence : Nat := 4294967295
/-- R170: the greatest day number. -/
def lastDay : Nat := 65535
/-- R170: milliseconds in a day. -/
def dayMs : Nat := 86400000
/-- R171: milliseconds in an hour. -/
def hourMs : Nat := 3600000
/-- R81, R86: milliseconds in a minute. -/
def minuteMs : Nat := 60000

/-- Free value, notes/assumptions/3: the card number of the stack entry that a host-decided COMPLETE pushes (R94). The spec gives the
entry its parts and says that it has no journal sequence, and does not say which card it holds: the request names none, and the
host's reply carries none. The argument is the number of the stack entry. -/
opaque hostCaptureCard : Nat → Nat

/-- Free value, notes/assumptions/4: the 32-bit check code over the other eight fields of a resident card record (R1, R2): its card
number, whether it is BLOCKED, its core and bonus balances, bonus expiry day, uses today, use day stamp and unposted count. The spec
gives no computation. -/
opaque checkCode (card : Nat) (blocked : Bool) (core bonus : Nat) (expiry : Option Nat) (uses stamp unposted : Nat) : BitVec 32

/-- Free value, notes/assumptions/8: the code by which a RESULT names a field (R179). The spec says that the field is named and gives
no codes. The argument is the field's place among the model's field names. -/
opaque fieldCode : Nat → BitVec 8

end Sys2Proof.Config
end

