-- ==== Sys2Proof/Syntax.lean ====
section
/-! DEFINITION. The commands the part takes: one constructor of `Instr` for each row of spec/opcode_table.json.
A row that arrives in a frame carries what the frame says, in the widths of spec 12, malformed fields and all;
a row that the part's own timers or links bring about names the link, tag, hold or reply it concerns. -/

namespace Sys2Proof

/-- The names of the fields a REFUSED BAD-FIELD may name (R179). -/
inductive Field where
  | body | form | action
  | hostAnswerLimit | gateLimit | presenceLimit
  | programNumber | firstCard | count | maximumBalance | holdLifetime | tipTolerance | bonusCap
  | dailyUseLimit | standInLimit | replyGating
  | rangeNumber | mode | cardNumber | cardRecord | bonusBalance | bonusExpiry | setNumber
  | siteIndex | siteIdentity | sliceNumber | linkNumber | window | concentratorIdentity
  | routineEnable | exceptionalEnable | eventSet
  | dayNumber | timeOfDay | cutoverHour
deriving DecidableEq, Repr

/-- A frame on the service link of a known command's kind, as R192 meets it. -/
inductive HostFrame (α : Type) where
  /-- The frame failed its check: it is discarded and gets no RESULT. -/
  | badCheck
  /-- The body has a length the kind does not allow; `ref` is its reference, 0 when it holds fewer than 4 bytes. -/
  | wrongLength (ref : Word32)
  /-- The form or action code is none the layout gives; `field` is the first field that failed. -/
  | badCode (ref : Word32) (field : Field)
  /-- A body of an allowed length. -/
  | body (ref : Word32) (fields : α)
deriving DecidableEq, Repr

/-- A frame on the service link whose kind is no command's and no answer's, as R192 meets it: `ref` is its first 4 bytes, 0 when it
holds fewer. -/
inductive UnknownFrame where
  | badCheck
  | body (kind : Word16) (ref : Word32)
deriving DecidableEq, Repr

/-- A host answer CARD-DATA, NO-SUCH-CARD or REFERRAL-ANSWER, as R192 meets it. -/
inductive AnswerFrame (α : Type) where
  | badCheck
  /-- A body length not allowed, with the tag and the generation when the body holds them. -/
  | wrongLength (tagGen : Option (Byte × Word16))
  | body (tag : Byte) (gen : Word16) (fields : α)
deriving DecidableEq, Repr

/-- A POSTED, as R192 meets it. -/
inductive PostedFrame where
  | badCheck
  | wrongLength
  | body (sequence : Word32)
deriving DecidableEq, Repr

/-- A frame on a site link: in good order, or one that fails its length or its check (R157, R191). -/
inductive SiteFrame (α : Type) where
  | damaged
  | good (fields : α)
deriving DecidableEq, Repr

/-- An optional field (R192): a yes/no presence byte, then the field. -/
inductive WireOpt (α : Type) where
  | absent
  | present (value : α)
  /-- The presence byte is neither 0 nor 1. -/
  | malformed
deriving DecidableEq, Repr

/-- SET-LIMITS (R183). -/
structure LimitsFields where
  hostAnswer : Word32
  gate : Word32
  presence : Word32
deriving DecidableEq, Repr

/-- TIME-SET (R173). -/
structure TimeFields where
  day : Word16
  time : Word32
  cutover : WireOpt Byte
deriving DecidableEq, Repr

/-- PROGRAM-SET (R32): the program number, the range and the seven limits. -/
structure ProgramFields where
  number : Byte
  first : Word64
  count : Word64
  maximumBalance : Word32
  holdLifetime : Word16
  tipTolerance : Byte
  bonusCap : Byte
  dailyUseLimit : Byte
  standInLimit : Word32
  gating : Byte
deriving DecidableEq, Repr

/-- PASS-RANGE-SET (R18). -/
structure PassRangeFields where
  number : Byte
  first : Word64
  count : Word64
deriving DecidableEq, Repr

/-- The 23-byte card record (R192). -/
structure CardWire where
  card : Word64
  status : Byte
  core : Word32
  bonus : Word32
  expiryPresent : Byte
  expiryDay : Word16
  uses : Byte
  stamp : Word16
deriving DecidableEq, Repr

/-- CARD-ADJUST SET-BONUS (R23). -/
structure SetBonusFields where
  card : Word64
  bonus : Word32
  expiry : WireOpt Word16
deriving DecidableEq, Repr

/-- SITE-SET (R145). -/
structure SiteFields where
  index : Word16
  identity : Word16
deriving DecidableEq, Repr

/-- SLICE-ASSIGN (R146); a site index of 65,535 is *none* (R192). -/
structure SliceFields where
  slice : Word16
  site : Word16
deriving DecidableEq, Repr

/-- WINDOW-SET (R147). -/
structure WindowFields where
  link : Byte
  window : Byte
  slice : Word16
deriving DecidableEq, Repr

/-- LINK-CONTROL set expected identity (R167). -/
structure IdentityFields where
  link : Byte
  identity : Word32
deriving DecidableEq, Repr

/-- SET-NOTICES (R186). -/
structure NoticeFields where
  routine : Byte
  exceptional : Byte
  events : Word16
deriving DecidableEq, Repr

/-- The 42-byte TILL-REPLY body as the host sends it in a REFERRAL-ANSWER (R191, R192). -/
structure ReplyWire where
  lane : Byte
  kind : Byte
  outcome : Byte
  reason : Byte
  flags : Byte
  approved : Word32
  bonus : Word32
  core : Word32
  free : Word32
  ref : Word32
  shift : Word16
  reported : Word16
  debitTotal : Word32
  creditTotal : Word32
  debitCount : Word16
  creditCount : Word16
  overflow : Byte
deriving DecidableEq, Repr

/-- REFERRAL-ANSWER (R116, R192). -/
structure ReferralFields where
  reply : ReplyWire
  record : Option CardWire
deriving DecidableEq, Repr

/-- LINK-HELLO (R158, R191). -/
structure HelloFields where
  identity : Word32
  level : Byte
  lanes : Word16
deriving DecidableEq, Repr

/-- The kind of a till message (R190). Every code but 16 LINK-HELLO and 17 PRESENCE is a till message (R157). -/
inductive TillKind where
  | openTill | closeTill | enquiry | redeem | hold | complete | release | reverse | reload
  | unknown (code : Word16)
deriving DecidableEq, Repr

/-- The 22-byte till request (R191), every field as sent. -/
structure TillMsg where
  kind : TillKind
  lane : Byte
  allowPartial : Byte
  card : Word64
  amount : Word32
  tillRef : Word32
  holdRef : Word32
deriving DecidableEq, Repr

/-- R1, the status of a card. -/
inductive CardStatus where
  | active | blocked
deriving DecidableEq, Repr

/-- The first seven fields of a resident card record (R1), those a supplied record brings. -/
structure CardData where
  card : Nat
  status : CardStatus
  core : Nat
  bonus : Nat
  expiry : Option Nat
  uses : Nat
  stamp : Nat
deriving DecidableEq, Repr

/-- What a record's stored content is altered to (row STORED_CONTENT_ALTERED, R2): any of its nine fields, the card number and the
check code among them. -/
structure AlteredContent where
  data : CardData
  unposted : Nat
  check : Word32
deriving DecidableEq, Repr

/-- The commands: one constructor for each row of spec/opcode_table.json, in the table's order. -/
inductive Instr where
  | powerOnReset
  | resetEngine (f : HostFrame Unit)
  | start (f : HostFrame Unit)
  | setLimits (f : HostFrame LimitsFields)
  | timeSet (f : HostFrame TimeFields)
  | programSet (f : HostFrame ProgramFields)
  | programActivate (f : HostFrame Byte)
  | programDeactivate (f : HostFrame Byte)
  | programLock (f : HostFrame Byte)
  | rangeProbe (f : HostFrame Byte)
  | passRangeSet (f : HostFrame PassRangeFields)
  | directoryMode (f : HostFrame Byte)
  | cardEvict (f : HostFrame Word64)
  | cardAdjustLoad (f : HostFrame CardWire)
  | cardAdjustUnload (f : HostFrame Word64)
  | cardAdjustSetBonus (f : HostFrame SetBonusFields)
  | cardAdjustBlock (f : HostFrame Word64)
  | cardAdjustUnblock (f : HostFrame Word64)
  | directoryReadSummary (f : HostFrame Unit)
  | directoryReadCard (f : HostFrame Word64)
  | directoryReadSet (f : HostFrame Word16)
  | readFault (f : HostFrame Unit)
  | siteSet (f : HostFrame SiteFields)
  | sliceAssign (f : HostFrame SliceFields)
  | windowSet (f : HostFrame WindowFields)
  | linkControlEnable (f : HostFrame Byte)
  | linkControlDisable (f : HostFrame Byte)
  | linkControlReset (f : HostFrame Byte)
  | linkControlSetExpectedIdentity (f : HostFrame IdentityFields)
  | setNotices (f : HostFrame NoticeFields)
  | readEvents (f : HostFrame Unit)
  | readCounters (f : HostFrame Unit)
  | readStatus (f : HostFrame Unit)
  | unknownCommand (f : UnknownFrame)
  | cardData (f : AnswerFrame CardWire)
  | noSuchCard (f : AnswerFrame Unit)
  | referralAnswer (f : AnswerFrame ReferralFields)
  | posted (f : PostedFrame)
  | journalSend
  | linkHello (link : Fin 8) (f : SiteFrame HelloFields)
  | presence (link : Fin 8) (f : SiteFrame Unit)
  | tillMessageArrival (link : Fin 8) (f : SiteFrame TillMsg)
  | presenceTimeout (link : Fin 8)
  /-- The take-off of the oldest inbound message of `link`, an OPEN-TILL; the next nine rows likewise. -/
  | openTill (link : Fin 8)
  | closeTill (link : Fin 8)
  | enquiry (link : Fin 8)
  | redeem (link : Fin 8)
  | hold (link : Fin 8)
  | complete (link : Fin 8)
  | release (link : Fin 8)
  | reverse (link : Fin 8)
  | reload (link : Fin 8)
  | unknownTillKind (link : Fin 8)
  | delivery (link : Fin 8)
  | fetchAnswerTimeout (tag : Fin 256)
  | fetchGateTimeout (tag : Fin 256)
  | referralTimeout (tag : Fin 256)
  /-- The GATED entry of `link` that awaits `sequence`. -/
  | gateTimeout (link : Fin 8) (sequence : Nat)
  /-- The hold with this key (R81). -/
  | holdExpiry (site : Fin 512) (ref : Word32)
  | dayRollover
  | storedContentAltered (set : Fin 16384) (way : Fin 4) (content : AlteredContent)
  | serviceMessageTransmitted
deriving DecidableEq, Repr

end Sys2Proof
end

