-- ==== Sys2Proof/WellFormed.lean ====
section
/-! DEFINITION. Which terms of `Instr` a frame or an event of the part can spell (spec 12 R190 to R192; spec 01 R1, R2). -/

namespace Sys2Proof

/-- A HostFrame of a command with no form and no action: no form or action code of it can be malformed. -/
def noCode {α : Type} : HostFrame α → Bool
  | .badCode _ _ => false
  | _ => true

/-- A HostFrame of a command whose form or action code the layout may not give; `fields` are the fields that a first failed test may
name there. -/
def codeNames {α : Type} (fields : List Field) : HostFrame α → Bool
  | .badCode _ f => decide (f ∈ fields)
  | _ => true

/-- R190: the kind codes of the commands and the answers of the host. -/
def knownServiceKind (k : Word16) : Bool := (decide (256 ≤ k.toNat) && decide (k.toNat ≤ 278)) || (decide (320 ≤ k.toNat) && decide (k.toNat ≤ 323))

/-- R190: the codes of the known till requests and of the link-level messages. -/
def knownSiteKind (k : Word16) : Bool := (decide (1 ≤ k.toNat) && decide (k.toNat ≤ 9)) || decide (k.toNat = 16) || decide (k.toNat = 17)

/-- A till message's kind: an unknown kind's code is none of the known ones. -/
def tillKindOk : TillKind → Bool
  | .unknown code => !knownSiteKind code
  | _ => true

/-- R1: the values the fields of a record can hold. -/
def contentInRange (x : AlteredContent) : Bool :=
  decide (x.data.card < Config.cardNumbers) && decide (x.data.core < 4294967296) && decide (x.data.bonus < 4294967296) &&
    decide (x.data.uses < 256) && decide (x.data.stamp < 65536) &&
    (match x.data.expiry with
      | none => true
      | some day => decide (day < 65536))

/-- The command is one that a frame or an event of the part can spell. -/
def wellFormed : Instr → Bool
  | .powerOnReset => true
  | .resetEngine f => noCode f
  | .start f => noCode f
  | .setLimits f => noCode f
  | .timeSet f => noCode f
  | .programSet f => noCode f
  | .programActivate f => noCode f
  | .programDeactivate f => noCode f
  | .programLock f => noCode f
  | .rangeProbe f => noCode f
  | .passRangeSet f => noCode f
  | .directoryMode f => noCode f
  | .cardEvict f => noCode f
  | .cardAdjustLoad f => codeNames [.form] f
  | .cardAdjustUnload f => noCode f
  | .cardAdjustSetBonus f => noCode f
  | .cardAdjustBlock f => noCode f
  | .cardAdjustUnblock f => noCode f
  | .directoryReadSummary f => codeNames [.form] f
  | .directoryReadCard f => noCode f
  | .directoryReadSet f => noCode f
  | .readFault f => noCode f
  | .siteSet f => noCode f
  | .sliceAssign f => noCode f
  | .windowSet f => noCode f
  | .linkControlEnable f => codeNames [.linkNumber, .action] f
  | .linkControlDisable f => noCode f
  | .linkControlReset f => noCode f
  | .linkControlSetExpectedIdentity f => noCode f
  | .setNotices f => noCode f
  | .readEvents f => noCode f
  | .readCounters f => noCode f
  | .readStatus f => noCode f
  | .unknownCommand .badCheck => true
  | .unknownCommand (.body kind _) => !knownServiceKind kind
  | .cardData _ => true
  | .noSuchCard _ => true
  | .referralAnswer _ => true
  | .posted _ => true
  | .journalSend => true
  | .linkHello _ _ => true
  | .presence _ _ => true
  | .tillMessageArrival _ .damaged => true
  | .tillMessageArrival _ (.good m) => tillKindOk m.kind
  | .presenceTimeout _ => true
  | .openTill _ => true
  | .closeTill _ => true
  | .enquiry _ => true
  | .redeem _ => true
  | .hold _ => true
  | .complete _ => true
  | .release _ => true
  | .reverse _ => true
  | .reload _ => true
  | .unknownTillKind _ => true
  | .delivery _ => true
  | .fetchAnswerTimeout _ => true
  | .fetchGateTimeout _ => true
  | .referralTimeout _ => true
  | .gateTimeout _ sequence => decide (1 ≤ sequence) && decide (sequence ≤ Config.lastSequence)
  | .holdExpiry _ ref => decide (ref ≠ 0#32)
  | .dayRollover => true
  | .storedContentAltered _ _ x => contentInRange x
  | .serviceMessageTransmitted => true

end Sys2Proof
end

