-- ==== Sys2Proof/Decode.lean ====
section
/-! DEFINITION. The frames that reach the part, byte by byte, and the command each one spells (spec 12 R190 to R192); their encoding;
and the table's own word form, which no row has. -/

namespace Sys2Proof

/-! ### The opcode table's words -/

/-- The command that a word spells by the table's bits. No row of spec/opcode_table.json gives bits: none. -/
def decodeTableWord (_nbits _w : Nat) : Option Instr := none

/-! ### CRC-32 (R190) -/

/-- One bit of the check: the polynomial 04C11DB7 with its bits in the order in which bytes enter, least significant first. -/
def crcBit (c : BitVec 32) : BitVec 32 := if c.getLsbD 0 then (c >>> 1) ^^^ 0xEDB88320#32 else c >>> 1

/-- One byte enters the register, least significant bit first. -/
def crcByte (c : BitVec 32) (b : Byte) : BitVec 32 :=
  crcBit (crcBit (crcBit (crcBit (crcBit (crcBit (crcBit (crcBit (c ^^^ b.zeroExtend 32))))))))

/-- R190: the check over a run of bytes. -/
def crc32 (bs : List Byte) : BitVec 32 := ~~~(bs.foldl crcByte 0xFFFFFFFF#32)

/-! ### Numbers as bytes (R190: most significant byte first) -/

/-- The number a run of bytes says. -/
def ofBytes (bs : List Byte) : Nat := bs.foldl (fun n b => n * 256 + b.toNat) 0

/-- The lowest `n` bytes of a number. -/
def toBytes : Nat → Nat → List Byte
  | 0, _ => []
  | n + 1, v => toBytes n (v / 256) ++ [BitVec.ofNat 8 v]

/-- The field of `n` bytes at an offset. -/
def fieldAt (offset n : Nat) (bs : List Byte) : Nat := ofBytes ((bs.drop offset).take n)

def byteAt (offset : Nat) (bs : List Byte) : Byte := BitVec.ofNat 8 (fieldAt offset 1 bs)
def word16At (offset : Nat) (bs : List Byte) : Word16 := BitVec.ofNat 16 (fieldAt offset 2 bs)
def word32At (offset : Nat) (bs : List Byte) : Word32 := BitVec.ofNat 32 (fieldAt offset 4 bs)
def word64At (offset : Nat) (bs : List Byte) : Word64 := BitVec.ofNat 64 (fieldAt offset 8 bs)

/-! ### The frame (R190) -/

/-- A frame of a kind and a body: length, kind, body, check. -/
def frameOf (kind : Word16) (body : List Byte) : List Byte :=
  let head := toBytes 2 (body.length + 6) ++ toBytes 2 kind.toNat ++ body
  head ++ toBytes 4 (crc32 head).toNat

/-- The kind and the body of a frame whose length agrees with its content and whose check matches; none otherwise. -/
def openFrame (bs : List Byte) : Option (Word16 × List Byte) :=
  if 8 ≤ bs.length ∧ fieldAt 0 2 bs + 2 = bs.length ∧ fieldAt (bs.length - 4) 4 bs = (crc32 (bs.take (bs.length - 4))).toNat then
    some (word16At 2 bs, (bs.take (bs.length - 4)).drop 4)
  else none

/-! ### The stream (R190) -/

/-- R190: "The receiver takes the length field as the frame's extent whatever its value." The first frame of a stream and the bytes
behind it; none while the stream does not yet hold the whole of it. -/
def cutFrame (stream : List Byte) : Option (List Byte × List Byte) :=
  if 2 ≤ stream.length ∧ fieldAt 0 2 stream + 2 ≤ stream.length then
    some (stream.take (fieldAt 0 2 stream + 2), stream.drop (fieldAt 0 2 stream + 2))
  else none

/-- The first frames of a stream, at most `n` of them, and the bytes behind them. -/
def cutFrames : Nat → List Byte → List (List Byte) × List Byte
  | 0, stream => ([], stream)
  | n + 1, stream =>
    match cutFrame stream with
    | none => ([], stream)
    | some (frame, rest) => (frame :: (cutFrames n rest).1, (cutFrames n rest).2)

/-- R190: every whole frame of a stream, and the bytes of the frame that is not whole yet. A frame has 2 bytes at least. -/
def framesIn (stream : List Byte) : List (List Byte) × List Byte := cutFrames stream.length stream

/-! ### Site-link bodies (R191) -/

def decodeHello (b : List Byte) : HelloFields := { identity := word32At 0 b, level := byteAt 4 b, lanes := word16At 5 b }

/-- R190: the till message kind of a code. -/
def tillKindOf (k : Word16) : TillKind :=
  match k.toNat with
  | 1 => .openTill
  | 2 => .closeTill
  | 3 => .enquiry
  | 4 => .redeem
  | 5 => .hold
  | 6 => .complete
  | 7 => .release
  | 8 => .reverse
  | 9 => .reload
  | _ => .unknown k

/-- R191: the 22-byte till request. -/
def decodeTillMsg (kind : Word16) (b : List Byte) : TillMsg :=
  { kind := tillKindOf kind, lane := byteAt 0 b, allowPartial := byteAt 1 b, card := word64At 2 b, amount := word32At 10 b,
    tillRef := word32At 14 b, holdRef := word32At 18 b }

/-- R157, R191: the command that a frame on site link `l` is. A frame not in good order is a bad frame of any kind. -/
def decodeSiteFrame (l : Fin 8) (bs : List Byte) : Instr :=
  match openFrame bs with
  | none => .tillMessageArrival l .damaged
  | some (kind, body) =>
    if kind = 16#16 then (if body.length = 7 then .linkHello l (.good (decodeHello body)) else .linkHello l .damaged)
    else if kind = 17#16 then (if body.length = 0 then .presence l (.good ()) else .presence l .damaged)
    else if body.length = 22 then .tillMessageArrival l (.good (decodeTillMsg kind body))
    else .tillMessageArrival l .damaged

/-! ### Service-link bodies (R192) -/

/-- R192: the reference of a body that holds at least 4 bytes, 0 otherwise. -/
def refOf (b : List Byte) : Word32 := if 4 ≤ b.length then word32At 0 b else 0#32

/-- A command whose kind allows one body length: its fields from offset 4, or a wrong length. -/
def fixedBody {α : Type} (n : Nat) (b : List Byte) (fields : List Byte → α) : HostFrame α :=
  if b.length = 4 + n then .body (refOf b) (fields b) else .wrongLength (refOf b)

/-- R192: the 23-byte card record at an offset. -/
def decodeCard (o : Nat) (b : List Byte) : CardWire :=
  { card := word64At o b, status := byteAt (o + 8) b, core := word32At (o + 9) b, bonus := word32At (o + 13) b,
    expiryPresent := byteAt (o + 17) b, expiryDay := word16At (o + 18) b, uses := byteAt (o + 20) b, stamp := word16At (o + 21) b }

/-- R191: the 42-byte till reply at an offset. -/
def decodeReply (o : Nat) (b : List Byte) : ReplyWire :=
  { lane := byteAt o b, kind := byteAt (o + 1) b, outcome := byteAt (o + 2) b, reason := byteAt (o + 3) b, flags := byteAt (o + 4) b,
    approved := word32At (o + 5) b, bonus := word32At (o + 9) b, core := word32At (o + 13) b, free := word32At (o + 17) b,
    ref := word32At (o + 21) b, shift := word16At (o + 25) b, reported := word16At (o + 27) b, debitTotal := word32At (o + 29) b,
    creditTotal := word32At (o + 33) b, debitCount := word16At (o + 37) b, creditCount := word16At (o + 39) b,
    overflow := byteAt (o + 41) b }

def decodeLimits (b : List Byte) : LimitsFields := ⟨word32At 4 b, word32At 8 b, word32At 12 b⟩

def decodeProgram (b : List Byte) : ProgramFields :=
  { number := byteAt 4 b, first := word64At 5 b, count := word64At 13 b, maximumBalance := word32At 21 b, holdLifetime := word16At 25 b,
    tipTolerance := byteAt 27 b, bonusCap := byteAt 28 b, dailyUseLimit := byteAt 29 b, standInLimit := word32At 30 b,
    gating := byteAt 34 b }

def decodePassRange (b : List Byte) : PassRangeFields := ⟨byteAt 4 b, word64At 5 b, word64At 13 b⟩

/-- TIME-SET: its body has one length without a cutover hour and one with it. A presence byte that denies the body's length makes the
length wrong; one that is no yes/no value is malformed (DESIGN CHOICE, notes/assumptions/9). -/
def decodeTimeSet (b : List Byte) : HostFrame TimeFields :=
  let fields (c : WireOpt Byte) : HostFrame TimeFields := .body (refOf b) ⟨word16At 4 b, word32At 6 b, c⟩
  if b.length = 11 ∨ b.length = 12 then
    if 1 < (byteAt 10 b).toNat then fields .malformed
    else if b.length = 11 ∧ byteAt 10 b = 0#8 then fields .absent
    else if b.length = 12 ∧ byteAt 10 b = 1#8 then fields (.present (byteAt 11 b))
    else .wrongLength (refOf b)
  else .wrongLength (refOf b)

/-- CARD-ADJUST SET-BONUS, its form code at offset 4; the optional expiry day as in TIME-SET. -/
def decodeSetBonus (b : List Byte) : HostFrame SetBonusFields :=
  let fields (c : WireOpt Word16) : HostFrame SetBonusFields := .body (refOf b) ⟨word64At 5 b, word32At 13 b, c⟩
  if b.length = 18 ∨ b.length = 20 then
    if 1 < (byteAt 17 b).toNat then fields .malformed
    else if b.length = 18 ∧ byteAt 17 b = 0#8 then fields .absent
    else if b.length = 20 ∧ byteAt 17 b = 1#8 then fields (.present (word16At 18 b))
    else .wrongLength (refOf b)
  else .wrongLength (refOf b)

/-- CARD-ADJUST: the form at offset 4, codes from 0 in the order LOAD, UNLOAD, SET-BONUS, BLOCK, UNBLOCK (R20). A form code that is none
of them, in a body of a length some form allows, is malformed; the row LOAD stands for it. -/
def decodeCardAdjust (b : List Byte) : Instr :=
  match (byteAt 4 b).toNat with
  | 0 => .cardAdjustLoad (fixedBody 24 b (decodeCard 5))
  | 1 => .cardAdjustUnload (fixedBody 9 b (word64At 5))
  | 2 => .cardAdjustSetBonus (decodeSetBonus b)
  | 3 => .cardAdjustBlock (fixedBody 9 b (word64At 5))
  | 4 => .cardAdjustUnblock (fixedBody 9 b (word64At 5))
  | _ => .cardAdjustLoad (if b.length ∈ [28, 13, 18, 20] then .badCode (refOf b) .form else .wrongLength (refOf b))

/-- DIRECTORY-READ: the form at offset 4, SUMMARY, CARD, SET (R25). -/
def decodeDirectoryRead (b : List Byte) : Instr :=
  if b.length < 5 then .directoryReadSummary (.wrongLength (refOf b))
  else
    match (byteAt 4 b).toNat with
    | 0 => .directoryReadSummary (fixedBody 1 b (fun _ => ()))
    | 1 => .directoryReadCard (fixedBody 9 b (word64At 5))
    | 2 => .directoryReadSet (fixedBody 3 b (word16At 5))
    | _ => .directoryReadSummary (if b.length ∈ [5, 13, 7] then .badCode (refOf b) .form else .wrongLength (refOf b))

/-- LINK-CONTROL: the link number at offset 4, the action at offset 5: enable, disable, reset, set expected identity (R167). -/
def decodeLinkControl (b : List Byte) : Instr :=
  if b.length < 6 then .linkControlEnable (.wrongLength (refOf b))
  else
    match (byteAt 5 b).toNat with
    | 0 => .linkControlEnable (fixedBody 2 b (byteAt 4))
    | 1 => .linkControlDisable (fixedBody 2 b (byteAt 4))
    | 2 => .linkControlReset (fixedBody 2 b (byteAt 4))
    | 3 => .linkControlSetExpectedIdentity (fixedBody 6 b (fun b => ⟨byteAt 4 b, word32At 6 b⟩))
    | _ =>
      .linkControlEnable
        (if b.length ∈ [6, 10] then .badCode (refOf b) (if 7 < (byteAt 4 b).toNat then .linkNumber else .action)
         else .wrongLength (refOf b))

/-- R192: the tag and the generation of an answer whose body holds them. -/
def tagGenOf (b : List Byte) : Option (Byte × Word16) := if 3 ≤ b.length then some (byteAt 0 b, word16At 1 b) else none

def decodeCardData (b : List Byte) : AnswerFrame CardWire :=
  if b.length = 26 then .body (byteAt 0 b) (word16At 1 b) (decodeCard 3 b) else .wrongLength (tagGenOf b)

def decodeNoSuchCard (b : List Byte) : AnswerFrame Unit :=
  if b.length = 3 then .body (byteAt 0 b) (word16At 1 b) () else .wrongLength (tagGenOf b)

/-- REFERRAL-ANSWER: a presence byte other than the one its length asks for makes the length wrong (DESIGN CHOICE,
notes/assumptions/9). -/
def decodeReferralAnswer (b : List Byte) : AnswerFrame ReferralFields :=
  if b.length = 46 ∧ byteAt 45 b = 0#8 then .body (byteAt 0 b) (word16At 1 b) ⟨decodeReply 3 b, none⟩
  else if b.length = 69 ∧ byteAt 45 b = 1#8 then .body (byteAt 0 b) (word16At 1 b) ⟨decodeReply 3 b, some (decodeCard 46 b)⟩
  else .wrongLength (tagGenOf b)

/-- R190, R192: the command or answer of a kind code and a body. -/
def decodeService (kind : Word16) (b : List Byte) : Instr :=
  match kind.toNat with
  | 256 => .start (fixedBody 0 b (fun _ => ()))
  | 257 => .resetEngine (fixedBody 0 b (fun _ => ()))
  | 258 => .setLimits (fixedBody 12 b decodeLimits)
  | 259 => .timeSet (decodeTimeSet b)
  | 260 => .programSet (fixedBody 31 b decodeProgram)
  | 261 => .programActivate (fixedBody 1 b (byteAt 4))
  | 262 => .programDeactivate (fixedBody 1 b (byteAt 4))
  | 263 => .programLock (fixedBody 1 b (byteAt 4))
  | 264 => .rangeProbe (fixedBody 1 b (byteAt 4))
  | 265 => .passRangeSet (fixedBody 17 b decodePassRange)
  | 266 => .directoryMode (fixedBody 1 b (byteAt 4))
  | 267 => .cardEvict (fixedBody 8 b (word64At 4))
  | 268 => if b.length < 5 then .cardAdjustLoad (.wrongLength (refOf b)) else decodeCardAdjust b
  | 269 => decodeDirectoryRead b
  | 270 => .readFault (fixedBody 0 b (fun _ => ()))
  | 271 => .siteSet (fixedBody 4 b (fun b => ⟨word16At 4 b, word16At 6 b⟩))
  | 272 => .sliceAssign (fixedBody 4 b (fun b => ⟨word16At 4 b, word16At 6 b⟩))
  | 273 => .windowSet (fixedBody 4 b (fun b => ⟨byteAt 4 b, byteAt 5 b, word16At 6 b⟩))
  | 274 => decodeLinkControl b
  | 275 => .setNotices (fixedBody 4 b (fun b => ⟨byteAt 4 b, byteAt 5 b, word16At 6 b⟩))
  | 276 => .readEvents (fixedBody 0 b (fun _ => ()))
  | 277 => .readCounters (fixedBody 0 b (fun _ => ()))
  | 278 => .readStatus (fixedBody 0 b (fun _ => ()))
  | 320 => .cardData (decodeCardData b)
  | 321 => .noSuchCard (decodeNoSuchCard b)
  | 322 => .referralAnswer (decodeReferralAnswer b)
  | 323 => .posted (if b.length = 4 then .body (word32At 0 b) else .wrongLength)
  | _ => .unknownCommand (.body kind (refOf b))

/-- R192: the command that a frame on the service link is. A frame that fails its check is discarded, whatever its kind. -/
def decodeServiceFrame (bs : List Byte) : Instr :=
  match openFrame bs with
  | none => .unknownCommand .badCheck
  | some (kind, body) => decodeService kind body

/-- R190, R192: the commands that the frames of a stream on the service link are, and the bytes left. -/
def serviceCommands (stream : List Byte) : List Instr × List Byte := ((framesIn stream).1.map decodeServiceFrame, (framesIn stream).2)

/-- R190, R191: the commands that the frames of a stream on site link `l` are, and the bytes left. -/
def siteMessages (l : Fin 8) (stream : List Byte) : List Instr × List Byte :=
  ((framesIn stream).1.map (decodeSiteFrame l), (framesIn stream).2)

/-! ### The encoder: the kind and the body of a command that arrives whole -/

def bytes8 (b : Byte) : List Byte := [b]
def bytes16 (w : Word16) : List Byte := toBytes 2 w.toNat
def bytes32 (w : Word32) : List Byte := toBytes 4 w.toNat
def bytes64 (w : Word64) : List Byte := toBytes 8 w.toNat

/-- R192: the 23 bytes of a card record. -/
def encodeCard (w : CardWire) : List Byte :=
  bytes64 w.card ++ bytes8 w.status ++ bytes32 w.core ++ bytes32 w.bonus ++ bytes8 w.expiryPresent ++ bytes16 w.expiryDay ++
    bytes8 w.uses ++ bytes16 w.stamp

/-- R191: the 42 bytes of a till reply. -/
def encodeReply (r : ReplyWire) : List Byte :=
  bytes8 r.lane ++ bytes8 r.kind ++ bytes8 r.outcome ++ bytes8 r.reason ++ bytes8 r.flags ++ bytes32 r.approved ++ bytes32 r.bonus ++
    bytes32 r.core ++ bytes32 r.free ++ bytes32 r.ref ++ bytes16 r.shift ++ bytes16 r.reported ++ bytes32 r.debitTotal ++
    bytes32 r.creditTotal ++ bytes16 r.debitCount ++ bytes16 r.creditCount ++ bytes8 r.overflow

/-- R191: the 22 bytes of a till request. -/
def encodeTillMsg (m : TillMsg) : List Byte :=
  bytes8 m.lane ++ bytes8 m.allowPartial ++ bytes64 m.card ++ bytes32 m.amount ++ bytes32 m.tillRef ++ bytes32 m.holdRef

def encodeHello (h : HelloFields) : List Byte := bytes32 h.identity ++ bytes8 h.level ++ bytes16 h.lanes

/-- R190: the code of a till message's kind. -/
def codeOfTillKind : TillKind → Word16
  | .openTill => 1#16
  | .closeTill => 2#16
  | .enquiry => 3#16
  | .redeem => 4#16
  | .hold => 5#16
  | .complete => 6#16
  | .release => 7#16
  | .reverse => 8#16
  | .reload => 9#16
  | .unknown code => code

/-- The body of a command that arrives whole: its reference, then its fields. -/
def encodeBody {α : Type} (kind : Nat) (f : HostFrame α) (fields : α → List Byte) : Option (Word16 × List Byte) :=
  match f with
  | .body ref x => some (BitVec.ofNat 16 kind, bytes32 ref ++ fields x)
  | _ => none

def encodeAnswer {α : Type} (kind : Nat) (f : AnswerFrame α) (fields : α → List Byte) : Option (Word16 × List Byte) :=
  match f with
  | .body tag gen x => some (BitVec.ofNat 16 kind, bytes8 tag ++ bytes16 gen ++ fields x)
  | _ => none

def encodeProgram (x : ProgramFields) : List Byte :=
  bytes8 x.number ++ bytes64 x.first ++ bytes64 x.count ++ bytes32 x.maximumBalance ++ bytes16 x.holdLifetime ++ bytes8 x.tipTolerance ++
    bytes8 x.bonusCap ++ bytes8 x.dailyUseLimit ++ bytes32 x.standInLimit ++ bytes8 x.gating

/-- R192: an optional field; a malformed presence byte is written as 2 with no field behind it. -/
def encodeOption {α : Type} (f : α → List Byte) : WireOpt α → List Byte
  | .absent => [0#8]
  | .present x => [1#8] ++ f x
  | .malformed => [2#8]

def encodeTime (x : TimeFields) : List Byte := bytes16 x.day ++ bytes32 x.time ++ encodeOption bytes8 x.cutover

def encodeSetBonus (x : SetBonusFields) : List Byte := bytes64 x.card ++ bytes32 x.bonus ++ encodeOption bytes16 x.expiry

def encodeReferral (x : ReferralFields) : List Byte :=
  encodeReply x.reply ++ match x.record with
    | none => [0#8]
    | some w => [1#8] ++ encodeCard w

/-- The kind and the body of a service-link frame that spells the command; none for a command that no whole frame spells. -/
def encodeService : Instr → Option (Word16 × List Byte)
  | .start f => encodeBody 256 f (fun _ => [])
  | .resetEngine f => encodeBody 257 f (fun _ => [])
  | .setLimits f => encodeBody 258 f (fun x => bytes32 x.hostAnswer ++ bytes32 x.gate ++ bytes32 x.presence)
  | .timeSet f => encodeBody 259 f encodeTime
  | .programSet f => encodeBody 260 f encodeProgram
  | .programActivate f => encodeBody 261 f bytes8
  | .programDeactivate f => encodeBody 262 f bytes8
  | .programLock f => encodeBody 263 f bytes8
  | .rangeProbe f => encodeBody 264 f bytes8
  | .passRangeSet f => encodeBody 265 f (fun x => bytes8 x.number ++ bytes64 x.first ++ bytes64 x.count)
  | .directoryMode f => encodeBody 266 f bytes8
  | .cardEvict f => encodeBody 267 f bytes64
  | .cardAdjustLoad f => encodeBody 268 f (fun x => [0#8] ++ encodeCard x)
  | .cardAdjustUnload f => encodeBody 268 f (fun x => [1#8] ++ bytes64 x)
  | .cardAdjustSetBonus f => encodeBody 268 f (fun x => [2#8] ++ encodeSetBonus x)
  | .cardAdjustBlock f => encodeBody 268 f (fun x => [3#8] ++ bytes64 x)
  | .cardAdjustUnblock f => encodeBody 268 f (fun x => [4#8] ++ bytes64 x)
  | .directoryReadSummary f => encodeBody 269 f (fun _ => [0#8])
  | .directoryReadCard f => encodeBody 269 f (fun x => [1#8] ++ bytes64 x)
  | .directoryReadSet f => encodeBody 269 f (fun x => [2#8] ++ bytes16 x)
  | .readFault f => encodeBody 270 f (fun _ => [])
  | .siteSet f => encodeBody 271 f (fun x => bytes16 x.index ++ bytes16 x.identity)
  | .sliceAssign f => encodeBody 272 f (fun x => bytes16 x.slice ++ bytes16 x.site)
  | .windowSet f => encodeBody 273 f (fun x => bytes8 x.link ++ bytes8 x.window ++ bytes16 x.slice)
  | .linkControlEnable f => encodeBody 274 f (fun x => bytes8 x ++ [0#8])
  | .linkControlDisable f => encodeBody 274 f (fun x => bytes8 x ++ [1#8])
  | .linkControlReset f => encodeBody 274 f (fun x => bytes8 x ++ [2#8])
  | .linkControlSetExpectedIdentity f => encodeBody 274 f (fun x => bytes8 x.link ++ [3#8] ++ bytes32 x.identity)
  | .setNotices f => encodeBody 275 f (fun x => bytes8 x.routine ++ bytes8 x.exceptional ++ bytes16 x.events)
  | .readEvents f => encodeBody 276 f (fun _ => [])
  | .readCounters f => encodeBody 277 f (fun _ => [])
  | .readStatus f => encodeBody 278 f (fun _ => [])
  | .unknownCommand .badCheck => none
  | .unknownCommand (.body kind ref) => some (kind, bytes32 ref)
  | .cardData f => encodeAnswer 320 f encodeCard
  | .noSuchCard f => encodeAnswer 321 f (fun _ => [])
  | .referralAnswer f => encodeAnswer 322 f encodeReferral
  | .posted (.body n) => some (323#16, bytes32 n)
  | .posted _ => none
  | .powerOnReset | .journalSend | .linkHello _ _ | .presence _ _ | .tillMessageArrival _ _ | .presenceTimeout _ | .openTill _
  | .closeTill _ | .enquiry _ | .redeem _ | .hold _ | .complete _ | .release _ | .reverse _ | .reload _ | .unknownTillKind _
  | .delivery _ | .fetchAnswerTimeout _ | .fetchGateTimeout _ | .referralTimeout _ | .gateTimeout _ _ | .holdExpiry _ _
  | .dayRollover | .storedContentAltered _ _ _ | .serviceMessageTransmitted => none

/-- The service-link frame that spells the command. -/
def encodeServiceFrame (i : Instr) : Option (List Byte) := (encodeService i).map (fun x => frameOf x.1 x.2)

/-- The site-link frame that spells a hello, a PRESENCE or a till message; none for any other command. -/
def encodeSiteFrame : Instr → Option (Fin 8 × List Byte)
  | .linkHello l (.good h) => some (l, frameOf 16#16 (encodeHello h))
  | .presence l (.good ()) => some (l, frameOf 17#16 [])
  | .tillMessageArrival l (.good m) => some (l, frameOf (codeOfTillKind m.kind) (encodeTillMsg m))
  | .linkHello _ .damaged | .presence _ .damaged | .tillMessageArrival _ .damaged | .powerOnReset | .resetEngine _ | .start _
  | .setLimits _ | .timeSet _ | .programSet _ | .programActivate _ | .programDeactivate _ | .programLock _ | .rangeProbe _
  | .passRangeSet _ | .directoryMode _ | .cardEvict _ | .cardAdjustLoad _ | .cardAdjustUnload _ | .cardAdjustSetBonus _
  | .cardAdjustBlock _ | .cardAdjustUnblock _ | .directoryReadSummary _ | .directoryReadCard _ | .directoryReadSet _
  | .readFault _ | .siteSet _ | .sliceAssign _ | .windowSet _ | .linkControlEnable _ | .linkControlDisable _
  | .linkControlReset _ | .linkControlSetExpectedIdentity _ | .setNotices _ | .readEvents _ | .readCounters _ | .readStatus _
  | .unknownCommand _ | .cardData _ | .noSuchCard _ | .referralAnswer _ | .posted _ | .journalSend | .presenceTimeout _
  | .openTill _ | .closeTill _ | .enquiry _ | .redeem _ | .hold _ | .complete _ | .release _ | .reverse _ | .reload _
  | .unknownTillKind _ | .delivery _ | .fetchAnswerTimeout _ | .fetchGateTimeout _ | .referralTimeout _ | .gateTimeout _ _
  | .holdExpiry _ _ | .dayRollover | .storedContentAltered _ _ _ | .serviceMessageTransmitted => none

end Sys2Proof
end

