-- ==== Sys2Proof/Machine/Table.lean ====
section
/-! DEFINITION. A table of the part held sparsely: the entries that differ from the table's power-on value, by key.
The canonical form (`Table.wf`): keys strictly rising, no entry equal to the power-on value; so equal tables are equal data. -/

namespace Sys2Proof

/-- A sparse table: pairs of a key and its entry. -/
structure Table (α : Type) where
  cells : List (Nat × α)
deriving DecidableEq, Repr

namespace Table

/-- The table whose every entry is the power-on value. -/
def empty {α : Type} : Table α := ⟨[]⟩

def getFrom {α : Type} (dflt : α) : List (Nat × α) → Nat → α
  | [], _ => dflt
  | (k, v) :: t, i => if i = k then v else getFrom dflt t i

/-- The entry at key `i`; `dflt` is the table's power-on value. -/
def get {α : Type} (dflt : α) (t : Table α) (i : Nat) : α := getFrom dflt t.cells i

def dropKey {α : Type} (i : Nat) : List (Nat × α) → List (Nat × α)
  | [] => []
  | (k, v) :: t => if i = k then dropKey i t else (k, v) :: dropKey i t

def insertKey {α : Type} (i : Nat) (v : α) : List (Nat × α) → List (Nat × α)
  | [] => [(i, v)]
  | (k, w) :: t => if i < k then (i, v) :: (k, w) :: t else (k, w) :: insertKey i v t

/-- The table with entry `v` at key `i`. Writing the power-on value removes the cell. -/
def set {α : Type} [DecidableEq α] (dflt : α) (t : Table α) (i : Nat) (v : α) : Table α :=
  ⟨if v = dflt then dropKey i t.cells else insertKey i v (dropKey i t.cells)⟩

/-- The table with `f` applied to every entry, where `f` keeps the power-on value. -/
def mapEntries {α : Type} [DecidableEq α] (dflt : α) (f : α → α) (t : Table α) : Table α :=
  ⟨(t.cells.map (fun c => (c.1, f c.2))).filter (fun c => decide (c.2 ≠ dflt))⟩

/-- The keys at which the table stands away from its power-on value, lowest first. -/
def keys {α : Type} (t : Table α) : List Nat := t.cells.map (fun c => c.1)

/-- Every key of `cells` is above `lo`, the keys rise strictly, and no entry is `dflt`. -/
def risesFrom {α : Type} [DecidableEq α] (dflt : α) : Option Nat → List (Nat × α) → Bool
  | _, [] => true
  | lo, (k, v) :: t =>
    (match lo with
      | none => true
      | some b => decide (b < k)) && decide (v ≠ dflt) && risesFrom dflt (some k) t

/-- The canonical form. -/
def wf {α : Type} [DecidableEq α] (dflt : α) (t : Table α) : Bool := risesFrom dflt none t.cells

end Table
end Sys2Proof
end

