-- ==== Sys2Proof/Machine/State.lean ====
section
/-! DEFINITION. The state of the part, as plain data: every piece of state the spec gives it (INVENTORY.md, State), and the few
fields that are the model's own. -/

namespace Sys2Proof.Machine

/-! ### Time -/

/-- A reading of the business clock (R170): a day number and a time of day in milliseconds. -/
structure Reading where
  day : Nat
  time : Nat
deriving DecidableEq, Repr

/-- The Business Clock (R170). -/
structure Clock where
  reading : Reading
  cutover : Nat
  notSet : Bool
deriving DecidableEq, Repr

/-! ### Programs -/

/-- R27, reply gating. -/
inductive Gating where
  | early | gated
deriving DecidableEq, Repr

/-- R27, the state of a program. -/
inductive ProgramState where
  | inactive | active
deriving DecidableEq, Repr

/-- The seven limits of a program (R27). -/
structure ProgramLimits where
  maximumBalance : Nat
  holdLifetime : Nat
  tipTolerance : Nat
  bonusCap : Nat
  dailyUseLimit : Nat
  standInLimit : Nat
  gating : Gating
deriving DecidableEq, Repr

/-- A range of card numbers: a first card number and a count (R17, R28). -/
structure Range where
  first : Nat
  count : Nat
deriving DecidableEq, Repr

/-- A program record (R27). -/
structure Program where
  range : Range
  state : ProgramState
  locked : Bool
  limits : ProgramLimits
deriving DecidableEq, Repr

/-- R27: the values every record takes at power-on reset. -/
def Program.default : Program :=
  { range := ⟨0, 0⟩, state := .inactive, locked := false,
    limits := { maximumBalance := 50000, holdLifetime := 240, tipTolerance := 20, bonusCap := 100,
                dailyUseLimit := 0, standInLimit := 0, gating := .early } }

/-! ### The Card Directory -/

/-- R13: where a flush goes. -/
inductive FlushTarget where
  | off | warming
deriving DecidableEq, Repr

/-- The directory mode (R13), with the flush target while FLUSHING. -/
inductive DirMode where
  | off | warming | normal | frozen
  | flushing (target : FlushTarget)
deriving DecidableEq, Repr

/-- A resident card record (R1): the seven supplied fields, the unposted count and the 32-bit check code. -/
structure CardRecord where
  data : CardData
  unposted : Nat
  check : Word32
deriving DecidableEq, Repr

/-- R3: the state of a way. A VALID way also has the number of its stay (R55). -/
inductive WayState where
  | invalid
  | reserved (card : Nat)
  | valid (record : CardRecord) (stay : Nat)
deriving DecidableEq, Repr

/-- A way of a set: its number 0 to 3 and its state. -/
structure Way where
  no : Nat
  st : WayState
deriving DecidableEq, Repr

/-- A set of the directory: its four ways in recency order, least recently used first (R3, R4). -/
structure DirSet where
  ways : List Way
deriving DecidableEq, Repr

/-- R4: a set after reset. -/
def DirSet.default : DirSet := ⟨[⟨0, .invalid⟩, ⟨1, .invalid⟩, ⟨2, .invalid⟩, ⟨3, .invalid⟩]⟩

/-- A latched check fault (R11). -/
structure LatchedFault where
  card : Nat
  set : Nat
  way : Nat
deriving DecidableEq, Repr

/-- The fault record (R11, R12). -/
structure FaultRecord where
  latched : Option LatchedFault
  count : Nat
  overflow : Bool
deriving DecidableEq, Repr

/-! ### Holds -/

/-- R83. A CAPTURING hold has its capture fields (R51). -/
inductive HoldState where
  | new
  | opened
  | capturing (bonus core extra : Nat)
deriving DecidableEq, Repr

/-- A live hold (R81). `id` is the model's own number for it, notes/assumptions/5. -/
structure Hold where
  id : Nat
  site : Nat
  ref : Word32
  card : Nat
  bonus : Nat
  core : Nat
  tip : Nat
  expiry : Reading
  state : HoldState
deriving DecidableEq, Repr

/-- An expiry note (R84); `hold` is the number of the hold that expired, notes/assumptions/12. -/
structure ExpiryNote where
  site : Nat
  ref : Word32
  hold : Nat
deriving DecidableEq, Repr

/-! ### The journal -/

/-- R124. -/
inductive JournalKind where
  | debit | capture | reload | reversal | standIn | undo | forfeit | adjust
deriving DecidableEq, Repr

/-- The till fields of a journal record (R124): all present or all absent. -/
structure Origin where
  site : Nat
  till : Nat
  ref : Word32
deriving DecidableEq, Repr

/-- A journal record (R124). -/
structure JournalRecord where
  sequence : Nat
  kind : JournalKind
  card : Nat
  origin : Option Origin
  bonusDelta : Int
  coreDelta : Int
  forfeited : Option Nat
  undone : Option Nat
  date : Nat
  instant : Reading
deriving DecidableEq, Repr

/-- The Journal Queue (R123, R137, R138, R192). -/
structure Journal where
  records : List JournalRecord
  nextSeq : Nat
  highestSent : Nat
  reserved : Nat
  highArmed : Bool
  refusing : Bool
  highestPosted : Nat
deriving DecidableEq, Repr

/-! ### Tills -/

/-- R72. -/
inductive StackKind where
  | debit | capture | standIn
deriving DecidableEq, Repr

/-- A debit stack entry (R72). `id` is the model's own number for it, notes/assumptions/5. -/
structure StackEntry where
  id : Nat
  ref : Word32
  card : Nat
  kind : StackKind
  bonus : Nat
  core : Nat
  sequence : Option Nat
  approvalDate : Option Nat
  reversing : Bool
deriving DecidableEq, Repr

/-- A till record (R148); the stack newest first. -/
structure Till where
  isOpen : Bool
  shift : Nat
  debitTotal : Nat
  creditTotal : Nat
  debitCount : Nat
  creditCount : Nat
  overflow : Bool
  stack : List StackEntry
deriving DecidableEq, Repr

/-- R154: a till after power-on reset. -/
def Till.default : Till := ⟨false, 0, 0, 0, 0, 0, false, []⟩

/-! ### Till replies -/

/-- The outcome of a till reply (R41, R191): APPROVED, PARTIAL or DECLINED. -/
inductive Decision where
  | approved | partly | declined
deriving DecidableEq, Repr

/-- The decline reasons, in the order of their codes (R191). -/
inductive Reason where
  | insufficient | cardUnknown | cardBlocked | noProgram | limitReached | holdLimit | duplicate | notFound
  | tooLate | overTolerance | outOfOrder | overMaximum | alreadyOpen | tillClosed | notMapped | badRequest
  | badAmount | systemBusy | busy | unavailable
deriving DecidableEq, Repr

/-- What an OPEN-TILL or CLOSE-TILL reply reports (R149, R150, R191 from offset 25). -/
structure ShiftReport where
  shift : Nat
  reported : Nat
  debitTotal : Nat
  creditTotal : Nat
  debitCount : Nat
  creditCount : Nat
  overflow : Bool
deriving DecidableEq, Repr

/-- R191: the fields from offset 25 in replies to the other kinds. -/
def ShiftReport.zero : ShiftReport := ⟨0, 0, 0, 0, 0, 0, false⟩

/-- A till reply (R62, R191). -/
structure TillReply where
  lane : Byte
  kind : Byte
  outcome : Decision
  reason : Option Reason
  training : Bool
  standIn : Bool
  hostDecided : Bool
  free : Option Nat
  approved : Nat
  bonus : Nat
  core : Nat
  ref : Word32
  report : ShiftReport
deriving DecidableEq, Repr

/-! ### Site links -/

/-- R156. -/
inductive LinkState where
  | disabled | listening | up
deriving DecidableEq, Repr

/-- R140: what is noted of a request's till at take-off. -/
structure NotedTill where
  till : Nat
  site : Option Nat
  shift : Nat
deriving DecidableEq, Repr

/-- What a request in process is bound to: nothing, the hold its key found (R88), or the stack entry it named (R75). -/
inductive Binding where
  | free
  | hold (id : Nat) (card : Nat)
  | entry (e : StackEntry)
deriving DecidableEq, Repr

/-- The unconfirmed effect an undo record holds (R63, R86, R89, R120), with its amounts. -/
inductive Effect where
  | redeem (bonus core : Nat)
  | hold (id : Nat)
  | capture (id : Nat) (bonus core extra : Nat)
  | reload (amount : Nat)
  | reverse (bonus core : Nat)
  | standIn (amount : Nat) (date : Nat)
deriving DecidableEq, Repr

/-- An undo record (R63): the card, the effect, the stay in which it was made or none when the card was not resident (R55), the sequence
of its record, and the till fields its UNDO record copies (R125). `sequence` is none for a HOLD, which has no slot (R86). -/
structure UndoRecord where
  card : Nat
  effect : Effect
  stay : Option Nat
  sequence : Option Nat
  origin : Option Origin
deriving DecidableEq, Repr

/-- R163: the state of a reply queue entry, with what each state holds. -/
inductive ReplyState where
  | reserved
  | gated (reply : TillReply) (undo : UndoRecord) (awaited : Nat) (timer : Nat)
  | ready (reply : TillReply) (undo : Option UndoRecord) (referral : Option (Nat × Nat))
deriving DecidableEq, Repr

/-- A reply queue entry (R163). `slot` is the model's own number for it, and `nextEntry` the number that the next debit stack entry to be
pushed had at take-off: an entry of that number or a higher one has been pushed since (R77). Both: notes/assumptions/5. -/
structure ReplyEntry where
  slot : Nat
  msg : TillMsg
  noted : Option NotedTill
  bound : Binding
  nextEntry : Nat
  state : ReplyState
deriving DecidableEq, Repr

/-- A counter with its overflow flag (R168, R188). -/
structure Counter where
  value : Nat
  overflow : Bool
deriving DecidableEq, Repr

def Counter.zero : Counter := ⟨0, false⟩

/-- What has left the part on a site link (R190). -/
inductive SiteOut where
  | tillReply (reply : TillReply)
  | linkAccept (link windowA windowB presence : Nat)
  | linkReject (identity : Bool)
deriving DecidableEq, Repr

/-- A Site Link Unit (R155) with the link's two windows (R147). `sent` is what the link's stream has been handed. -/
structure Link where
  state : LinkState
  enabled : Bool
  expected : Word32
  session : Option Word32
  lanes : Option Word16
  presenceLimit : Option Nat
  presenceTimer : Option Nat
  inbound : List TillMsg
  replies : List ReplyEntry
  dropped : Counter
  badFrame : Counter
  rejected : Counter
  windowA : Nat
  windowB : Nat
  sent : List SiteOut
deriving DecidableEq, Repr

/-- R169, R154: a link after power-on reset. -/
def Link.default : Link :=
  { state := .disabled, enabled := true, expected := 0#32, session := none, lanes := none, presenceLimit := none,
    presenceTimer := none, inbound := [], replies := [], dropped := Counter.zero, badFrame := Counter.zero,
    rejected := Counter.zero, windowA := 0, windowB := 1, sent := [] }

/-! ### The Host Request Table and the Stand-in Unit -/

/-- A request waiting on a fetch (R110): its link and its reply slot. -/
structure Waiter where
  link : Nat
  slot : Nat
deriving DecidableEq, Repr

/-- A FETCH entry (R101): SENT or, when `sent` is false, WAITING-POST. -/
structure Fetch where
  card : Nat
  set : Nat
  way : Nat
  sent : Bool
  waiters : List Waiter
deriving DecidableEq, Repr

/-- A REFERRAL entry (R101): the request as taken, its link and reply slot, the abandoned mark. -/
structure Referral where
  link : Nat
  slot : Nat
  msg : TillMsg
  bound : Binding
  abandoned : Bool
deriving DecidableEq, Repr

inductive HostKind where
  | fetch (f : Fetch)
  | referral (r : Referral)
deriving DecidableEq, Repr

/-- An entry of the Host Request Table (R101, R102): its generation, the generations it had before (R109), the milliseconds its running
timer has left (R105, R107). -/
structure HostEntry where
  gen : Nat
  oldGens : List Nat
  timer : Nat
  kind : HostKind
deriving DecidableEq, Repr

/-- An entry of the exposure table (R119). -/
structure Exposure where
  amount : Nat
  count : Nat
deriving DecidableEq, Repr

/-- R119: "A card with no entry has exposure 0 and a stand-in count of 0." -/
def Exposure.none : Exposure := ⟨0, 0⟩

/-! ### The Service Link Unit -/

/-- R180. -/
inductive PartState where
  | standby | serving
deriving DecidableEq, Repr

/-- R183. -/
structure Limits where
  hostAnswer : Nat
  gate : Nat
  presence : Nat
deriving DecidableEq, Repr

/-- The eleven events, in the order of R185's table. -/
inductive Event where
  | linkUp | dayRollover | flushDone | lateAnswer | linkLost | helloRejected | journalHigh | journalFull
  | hostTimeout | standIn | checkFault
deriving DecidableEq, Repr

/-- The flags of the events (R184), a bit for each event in the order of R185's table, and the class enables. -/
structure EventFlags where
  pending : Word16
  enables : Word16
  routine : Bool
  exceptional : Bool
deriving DecidableEq, Repr

/-- R188. -/
structure PartCounters where
  late : Counter
  standIn : Counter
  checkFault : Counter
  badPosted : Counter
deriving DecidableEq, Repr

/-- What a NOTICE carries, by event (R185). -/
inductive NoticeData where
  | linkUp (link : Nat) (session : Word32)
  | dayRollover (date : Nat) (byTimeSet : Bool) (stackEntries exposures : Nat)
  | flushDone (reached : FlushTarget)
  | lateAnswer (kind : Word16) (tag gen : Nat)
  | linkLost (link : Nat) (byHello : Bool) (undone abandoned undelivered : Nat)
  | helloRejected (link : Nat) (byIdentity : Bool) (identity : Word32) (level : Byte)
  | journalHigh (records reserved oldest highestSent : Nat)
  | journalFull (kind : Word16) (records reserved : Nat)
  | hostTimeout (tag : Nat) (fetch : Bool) (card : Option Nat) (sent : Bool)
  | standIn (card amount exposure count sequence : Nat)
  | checkFault (card set way : Nat) (latched : Bool) (count : Nat)
deriving DecidableEq, Repr

/-- R179, in the order of its reason table. -/
inductive RefuseReason where
  | badField | unknownCommand | wrongState | locked | active | overlap | rangeInUse | holdsPresent | pinned
  | notResident | cardBusy | tillsOpen | clockNotSet | clockBackward
deriving DecidableEq, Repr

/-- R25: a way as DIRECTORY-READ SET reports it. -/
structure WayReport where
  way : Nat
  state : Nat
  card : Option Nat
  unposted : Option Nat
  pinned : Option Bool
deriving DecidableEq, Repr

/-- R25: a card as DIRECTORY-READ CARD reports it. -/
inductive CardReport where
  | notResident
  | reserved (way : Nat)
  | valid (way : Nat) (data : CardData) (unposted : Nat) (pinned : Bool) (holds : Nat)
deriving DecidableEq, Repr

/-- R168: what READ-STATUS reports of a link. -/
structure LinkReport where
  state : LinkState
  enabled : Bool
  expected : Word32
  session : Option Word32
  lanes : Option Word16
  windowA : Nat
  windowB : Nat
  inbound : Nat
  reserved : Nat
  gated : Nat
  ready : Nat
deriving DecidableEq, Repr

/-- R39, R189: a program as RANGE-PROBE and READ-STATUS report it. -/
structure ProgramReport where
  number : Nat
  range : Range
  state : ProgramState
  locked : Bool
deriving DecidableEq, Repr

/-- R189. -/
structure StatusReport where
  part : PartState
  limits : Limits
  routine : Bool
  exceptional : Bool
  enables : Word16
  reading : Reading
  cutover : Nat
  date : Nat
  notSet : Bool
  programs : List ProgramReport
  mode : DirMode
  valid : Nat
  reserved : Nat
  pinned : Nat
  holds : Nat
  notes : Nat
  fetches : Nat
  referrals : Nat
  waitingPost : Nat
  records : Nat
  oldest : Option Nat
  nextSeq : Nat
  highestSent : Nat
  undoSlots : Nat
  highArmed : Bool
  refusing : Bool
  exposures : Nat
  links : List LinkReport
deriving DecidableEq, Repr

/-- The counters of one link as READ-COUNTERS reports them (R188). -/
structure LinkCounters where
  dropped : Counter
  badFrame : Counter
  rejected : Counter
deriving DecidableEq, Repr

/-- The data a RESULT DONE carries, as each command's entry gives it. -/
inductive ResultData where
  | none
  | listening (links : Nat)
  | engineReset (undone abandoned undelivered holds ways requests : Nat)
  | limits (now : Limits) (clamped : List Field)
  | clock (reading : Reading) (date : Nat) (rollover : Bool) (expired : Nat)
  | probe (range : Range) (programs : List ProgramReport) (passRanges : List (Nat × Range))
  | notResident
  | record (data : CardData) (unposted : Nat)
  | summary (mode : DirMode) (valid reserved pinned : Nat) (ranges : List Range)
  | card (set : Nat) (report : CardReport)
  | set (ways : List WayReport)
  | fault (record : FaultRecord)
  | notices (routine exceptional : Bool) (enables : Word16)
  | events (pending : Word16)
  | counters (part : PartCounters) (links : List LinkCounters)
  | status (report : StatusReport)
deriving DecidableEq, Repr

/-- The status of a RESULT with what it carries (R179). -/
inductive ResultBody where
  | done (data : ResultData)
  | doneClamped (data : ResultData)
  | refused (reason : RefuseReason) (field : Option Field) (programs : List Nat)
deriving DecidableEq, Repr

/-- R115: what completes a referred REVERSE. -/
structure ReverseFields where
  card : Nat
  kind : StackKind
  bonus : Nat
  core : Nat
  sequence : Option Nat
deriving DecidableEq, Repr

/-- A message to the host (R190). A JOURNAL's `posted` is the highest posted so far when it is transmitted (R192). -/
inductive HostMsg where
  | result (kind : Word16) (ref : Word32) (body : ResultBody)
  | answerRefused (kind : Word16) (tagGen : Option (Nat × Nat))
  | cardFetch (tag gen card : Nat)
  | referral (tag gen : Nat) (request : TillMsg) (reverse : Option ReverseFields) (till site : Nat)
  | undelivered (tag gen : Nat) (reply : TillReply)
  | journal (record : JournalRecord) (posted : Nat)
  | notice (event : Event) (reading : Reading) (data : NoticeData)
deriving DecidableEq, Repr

/-! ### The whole -/

/-- The state of the part. -/
structure State where
  /-- The commands waiting, first in first out. The model's own, notes/assumptions/1. -/
  pending : List Instr
  part : PartState
  limits : Limits
  clock : Clock
  events : EventFlags
  counters : PartCounters
  /-- The messages queued on the service link, oldest first (R178, R182). -/
  out : List HostMsg
  programs : Table Program
  dirMode : DirMode
  passRanges : Table Range
  fault : FaultRecord
  dir : Table DirSet
  /-- The live holds, in creation order (R81, R82). -/
  holds : List Hold
  /-- Oldest first (R84). -/
  notes : List ExpiryNote
  /-- The holds that expired and whose notes a later HOLD of the same key has removed (R84, R86), by number: what a request bound to one
  of them is told (R89, R96). The model's own, notes/assumptions/12. -/
  renoted : List Nat
  generations : Table Nat
  requests : Table (Option HostEntry)
  /-- By card number (R119). -/
  exposures : Table Exposure
  journal : Journal
  siteIds : Table Nat
  siteHolds : Table Nat
  slices : Table (Option Nat)
  tills : Table Till
  links : Table Link
  /-- Fresh numbers for stays, holds, stack entries and reply slots. The model's own, notes/assumptions/5. -/
  nextStay : Nat
  nextHold : Nat
  nextEntry : Nat
  nextSlot : Nat
  /-- What has been transmitted to the host since power-on. The model's own, notes/assumptions/6. -/
  sentToHost : List HostMsg
deriving DecidableEq, Repr

/-- The faults of the machine: none. No event of the spec stops the part (INVENTORY.md, Faults). -/
inductive Fault where
deriving DecidableEq, Repr

/-- The refusals of the machine. -/
inductive Refusal where
  /-- A command that has no meaning yet, by its mnemonic. Raised by an arm of `exec` alone; safe. No arm raises it. -/
  | notModelled (mnemonic : String)
deriving DecidableEq, Repr

/-- R139: the Journal Queue after power-on reset. -/
def Journal.reset : Journal :=
  { records := [], nextSeq := 1, highestSent := 0, reserved := 0, highArmed := true, refusing := false, highestPosted := 0 }

/-- The machine right after power-on reset (R26, R40, R98, R119, R122, R139, R154, R169, R170, R180, R182, R183, R184, R188). -/
def State.reset : State :=
  { pending := []
    part := .standby
    limits := ⟨400, 1500, 3000⟩
    clock := ⟨⟨0, 0⟩, 4, true⟩
    events := ⟨0#16, 0#16, false, false⟩
    counters := ⟨Counter.zero, Counter.zero, Counter.zero, Counter.zero⟩
    out := []
    programs := Table.empty
    dirMode := .off
    passRanges := Table.empty
    fault := ⟨none, 0, false⟩
    dir := Table.empty
    holds := []
    notes := []
    renoted := []
    generations := Table.empty
    requests := Table.empty
    exposures := Table.empty
    journal := Journal.reset
    siteIds := Table.empty
    siteHolds := Table.empty
    slices := Table.empty
    tills := Table.empty
    links := Table.empty
    nextStay := 0
    nextHold := 0
    nextEntry := 0
    nextSlot := 0
    sentToHost := [] }

end Sys2Proof.Machine
end

