-- ==== Sys2Proof/Machine/Time.lean ====
section
/-! DEFINITION. Readings of the business clock and the business date (spec 10 R170 to R172). -/

namespace Sys2Proof.Machine

/-- A reading as milliseconds from day 0, 00:00. -/
def Reading.ms (r : Reading) : Nat := r.day * Config.dayMs + r.time

/-- The reading that many milliseconds from day 0, 00:00. -/
def Reading.ofMs (n : Nat) : Reading := ⟨n / Config.dayMs, n % Config.dayMs⟩

/-- `a` is at or before `b`. -/
def Reading.le (a b : Reading) : Bool := decide (a.ms ≤ b.ms)

/-- R172: the reading the clock does not advance past. -/
def lastReading : Reading := ⟨Config.lastDay, Config.dayMs - 1⟩

/-- R171: the business date a reading gives under a cutover hour (`0 - 1 = 0` at day 0). -/
def businessDateOf (cutover : Nat) (r : Reading) : Nat :=
  if cutover * Config.hourMs ≤ r.time then r.day else r.day - 1

/-- R170: what the clock reads; day 0, 00:00 while NOT-SET. -/
def Clock.now (c : Clock) : Reading := if c.notSet then ⟨0, 0⟩ else c.reading

/-- R171: the business date; 0 while NOT-SET (R170). -/
def Clock.businessDate (c : Clock) : Nat := if c.notSet then 0 else businessDateOf c.cutover c.reading

/-- The first reading of the next business date (R171, R172). -/
def Clock.nextCutover (c : Clock) : Reading := ⟨c.businessDate + 1, c.cutover * Config.hourMs⟩

def State.now (s : State) : Reading := s.clock.now
def State.date (s : State) : Nat := s.clock.businessDate

/-- R86: the expiry instant of a hold made now with a lifetime of so many minutes; the day may pass 65,535. -/
def expiryInstant (now : Reading) (minutes : Nat) : Reading := Reading.ofMs (now.ms + minutes * Config.minuteMs)

end Sys2Proof.Machine
end

