-- ==== Sys2Proof/Machine/Flags.lean ====
section
/-! DEFINITION. Counters with their overflow flags (R168, R188), the event flags and NOTICEs (R184, R185). -/

namespace Sys2Proof.Machine

/-- R168, R188: a counter rises by one; at 65,535 it stays there and its overflow flag is set. -/
def Counter.bump (c : Counter) : Counter :=
  if c.value < Config.counterTop then { c with value := c.value + 1 } else { c with overflow := true }

/-- R192: the bit of an event, "in the order of the event table of The Service Link". -/
def Event.index : Event → Nat
  | .linkUp => 0
  | .dayRollover => 1
  | .flushDone => 2
  | .lateAnswer => 3
  | .linkLost => 4
  | .helloRejected => 5
  | .journalHigh => 6
  | .journalFull => 7
  | .hostTimeout => 8
  | .standIn => 9
  | .checkFault => 10

/-- R185: the first four events are routine, the others exceptional. -/
def Event.isRoutine (e : Event) : Bool := decide (e.index < 4)

/-- The set that holds one event. -/
def Event.bit (e : Event) : Word16 := 1#16 <<< e.index

/-- R184: the event's own enable and its class's enable are both set. -/
def EventFlags.notices (f : EventFlags) (e : Event) : Bool :=
  f.enables.getLsbD e.index && (if e.isRoutine then f.routine else f.exceptional)

/-- R178: a message joins the service link behind every message already queued. -/
def State.queue (s : State) (m : HostMsg) : State := { s with out := s.out ++ [m] }

/-- R184: an event is raised. Its pending flag is set, and a NOTICE is queued when its enables are set. -/
def State.raise (s : State) (e : Event) (d : NoticeData) : State :=
  { s with
    events := { s.events with pending := s.events.pending ||| e.bit }
    out := if s.events.notices e then s.out ++ [.notice e s.now d] else s.out }

end Sys2Proof.Machine
end

