-- ==== Sys2Proof/Machine/Operands.lean ====
section
/-! DEFINITION. The operand forms: what a field of a frame says (spec 12 R190 to R192), and none where it is malformed. -/

namespace Sys2Proof.Machine

/-- `n` packed decimal digits, the last in the lowest half-byte; none when a half-byte is above 9 (R190). -/
def bcdDigits : Nat → Nat → Option Nat
  | 0, _ => some 0
  | n + 1, w => if w % 16 ≤ 9 then (bcdDigits n (w / 16)).map (fun hi => hi * 10 + w % 16) else none

/-- R190: the card number a packed decimal field says. -/
def cardOfBcd (w : Word64) : Option Nat := bcdDigits 16 w.toNat

/-- `n` decimal digits, packed. -/
def packDigits : Nat → Nat → Nat
  | 0, _ => 0
  | n + 1, c => packDigits n (c / 10) * 16 + c % 10

/-- R190: a card number as packed decimal. -/
def bcdOfCard (c : Nat) : Word64 := BitVec.ofNat 64 (packDigits 16 c)

/-- R190: a yes/no field. -/
def yesNo (b : Byte) : Option Bool :=
  if b = 0#8 then some false else if b = 1#8 then some true else none

/-- R192: reply gating, 0 EARLY and 1 GATED. -/
def gatingOf (b : Byte) : Option Gating :=
  if b = 0#8 then some .early else if b = 1#8 then some .gated else none

/-- R192, R13: a directory mode as a command names it, in the order of the mode table; FLUSHING is no target. -/
inductive ModeTarget where
  | off | warming | normal | frozen
deriving DecidableEq, Repr

/-- R13: a target outside the five modes, or FLUSHING (code 4), is none. -/
def modeTarget (b : Byte) : Option ModeTarget :=
  if b = 0#8 then some .off else if b = 1#8 then some .warming
  else if b = 2#8 then some .normal else if b = 3#8 then some .frozen else none

/-- R192: the card record; none when its card number, status or presence field is malformed. An expiry day is not read when absent. -/
def readCard (w : CardWire) : Option CardData :=
  match cardOfBcd w.card, yesNo w.status, yesNo w.expiryPresent with
  | some card, some blocked, some present =>
    some { card := card
           status := if blocked then .blocked else .active
           core := w.core.toNat
           bonus := w.bonus.toNat
           expiry := if present then some w.expiryDay.toNat else none
           uses := w.uses.toNat
           stamp := w.stamp.toNat }
  | _, _, _ => none

/-- R191: the code of a request kind in a reply, 0 for an unknown kind. -/
def kindByte : TillKind → Byte
  | .openTill => 1#8
  | .closeTill => 2#8
  | .enquiry => 3#8
  | .redeem => 4#8
  | .hold => 5#8
  | .complete => 6#8
  | .release => 7#8
  | .reverse => 8#8
  | .reload => 9#8
  | .unknown _ => 0#8

/-- R190: the code of a till message's kind in its frame. -/
def kindCode : TillKind → Word16
  | .unknown code => code
  | k => (kindByte k).zeroExtend 16

def isUnknown : TillKind → Bool
  | .unknown _ => true
  | _ => false

/-- The card number of a request whose card field is in good form. -/
def cardNo (m : TillMsg) : Option Nat := cardOfBcd m.card

/-- The amount a request asks. -/
def amountOf (m : TillMsg) : Nat := m.amount.toNat

/-- R42, R61: an amount lies in 1 to 9,999,999. -/
def amountOk (m : TillMsg) : Bool := decide (1 ≤ amountOf m) && decide (amountOf m ≤ Config.purseCeiling)

def partialAllowed (m : TillMsg) : Bool := decide (m.allowPartial = 1#8)

/-- R191: the reference a reply echoes, the hold reference for the kinds that read no till reference. -/
def replyRef (m : TillMsg) : Word32 :=
  match m.kind with
  | .hold => m.holdRef
  | .release => m.holdRef
  | _ => m.tillRef

/-- R191: the code of a decline reason. -/
def Reason.code : Reason → Nat
  | .insufficient => 1
  | .cardUnknown => 2
  | .cardBlocked => 3
  | .noProgram => 4
  | .limitReached => 5
  | .holdLimit => 6
  | .duplicate => 7
  | .notFound => 8
  | .tooLate => 9
  | .overTolerance => 10
  | .outOfOrder => 11
  | .overMaximum => 12
  | .alreadyOpen => 13
  | .tillClosed => 14
  | .notMapped => 15
  | .badRequest => 16
  | .badAmount => 17
  | .systemBusy => 18
  | .busy => 19
  | .unavailable => 20

/-- The reasons in the order of their codes. -/
def Reason.all : List Reason :=
  [.insufficient, .cardUnknown, .cardBlocked, .noProgram, .limitReached, .holdLimit, .duplicate, .notFound, .tooLate,
   .overTolerance, .outOfOrder, .overMaximum, .alreadyOpen, .tillClosed, .notMapped, .badRequest, .badAmount, .systemBusy,
   .busy, .unavailable]

/-- The reason a code names; none for 0 and for a code the part does not know (R116). -/
def reasonOf (b : Byte) : Option Reason := Reason.all.find? (fun r => decide (r.code = b.toNat))

/-- R191: the outcome a code names. -/
def decisionOf (b : Byte) : Option Decision :=
  if b = 0#8 then some .approved else if b = 1#8 then some .partly else if b = 2#8 then some .declined else none

/-- R116: what the host's till reply says, or none where the answer is refused. The lane, the kind, the reference and the flags are the
part's own (R192); the fields from offset 25 are 0 in a card request's reply (R191, notes/assumptions/20). -/
def readReply (m : TillMsg) (w : ReplyWire) : Option TillReply :=
  match decisionOf w.outcome with
  | none => none
  | some d =>
    if Config.purseCeiling < w.approved.toNat ∨ Config.purseCeiling < w.bonus.toNat ∨ Config.purseCeiling < w.core.toNat then none
    else if d = .declined ∧ reasonOf w.reason = none then none
    else
      some { lane := m.lane
             kind := kindByte m.kind
             outcome := d
             reason := if d = .declined then reasonOf w.reason else none
             training := false
             standIn := false
             hostDecided := true
             free := if w.flags.getLsbD 3 then some w.free.toNat else none
             approved := w.approved.toNat
             bonus := w.bonus.toNat
             core := w.core.toNat
             ref := replyRef m
             report := ShiftReport.zero }

/-! The kind codes of the service link (R190). -/

def Kind.start : Word16 := 256#16
def Kind.resetEngine : Word16 := 257#16
def Kind.setLimits : Word16 := 258#16
def Kind.timeSet : Word16 := 259#16
def Kind.programSet : Word16 := 260#16
def Kind.programActivate : Word16 := 261#16
def Kind.programDeactivate : Word16 := 262#16
def Kind.programLock : Word16 := 263#16
def Kind.rangeProbe : Word16 := 264#16
def Kind.passRangeSet : Word16 := 265#16
def Kind.directoryMode : Word16 := 266#16
def Kind.cardEvict : Word16 := 267#16
def Kind.cardAdjust : Word16 := 268#16
def Kind.directoryRead : Word16 := 269#16
def Kind.readFault : Word16 := 270#16
def Kind.siteSet : Word16 := 271#16
def Kind.sliceAssign : Word16 := 272#16
def Kind.windowSet : Word16 := 273#16
def Kind.linkControl : Word16 := 274#16
def Kind.setNotices : Word16 := 275#16
def Kind.readEvents : Word16 := 276#16
def Kind.readCounters : Word16 := 277#16
def Kind.readStatus : Word16 := 278#16
def Kind.cardData : Word16 := 320#16
def Kind.noSuchCard : Word16 := 321#16
def Kind.referralAnswer : Word16 := 322#16
def Kind.posted : Word16 := 323#16

end Sys2Proof.Machine
end

