-- ==== Sys2Proof/Machine/Ops.lean ====
section
/-! DEFINITION. The named operations over the part's tables, the directory and the journal, which every meaning is written with. -/

namespace Sys2Proof.Machine

/-! ### Reading and writing the tables -/

def State.link (s : State) (l : Nat) : Link := s.links.get Link.default l
def State.setLink (s : State) (l : Nat) (x : Link) : State := { s with links := s.links.set Link.default l x }
def State.till (s : State) (t : Nat) : Till := s.tills.get Till.default t
def State.setTill (s : State) (t : Nat) (x : Till) : State := { s with tills := s.tills.set Till.default t x }
def State.program (s : State) (p : Nat) : Program := s.programs.get Program.default p
def State.setProgram (s : State) (p : Nat) (x : Program) : State := { s with programs := s.programs.set Program.default p x }
def State.passRange (s : State) (r : Nat) : Range := s.passRanges.get ⟨0, 0⟩ r
def State.dirSet (s : State) (n : Nat) : DirSet := s.dir.get DirSet.default n
def State.setDirSet (s : State) (n : Nat) (x : DirSet) : State := { s with dir := s.dir.set DirSet.default n x }
def State.generation (s : State) (tag : Nat) : Nat := s.generations.get 0 tag
def State.request (s : State) (tag : Nat) : Option HostEntry := s.requests.get none tag
def State.setRequest (s : State) (tag : Nat) (x : Option HostEntry) : State := { s with requests := s.requests.set none tag x }
def State.exposure (s : State) (card : Nat) : Exposure := s.exposures.get Exposure.none card
def State.setExposure (s : State) (card : Nat) (x : Exposure) : State :=
  { s with exposures := s.exposures.set Exposure.none card x }
def State.siteId (s : State) (i : Nat) : Nat := s.siteIds.get 0 i
def State.siteHoldCount (s : State) (i : Nat) : Nat := s.siteHolds.get 0 i
def State.slice (s : State) (n : Nat) : Option Nat := s.slices.get none n

/-- The numbers of the eight links. -/
def linkNumbers : List Nat := List.range Config.links

/-- The 256 tags. -/
def tagNumbers : List Nat := List.range Config.tags

/-! ### Ranges of card numbers (R17, R28) -/

/-- The range covers the card. An empty range covers none. -/
def Range.covers (r : Range) (card : Nat) : Bool := decide (r.first ≤ card) && decide (card < r.first + r.count)

/-- R28: at least one card number lies in both. -/
def Range.overlaps (a b : Range) : Bool :=
  decide (0 < a.count) && decide (0 < b.count) && decide (a.first < b.first + b.count) && decide (b.first < a.first + a.count)

/-- R17: the card lies in an enabled pass-through range. -/
def State.passThrough (s : State) (card : Nat) : Bool :=
  (List.range Config.passRanges).any (fun r => (s.passRange r).covers card)

/-- R29: the program is found for the card. -/
def Program.finds (p : Program) (card : Nat) : Bool := decide (p.state = .active) && p.range.covers card

/-- R29: the card's program, the ACTIVE one whose range contains the card number. -/
def State.programOf (s : State) (card : Nat) : Option Program :=
  ((List.range Config.programs).find? (fun n => (s.program n).finds card)).map (fun n => s.program n)

/-! ### Sets, ways and their order (R3, R4) -/

/-- R3: "its card number modulo 16,384". -/
def setOf (card : Nat) : Nat := card % Config.sets

/-- The card number a way holds. -/
def WayState.card : WayState → Option Nat
  | .invalid => none
  | .reserved card => some card
  | .valid r _ => some r.data.card

def WayState.isInvalid : WayState → Bool
  | .invalid => true
  | _ => false

def WayState.isReserved : WayState → Bool
  | .reserved _ => true
  | _ => false

def WayState.isValid : WayState → Bool
  | .valid _ _ => true
  | _ => false

/-- The set with way `no` in state `st`, the order as it was. -/
def DirSet.put (no : Nat) (st : WayState) (d : DirSet) : DirSet :=
  ⟨d.ways.map (fun w => if w.no = no then { w with st := st } else w)⟩

/-- R4: way `no` moves to the most recently used place. -/
def DirSet.toMru (no : Nat) (d : DirSet) : DirSet :=
  ⟨d.ways.filter (fun w => decide (w.no ≠ no)) ++ d.ways.filter (fun w => decide (w.no = no))⟩

/-- R4: way `no` moves to the least recently used place. -/
def DirSet.toLru (no : Nat) (d : DirSet) : DirSet :=
  ⟨d.ways.filter (fun w => decide (w.no = no)) ++ d.ways.filter (fun w => decide (w.no ≠ no))⟩

/-- R7: the way that holds the card. Where an alteration of stored content leaves two ways of a set with one card number, the least
recently used of them (DESIGN CHOICE, notes/assumptions/4). -/
def DirSet.holding (d : DirSet) (card : Nat) : Option Way := d.ways.find? (fun w => decide (w.st.card = some card))

/-- R7: the way of the card's set that holds the card. Of two that hold it after an alteration, the least recently used (DESIGN CHOICE,
notes/assumptions/4). -/
def State.findWay (s : State) (card : Nat) : Option Way := (s.dirSet (setOf card)).holding card

/-- The resident record of a card, unverified. -/
def State.resident (s : State) (card : Nat) : Option CardRecord :=
  match s.findWay card with
  | some ⟨_, .valid r _⟩ => some r
  | _ => none

/-- A way becomes INVALID and moves to the least recently used place (R4). -/
def State.dropWay (s : State) (set no : Nat) : State := s.setDirSet set (((s.dirSet set).put no .invalid).toLru no)

/-- R4: the ways that became INVALID between a set's state before one event and its state after it, in the order they held before. -/
def DirSet.fallen (before after : DirSet) : List Nat :=
  (before.ways.filter (fun w => !w.st.isInvalid && after.ways.any (fun x => decide (x.no = w.no) && x.st.isInvalid))).map (fun w => w.no)

/-- R4: the ways that became INVALID in one event take the least recently used places "in the order they held among themselves before". -/
def DirSet.inFallOrder (before after : DirSet) : DirSet :=
  ⟨(before.fallen after).map (fun no => ⟨no, .invalid⟩) ++ after.ways.filter (fun w => decide (w.no ∉ before.fallen after))⟩

/-- R4: the part `after` one event that began at `before`, with the ways that became INVALID in it in their order. -/
def State.inFallOrder (before after : State) : State :=
  before.dir.keys.foldl (fun s n => s.setDirSet n ((before.dirSet n).inFallOrder (s.dirSet n))) after

/-- Every way of the directory that some set lists away from its reset value. -/
def State.ways (s : State) : List Way := s.dir.cells.flatMap (fun c => c.2.ways)

def State.validWays (s : State) : Nat := (s.ways.filter (fun w => w.st.isValid)).length
def State.reservedWays (s : State) : Nat := (s.ways.filter (fun w => w.st.isReserved)).length

/-! ### Records and their check code (R2) -/

/-- R2: the check code over the other eight fields, by a computation that the spec does not give (notes/assumptions/4). -/
def checkCode (d : CardData) (unposted : Nat) : Word32 :=
  Config.checkCode d.card (decide (d.status = .blocked)) d.core d.bonus d.expiry d.uses d.stamp unposted

/-- A record as the part writes it, its check code recomputed (R2). -/
def sealRecord (d : CardData) (unposted : Nat) : CardRecord := ⟨d, unposted, checkCode d unposted⟩

/-- The record matches its check code. -/
def CardRecord.verifies (r : CardRecord) : Bool := decide (r.check = checkCode r.data r.unposted)

/-- The part writes the record of a VALID way (R2). The order is not changed (R4). -/
def State.writeRecord (s : State) (card : Nat) (f : CardRecord → CardRecord) : State :=
  match s.findWay card with
  | some ⟨no, .valid r stay⟩ => s.setDirSet (setOf card) ((s.dirSet (setOf card)).put no (.valid (f r) stay))
  | _ => s

/-- The part writes supplied fields of a resident record, and recomputes its check code (R2). -/
def State.writeData (s : State) (card : Nat) (f : CardData → CardData) : State :=
  s.writeRecord card (fun r => sealRecord (f r.data) r.unposted)

/-- The part writes a resident record's unposted count, and recomputes its check code (R2). -/
def State.writeUnposted (s : State) (card : Nat) (f : Nat → Nat) : State :=
  s.writeRecord card (fun r => sealRecord r.data (f r.unposted))

/-- R4: the card's way moves to the most recently used place. -/
def State.touch (s : State) (card : Nat) : State :=
  match s.findWay card with
  | some w => s.setDirSet (setOf card) ((s.dirSet (setOf card)).toMru w.no)
  | none => s

/-! ### Pinning (R5) -/

/-- R82: the card's live holds, in creation order. -/
def State.holdsOf (s : State) (card : Nat) : List Hold := s.holds.filter (fun h => decide (h.card = card))

/-- R5: unposted records, or a live hold. -/
def State.pins (s : State) (r : CardRecord) : Bool := decide (0 < r.unposted) || s.holds.any (fun h => decide (h.card = r.data.card))

/-- The way holds a pinned record. -/
def State.pinsWay (s : State) : WayState → Bool
  | .valid r _ => s.pins r
  | _ => false

def State.pinnedWays (s : State) : Nat := (s.ways.filter (fun w => s.pinsWay w.st)).length

/-! ### The check fault (R11) -/

/-- R11, step 2: the fault record after one more fault. -/
def FaultRecord.take (f : FaultRecord) (x : LatchedFault) : FaultRecord :=
  { latched := match f.latched with
      | none => some x
      | some y => some y
    count := if f.count < Config.counterTop then f.count + 1 else f.count
    overflow := match f.latched with
      | none => f.overflow
      | some _ => true }

/-- R11: the check fault of the card's record in way `no`. -/
def State.checkFault (s : State) (card no : Nat) : State :=
  let s1 := s.dropWay (setOf card) no
  let s2 := { s1 with fault := s.fault.take ⟨card, setOf card, no⟩
                      counters := { s.counters with checkFault := s.counters.checkFault.bump } }
  s2.raise .checkFault (.checkFault card (setOf card) no s.fault.latched.isNone s2.fault.count)

/-- R11: a record is read to act on it. The record and its stay when the card is resident and the check code matches; otherwise none, with
the check fault taken on a mismatch. -/
def State.readRecord (s : State) (card : Nat) : State × Option (CardRecord × Nat) :=
  match s.findWay card with
  | some ⟨no, .valid r stay⟩ => if r.verifies then (s, some (r, stay)) else (s.checkFault card no, none)
  | _ => (s, none)

/-! ### The Host Request Table (R101, R102) -/

/-- R102: "An entry is made in the lowest-numbered free tag." -/
def State.freeTag (s : State) : Option Nat := tagNumbers.find? (fun t => (s.request t).isNone)

/-- R102: "65,535 is followed by 0". -/
def nextGeneration (g : Nat) : Nat := (g + 1) % 65536

/-- R102: the tag's generation rises by one. -/
def State.bumpGeneration (s : State) (tag : Nat) : State :=
  { s with generations := s.generations.set 0 tag (nextGeneration (s.generation tag)) }

/-- The FETCH of an entry. -/
def HostEntry.fetch? (x : HostEntry) : Option Fetch :=
  match x.kind with
  | .fetch f => some f
  | .referral _ => none

/-- The tag of the FETCH entry for the card, with the entry. At most one stands (R101); of two that an alteration of a stored card number
has brought about, the one of the lower tag (DESIGN CHOICE, notes/assumptions/4). -/
def State.fetchFor (s : State) (card : Nat) : Option (Nat × HostEntry × Fetch) :=
  s.requests.keys.findSome? (fun t => match s.request t with
    | some x => match x.kind with
      | .fetch f => if f.card = card then some (t, x, f) else none
      | .referral _ => none
    | none => none)

/-- R109: a record has joined naming the card. A SENT fetch of the card is re-gated. -/
def State.regate (s : State) (card : Nat) : State :=
  match s.fetchFor card with
  | some (tag, x, f) =>
    if f.sent then
      let s1 := s.bumpGeneration tag
      s1.setRequest tag (some { gen := s1.generation tag, oldGens := x.gen :: x.oldGens, timer := s.limits.gate,
                                kind := .fetch { f with sent := false } })
    else s
  | none => s

/-! ### The journal (R123 to R128, R137, R138) -/

/-- R123: "The next sequence then rises by one, and 4,294,967,295 is followed by 1." -/
def nextSequence (n : Nat) : Nat := if n < Config.lastSequence then n + 1 else 1

/-- R123: the queue holds a record naming the card. -/
def State.names (s : State) (card : Nat) : Bool := s.journal.records.any (fun r => decide (r.card = card))

/-- R123, R137: the sequence of the oldest record held. -/
def Journal.oldest (j : Journal) : Option Nat := j.records.head?.map (fun r => r.sequence)

/-- A journal record before it joins: it has no sequence, date or instant yet (R124). -/
structure Draft where
  kind : JournalKind
  card : Nat
  origin : Option Origin
  bonusDelta : Int
  coreDelta : Int
  forfeited : Option Nat
  undone : Option Nat
deriving DecidableEq, Repr

/-- R124: the record a draft becomes when it joins now. -/
def Draft.record (d : Draft) (s : State) : JournalRecord :=
  { sequence := s.journal.nextSeq, kind := d.kind, card := d.card, origin := d.origin, bonusDelta := d.bonusDelta,
    coreDelta := d.coreDelta, forfeited := d.forfeited, undone := d.undone, date := s.date, instant := s.now }

/-- R128, step 2: the unposted count of the card rises when it is resident and its record verifies. -/
def State.countUnposted (s : State) (card : Nat) : State :=
  match s.readRecord card with
  | (s1, some _) => s1.writeUnposted card (fun n => n + 1)
  | (s1, none) => s1

/-- R137: JOURNAL-HIGH when the record count has just risen past the high mark. -/
def State.warnHigh (s : State) : State :=
  if s.journal.records.length = Config.highMark + 1 ∧ s.journal.highArmed = true then
    let s1 := { s with journal := { s.journal with highArmed := false } }
    s1.raise .journalHigh
      (.journalHigh s.journal.records.length s.journal.reserved (s.journal.oldest.getD 0) s.journal.highestSent)
  else s

/-- R128, step 1: the record takes the next sequence and stands at the newest end. -/
def State.appendRecord (s : State) (r : JournalRecord) : State :=
  { s with journal := { s.journal with records := s.journal.records ++ [r], nextSeq := nextSequence s.journal.nextSeq } }

/-- R128: a record joins the Journal Queue. -/
def State.joinRecord (s : State) (d : Draft) : State :=
  let r := d.record s
  ((((s.appendRecord r).countUnposted d.card).regate d.card).queue (.journal r 0)).warnHigh

/-- R126: the queue has room for `need` more places beside its records and its reserved slots. -/
def Journal.hasRoom (j : Journal) (need : Nat) : Bool := decide (j.records.length + j.reserved + need ≤ Config.journalRecords)

/-- R126, R138: the admission test of new business, for a request or command of this kind. -/
def State.admission (s : State) (need : Nat) (kind : Word16) : State × Bool :=
  if s.journal.hasRoom need then ({ s with journal := { s.journal with refusing := false } }, true)
  else if s.journal.refusing then (s, false)
  else
    (({ s with journal := { s.journal with refusing := true } } : State).raise .journalFull
      (.journalFull kind s.journal.records.length s.journal.reserved), false)

/-- R126: an undo slot is reserved. -/
def State.reserveSlot (s : State) : State := { s with journal := { s.journal with reserved := s.journal.reserved + 1 } }

/-- R127, R132: an undo slot is used or released. -/
def State.releaseSlot (s : State) : State := { s with journal := { s.journal with reserved := s.journal.reserved - 1 } }

/-! ### The flush (R14) -/

def State.fetchCount (s : State) : Nat := (s.requests.cells.filter (fun c => match c.2 with
  | some x => x.fetch?.isSome
  | none => false)).length

/-- R14: no way is VALID or RESERVED and no FETCH entry remains. -/
def State.flushed (s : State) : Bool :=
  s.ways.all (fun w => w.st.isInvalid) && decide (s.fetchCount = 0)

/-- R14, completion: the mode becomes the flush target and FLUSH-DONE is raised. It is met once the rest of an event is done, which the
spec gives for the end of a fetch (R114) and not for an event whose check fault ends the flush (DESIGN CHOICE, notes/assumptions/29). -/
def State.settle (s : State) : State :=
  match s.dirMode with
  | .flushing target =>
    if s.flushed then
      ({ s with dirMode := match target with
          | .off => .off
          | .warming => .warming } : State).raise .flushDone (.flushDone target)
    else s
  | _ => s

/-! ### Commands and results (R178, R179, R192) -/

/-- The answer to a command: the state its effect leaves, and the RESULT's status and data. -/
abbrev Answer := State × ResultBody

/-- REFUSED with a reason that carries no data. -/
def refuse (s : State) (r : RefuseReason) : Answer := (s, .refused r none [])

/-- REFUSED BAD-FIELD naming a field (R179). -/
def badField (s : State) (f : Field) : Answer := (s, .refused .badField (some f) [])

/-- DONE. -/
def done (s : State) (d : ResultData) : Answer := (s, .done d)

/-- R178: the RESULT is queued when the command's effect is complete, behind every message the effect queued. -/
def answer (kind : Word16) (ref : Word32) (a : Answer) : State := a.1.queue (.result kind ref a.2)

/-- R14: a command that may end a flush ends it before its RESULT is queued. -/
def settled (a : Answer) : Answer := (a.1.settle, a.2)

/-- R192: how the part meets a frame of a known command. -/
def command {α : Type} (kind : Word16) (f : HostFrame α) (s : State) (act : α → State → Answer) : State :=
  match f with
  | .badCheck => s
  | .wrongLength ref => answer kind ref (badField s .body)
  | .badCode ref field => answer kind ref (badField s field)
  | .body ref x => answer kind ref (act x s)

end Sys2Proof.Machine
end

