-- ==== Sys2Proof/Machine/Purse.lean ====
section
/-! DEFINITION. The arithmetic of the Purse Unit (spec 03): free funds, debits, captures, credit tests, use counting. -/

namespace Sys2Proof.Machine

/-- R42: a share of an amount in whole percent, rounded down. -/
def percentOf (amount percent : Nat) : Nat := amount * percent / 100

/-! ### Free funds (R43) -/

/-- R43: the bonus is in date on a business date. -/
def inDate (d : CardData) (date : Nat) : Bool :=
  match d.expiry with
  | some day => decide (date ≤ day)
  | none => false

/-- R43: the bonus is usable. -/
def bonusUsable (d : CardData) (date : Nat) : Bool := inDate d date && decide (0 < d.bonus)

/-- R43: bonus held. -/
def State.heldBonus (s : State) (card : Nat) : Nat := ((s.holdsOf card).map (fun h => h.bonus)).sum

/-- R43: core held. -/
def State.heldCore (s : State) (card : Nat) : Nat := ((s.holdsOf card).map (fun h => h.core)).sum

/-- R43: free bonus of a record, as the holds and the date stand. -/
def State.freeBonus (s : State) (d : CardData) : Nat :=
  if bonusUsable d s.date then d.bonus - s.heldBonus d.card else 0

/-- R43: free core of a record. -/
def State.freeCore (s : State) (d : CardData) : Nat := d.core - s.heldCore d.card

/-- R44: the free balance figure as the card stands. -/
def State.freeFigure (s : State) (d : CardData) : Nat := s.freeBonus d + s.freeCore d

/-! ### Debits (R48, R49) -/

/-- A debit's outcome: the approved amount X, its parts, and whether it is PARTIAL. -/
structure Debit where
  amount : Nat
  bonus : Nat
  core : Nat
  partly : Bool
deriving DecidableEq, Repr

/-- R48, step 1: the bonus allowance. -/
def bonusAllowance (freeBonus amount cap : Nat) : Nat := min freeBonus (percentOf amount cap)

/-- R49: X split with bonus first. -/
def splitDebit (x allowance : Nat) (partly : Bool) : Debit :=
  { amount := x, bonus := min x allowance, core := x - min x allowance, partly := partly }

/-- R48: the debit arithmetic; none is INSUFFICIENT. -/
def debitFor (amount cap freeBonus freeCore : Nat) (allowPartial : Bool) : Option Debit :=
  let allowance := bonusAllowance freeBonus amount cap
  let available := allowance + freeCore
  if available = 0 then none
  else if amount ≤ available then some (splitDebit amount allowance false)
  else if allowPartial then some (splitDebit available allowance true)
  else none

/-! ### Daily use counting (R47) -/

/-- R47: uses today for the business date. -/
def usesOn (d : CardData) (date : Nat) : Nat := if d.stamp = date then d.uses else 0

/-- R47, the check: the limit is reached. -/
def limitReached (limit date : Nat) (d : CardData) : Bool := decide (0 < limit) && decide (limit ≤ usesOn d date)

/-- R47, the count. -/
def countUse (d : CardData) (date : Nat) : CardData :=
  { d with uses := min (usesOn d date + 1) 255, stamp := date }

/-- R47, the undo of a count. -/
def uncountUse (d : CardData) (date : Nat) : CardData :=
  if d.stamp = date then { d with uses := d.uses - 1 } else d

/-! ### Captures (R50) -/

/-- A capture's outcome: captured bonus, captured core, extra, and whether it is PARTIAL. -/
structure Capture where
  bonus : Nat
  core : Nat
  extra : Nat
  partly : Bool
deriving DecidableEq, Repr

/-- R50: the capture arithmetic of a hold of parts `b` and `c` and tolerance `tip`; none is OVER-TOLERANCE. -/
def captureFor (b c tip final freeCore : Nat) : Option Capture :=
  if final ≤ b + c then some { bonus := min final b, core := final - min final b, extra := 0, partly := false }
  else if percentOf (b + c) tip < final - (b + c) then none
  else if final - (b + c) ≤ freeCore then some { bonus := b, core := c, extra := final - (b + c), partly := false }
  else some { bonus := b, core := c, extra := freeCore, partly := true }

/-! ### Pending amounts (R52) -/

/-- The undo record of a reply queue entry. -/
def ReplyEntry.undo? (e : ReplyEntry) : Option UndoRecord :=
  match e.state with
  | .reserved => none
  | .gated _ u _ _ => some u
  | .ready _ u _ => u

/-- The undo records of every reply queue entry on every link. -/
def State.undoRecords (s : State) : List UndoRecord :=
  linkNumbers.flatMap (fun l => (s.link l).replies.filterMap ReplyEntry.undo?)

def Effect.bonusDebit : Effect → Nat
  | .redeem b _ => b
  | .capture _ b _ _ => b
  | _ => 0

def Effect.coreDebit : Effect → Nat
  | .redeem _ c => c
  | .capture _ _ c x => c + x
  | .standIn x _ => x
  | _ => 0

def Effect.bonusCredit : Effect → Nat
  | .reverse b _ => b
  | _ => 0

def Effect.coreCredit : Effect → Nat
  | .reload a => a
  | .reverse _ c => c
  | _ => 0

/-- R52: one pending amount of the card, read from every undo record that names it. -/
def State.pendingSum (s : State) (card : Nat) (part : Effect → Nat) : Nat :=
  ((s.undoRecords.filter (fun u => decide (u.card = card))).map (fun u => part u.effect)).sum

/-! ### Credit tests (R53, R54) -/

/-- R53: the RELOAD of `amount` passes the program's maximum balance. -/
def State.reloadFits (s : State) (d : CardData) (amount maximum : Nat) : Bool :=
  decide (d.core + s.pendingSum d.card Effect.coreCredit + amount + s.pendingSum d.card Effect.coreDebit ≤ maximum)

/-- R54: the bonus part of a REVERSE that is returned on a business date. -/
def returnedBonus (d : CardData) (date bonus : Nat) : Nat := if inDate d date then bonus else 0

/-- R54: the bonus part of a REVERSE that is forfeited. -/
def forfeitedBonus (d : CardData) (date bonus : Nat) : Nat := if inDate d date then 0 else bonus

/-- R54: the credit test of each purse against the purse ceiling. -/
def State.reverseFits (s : State) (d : CardData) (returned core : Nat) : Bool :=
  decide (d.core + s.pendingSum d.card Effect.coreCredit + core + s.pendingSum d.card Effect.coreDebit ≤ Config.purseCeiling) &&
  (decide (returned = 0) ||
    decide (d.bonus + s.pendingSum d.card Effect.bonusCredit + returned + s.pendingSum d.card Effect.bonusDebit
      ≤ Config.purseCeiling))

/-! ### Stand-in (R59) -/

/-- R59: the stand-in amount and whether it is PARTIAL; none is UNAVAILABLE. -/
def standInFor (amount limit exposure : Nat) (allowPartial : Bool) : Option (Nat × Bool) :=
  if limit ≤ exposure then none
  else if amount ≤ limit - exposure then some (amount, false)
  else if allowPartial then some (limit - exposure, true)
  else none

/-! ### Supplied records (R1, R9) -/

/-- R1: a supplied record is well formed. -/
def wellFormedRecord (d : CardData) : Bool :=
  decide (d.core ≤ Config.purseCeiling) && decide (d.bonus ≤ Config.purseCeiling) && (decide (d.bonus = 0) || d.expiry.isSome)

/-- R9: an install of the record is not refused. -/
def State.installable (s : State) (d : CardData) : Bool :=
  wellFormedRecord d && !s.passThrough d.card && decide (s.heldBonus d.card ≤ d.bonus) && decide (s.heldCore d.card ≤ d.core)

/-- R9: the record is installed into a way, in a stay of its own (R55). -/
def State.install (s : State) (no : Nat) (d : CardData) : State :=
  let set := setOf d.card
  { s.setDirSet set (((s.dirSet set).put no (.valid (sealRecord d 0) s.nextStay)).toMru no) with nextStay := s.nextStay + 1 }

/-- R8: the victim way of the card's set, the least recently used INVALID way or else the least recently used VALID way that is not
pinned. -/
def State.victim (s : State) (card : Nat) : Option Nat :=
  match (s.dirSet (setOf card)).ways.find? (fun w => w.st.isInvalid) with
  | some w => some w.no
  | none => ((s.dirSet (setOf card)).ways.find? (fun w => w.st.isValid && !s.pinsWay w.st)).map (fun w => w.no)

end Sys2Proof.Machine
end

