-- ==== Sys2Proof/Machine/Holds.lean ====
section
/-! DEFINITION. The Hold Table (spec 05): finding, freeing and expiring holds, the expiry notes, and the forfeit test (R58). -/

namespace Sys2Proof.Machine

/-- R81: the live hold with a key. -/
def State.holdByKey (s : State) (site : Nat) (ref : Word32) : Option Hold :=
  s.holds.find? (fun h => decide (h.site = site) && decide (h.ref = ref))

/-- The live hold with a number. -/
def State.holdById (s : State) (id : Nat) : Option Hold := s.holds.find? (fun h => decide (h.id = id))

/-- R84: the note has the key. -/
def ExpiryNote.hasKey (n : ExpiryNote) (site : Nat) (ref : Word32) : Bool := decide (n.site = site) && decide (n.ref = ref)

/-- R84: an expiry note has the key. -/
def State.noted (s : State) (site : Nat) (ref : Word32) : Bool := s.notes.any (fun n => n.hasKey site ref)

/-- R82: the site's live-hold count. -/
def State.countSite (s : State) (site : Nat) (f : Nat → Nat) : State :=
  { s with siteHolds := s.siteHolds.set 0 site (f (s.siteHoldCount site)) }

/-- R58: the forfeit test of a card, the check code verified first. A FORFEIT reserves no slot and its admission touches no refusing
condition (R127, R138). -/
def State.forfeitTest (s : State) (card : Nat) : State :=
  match s.readRecord card with
  | (s1, none) => s1
  | (s1, some (r, _)) =>
    let held := s1.heldBonus card
    if !inDate r.data s1.date && decide (held < r.data.bonus) && s1.journal.hasRoom 1 then
      (s1.writeData card (fun d => { d with bonus := held })).joinRecord
        { kind := .forfeit, card := card, origin := none, bonusDelta := -((r.data.bonus - held : Nat) : Int), coreDelta := 0,
          forfeited := none, undone := none }
    else s1

/-- R81, R82: a hold is freed. -/
def State.freeHold (s : State) (h : Hold) : State :=
  let s1 : State := { s with holds := s.holds.filter (fun x => decide (x.id ≠ h.id)) }
  s1.countSite h.site (fun n => n - 1)

/-- R84: a note is added at the newest end, the oldest discarded first when the list is full. -/
def addNote (notes : List ExpiryNote) (n : ExpiryNote) : List ExpiryNote :=
  (if notes.length < Config.notes then notes else notes.drop 1) ++ [n]

/-- R84, R86: a HOLD creates a live hold with the key, and its note is removed. The part still knows that the noted hold expired. -/
def State.dropNotes (s : State) (site : Nat) (ref : Word32) : State :=
  { s with
    notes := s.notes.filter (fun n => !n.hasKey site ref)
    renoted := s.renoted ++ (s.notes.filter (fun n => n.hasKey site ref)).map (fun n => n.hold) }

/-- R95: an OPEN hold is freed by expiry. -/
def State.expireHold (s : State) (h : Hold) : State :=
  let s1 := s.freeHold h
  let s2 : State := { s1 with notes := addNote s1.notes ⟨h.site, h.ref, h.id⟩ }
  s2.forfeitTest h.card

/-- R95: the clock is set and its reading is at or past the hold's instant. -/
def State.holdDue (s : State) (h : Hold) : Bool := !s.clock.notSet && h.expiry.le s.now

/-- A hold that is OPEN again or OPEN for the first time is freed at once when its instant has passed (R87, R90). -/
def State.expireIfDue (s : State) (id : Nat) : State :=
  match s.holdById id with
  | some h => if decide (h.state = .opened) && s.holdDue h then s.expireHold h else s
  | none => s

/-- A hold is changed in its place in the list (R82). -/
def State.modHold (s : State) (id : Nat) (f : Hold → Hold) : State :=
  { s with holds := s.holds.map (fun h => if h.id = id then f h else h) }

/-- R90, R56: a CAPTURING hold returns to OPEN with its captured bonus and captured core. -/
def State.reopenHold (s : State) (id bonus core : Nat) : State :=
  s.modHold id (fun h => { h with bonus := bonus, core := core, state := .opened })

/-- R174: the holds by instant, earliest first, equal instants in creation order. -/
def insertByInstant (h : Hold) : List Hold → List Hold
  | [] => [h]
  | x :: t => if h.expiry.ms < x.expiry.ms then h :: x :: t else x :: insertByInstant h t

def sortByInstant (hs : List Hold) : List Hold := hs.foldl (fun acc h => insertByInstant h acc) []

/-- The OPEN holds whose instants lie at or before a reading, in the order of R174. -/
def State.dueHolds (s : State) (r : Reading) : List Hold :=
  sortByInstant (s.holds.filter (fun h => decide (h.state = .opened) && h.expiry.le r))

/-- R89, R93: what a request bound to a hold finds of it. -/
inductive HoldCheck where
  | live (h : Hold)
  | tooLate
  | notFound
deriving DecidableEq, Repr

/-- R89, R96: the hold has been freed by expiry, and its note has not been discarded at the far end of the list: the note still stands, or
a later HOLD of its key has removed it. -/
def State.expired (s : State) (id : Nat) : Bool := s.notes.any (fun n => decide (n.hold = id)) || s.renoted.contains id

/-- R89, R96: the hold check. A hold freed by expiry is too late; a hold freed otherwise, one whose note has been discarded at the far
end, and one that is NEW or CAPTURING is not found. -/
def State.checkHold (s : State) (id : Nat) : HoldCheck :=
  match s.holdById id with
  | some h => if h.state = .opened then .live h else .notFound
  | none => if s.expired id then .tooLate else .notFound

end Sys2Proof.Machine
end

