-- ==== Sys2Proof/Machine/Replies.lean ====
section
/-! DEFINITION. Reply queue entries and their replies (R62, R63, R133, R163), and the marks of the debit stack (R72, R75, R79). -/

namespace Sys2Proof.Machine

/-! ### Entries -/

/-- The entry with a slot number on a link. -/
def State.entry (s : State) (l slot : Nat) : Option ReplyEntry :=
  (s.link l).replies.find? (fun e => decide (e.slot = slot))

/-- An entry is changed in its place. -/
def State.modEntry (s : State) (l slot : Nat) (f : ReplyEntry → ReplyEntry) : State :=
  s.setLink l { s.link l with replies := (s.link l).replies.map (fun e => if e.slot = slot then f e else e) }

/-- An entry leaves the reply queue. -/
def State.dropEntry (s : State) (l slot : Nat) : State :=
  s.setLink l { s.link l with replies := (s.link l).replies.filter (fun e => decide (e.slot ≠ slot)) }

/-- An entry leaves RESERVED: its reply is complete (R163). -/
def State.finish (s : State) (l slot : Nat) (st : ReplyState) : State := s.modEntry l slot (fun e => { e with state := st })

/-- R152: tills 0 to 15 are the training tills. -/
def isTraining (till : Nat) : Bool := decide (till < 16)

/-! ### Replies -/

/-- The reply to a request with nothing in it but what it echoes (R191). -/
def blankReply (m : TillMsg) : TillReply :=
  { lane := m.lane, kind := kindByte m.kind, outcome := .approved, reason := none, training := false, standIn := false,
    hostDecided := false, free := none, approved := 0, bonus := 0, core := 0, ref := replyRef m, report := ShiftReport.zero }

/-- A DECLINED reply (R62): parts of 0. -/
def declinedReply (m : TillMsg) (r : Reason) (free : Option Nat) : TillReply :=
  { blankReply m with outcome := .declined, reason := some r, free := free }

/-- An APPROVED or PARTIAL reply decided against a resident record (R62). -/
def approvedReply (m : TillMsg) (partly : Bool) (approved bonus core free : Nat) : TillReply :=
  { blankReply m with outcome := if partly then .partly else .approved, approved := approved, bonus := bonus, core := core,
                      free := some free }

/-- R80, R99: a training answer. -/
def trainingReply (m : TillMsg) (approved : Nat) : TillReply :=
  { blankReply m with training := true, approved := approved, core := approved }

/-! ### The debit stack (R72 to R75, R79) -/

/-- R79: the mark of a stack entry, if it is still on the till's stack. -/
def State.setMark (s : State) (till id : Nat) (reversing : Bool) : State :=
  s.setTill till { s.till till with
    stack := (s.till till).stack.map (fun x => if x.id = id then { x with reversing := reversing } else x) }

/-- R79: a REVERSE ends without its entry's removal, and the entry's mark is cleared. Other requests have no mark. -/
def State.clearMark (s : State) (e : ReplyEntry) : State :=
  match e.bound, e.noted with
  | .entry x, some n => s.setMark n.till x.id false
  | _, _ => s

/-- What the stack check of a REVERSE finds (R75). -/
inductive StackCheck where
  | found (e : StackEntry)
  | notFound
  | outOfOrder
deriving DecidableEq, Repr

/-- R75, on a stack from its top; `above` says a STANDING entry stands above. -/
def stackCheck (ref : Word32) : Bool → List StackEntry → StackCheck
  | _, [] => .notFound
  | above, x :: t =>
    if x.ref = ref then (if x.reversing then .notFound else if above then .outOfOrder else .found x)
    else stackCheck ref (above || !x.reversing) t

/-- R77: the stack check made again for a REVERSE that marked entry `id`. A STANDING entry above that has been pushed in the meantime
makes it OUT-OF-ORDER: one whose number is not below `next`, the number of the next entry to be pushed when the REVERSE was taken off. An
entry that stood above at take-off does not, whatever its mark is now. That an entry pushed since and REVERSING by now does not either is
DEDUCED, notes/assumptions/24. -/
def stackRecheck (id next : Nat) : Bool → List StackEntry → StackCheck
  | _, [] => .notFound
  | above, x :: t =>
    if x.id = id then (if above then .outOfOrder else .found x)
    else stackRecheck id next (above || (!x.reversing && decide (next ≤ x.id))) t

/-! ### Completing a reply (R63, R133) -/

/-- A request is DECLINED: its reply is READY at once, and a REVERSE's mark is cleared (R63, R79). -/
def decline (l : Nat) (e : ReplyEntry) (r : Reason) (free : Option Nat) (s : State) : State :=
  (s.clearMark e).finish l e.slot (.ready (declinedReply e.msg r free) none none)

/-- R61, R85: a training till's request that fails a field check. -/
def declineField (l : Nat) (e : ReplyEntry) (training : Bool) (r : Reason) (s : State) : State :=
  s.finish l e.slot (.ready { declinedReply e.msg r none with training := training } none none)

/-- A reply that made no journal record is READY at once (R63). -/
def ready (l : Nat) (e : ReplyEntry) (reply : TillReply) (undo : Option UndoRecord) (s : State) : State :=
  s.finish l e.slot (.ready reply undo none)

/-- R133: a reply whose request made an undoable record, by the reply gating of the program found. -/
def gate (l : Nat) (e : ReplyEntry) (p : Option Program) (reply : TillReply) (undo : UndoRecord) (sequence : Nat) (s : State) :
    State :=
  let gated : Bool := match p with
    | some q => decide (q.limits.gating = .gated)
    | none => false
  s.finish l e.slot (if gated then .gated reply undo sequence s.limits.gate else .ready reply (some undo) none)

/-- R124: the till fields of a record made for a request; the site identity is read when the record is made (R140). -/
def originOf (e : ReplyEntry) (s : State) : Option Origin :=
  e.noted.map (fun n => ⟨match n.site with
    | some i => s.siteId i
    | none => 0, n.till, e.msg.tillRef⟩)

/-- An undoable record is admitted (R126): the slot is reserved and the record joins. -/
def joinUndoable (d : Draft) (s : State) : State := s.reserveSlot.joinRecord d

end Sys2Proof.Machine
end

