-- ==== Sys2Proof/Machine/Undo.lean ====
section
/-! DEFINITION. Undoing an unconfirmed effect (R56, R57, R87, R90, R121, R136) and emptying a link (R165, R166). -/

namespace Sys2Proof.Machine

/-- R121: the undo of a stand-in approval of `x` made on business date `date`. -/
def State.unexpose (s : State) (card x date : Nat) : State :=
  if s.date = date then
    let old := s.exposure card
    if old = Exposure.none then s else s.setExposure card ⟨old.amount - x, old.count - 1⟩
  else s

/-- What an undo does to the purses: the record's new data, and the deltas its UNDO record carries. -/
structure PurseUndo where
  data : CardData
  bonusDelta : Int
  coreDelta : Int
deriving DecidableEq, Repr

/-- R57: a debit is added back, no purse above the ceiling. -/
def addBack (balance amount : Nat) : Nat := min amount (Config.purseCeiling - balance)

/-- R57: a credit is taken back, no purse below its held sum. -/
def takeBack (balance held amount : Nat) : Nat := min amount (balance - held)

/-- R56, R136: the deltas equal and opposite to the undone record's. -/
def fullDeltas (f : Effect) : Int × Int :=
  (((f.bonusDebit : Nat) : Int) - ((f.bonusCredit : Nat) : Int), ((f.coreDebit : Nat) : Int) - ((f.coreCredit : Nat) : Int))

/-- R56: the undo on the record of the stay in which the effect was made. -/
def undoInStay (f : Effect) (date : Nat) (d : CardData) : CardData :=
  match f with
  | .redeem b c => uncountUse { d with bonus := d.bonus + b, core := d.core + c } date
  | .capture _ b c x => { d with bonus := d.bonus + b, core := d.core + (c + x) }
  | .hold _ => uncountUse d date
  | .reload _ => d
  | .reverse _ _ => d
  | .standIn _ _ => d

/-- R57: the undo on the record of a later stay, with the amounts actually added or taken back. A stand-in approval's UNDO carries the
amount actually added too, where R136 ends with plus the approved amount (DESIGN CHOICE, notes/assumptions/26). -/
def undoLater (f : Effect) (date heldBonus heldCore : Nat) (d : CardData) : PurseUndo :=
  match f with
  | .redeem b c =>
    let b' := addBack d.bonus b
    let c' := addBack d.core c
    ⟨uncountUse { d with bonus := d.bonus + b', core := d.core + c' } date, (b' : Int), (c' : Int)⟩
  | .capture _ b c x =>
    let b' := addBack d.bonus b
    let c' := addBack d.core (c + x)
    ⟨{ d with bonus := d.bonus + b', core := d.core + c' }, (b' : Int), (c' : Int)⟩
  | .standIn a _ =>
    let c' := addBack d.core a
    ⟨{ d with core := d.core + c' }, 0, (c' : Int)⟩
  | .reload a =>
    let c' := takeBack d.core heldCore a
    ⟨{ d with core := d.core - c' }, 0, -(c' : Int)⟩
  | .reverse b c =>
    let b' := takeBack d.bonus heldBonus b
    let c' := takeBack d.core heldCore c
    ⟨{ d with bonus := d.bonus - b', core := d.core - c' }, -(b' : Int), -(c' : Int)⟩
  | .hold _ => ⟨uncountUse d date, 0, 0⟩

/-- R56, R57: the undo on the card's record, with the deltas of the UNDO record: exact in the stay of the effect, as far as the record
allows in a later stay, and the full reversal with no record changed when the card is not resident or fails its check. -/
def State.undoPurses (s : State) (u : UndoRecord) : State × (Int × Int) :=
  match s.readRecord u.card with
  | (s1, none) => (s1, fullDeltas u.effect)
  | (s1, some (r, stay)) =>
    if u.stay = some stay then (s1.writeData u.card (undoInStay u.effect s1.date), fullDeltas u.effect)
    else
      let p := undoLater u.effect s1.date (s1.heldBonus u.card) (s1.heldCore u.card) r.data
      (s1.writeData u.card (fun _ => p.data), (p.bonusDelta, p.coreDelta))

/-- R87: the undo of an approved HOLD. The hold is freed, the use count falls, and the forfeit test is made. -/
def State.undoHold (s : State) (u : UndoRecord) (id : Nat) : State :=
  let s1 := match s.holdById id with
    | some h => s.freeHold h
    | none => s
  ((s1.undoPurses u).1).forfeitTest u.card

/-- R90, R121: what else the undo of an effect with a journal record touches before its UNDO record joins. -/
def State.undoBeside (s : State) (u : UndoRecord) : State :=
  match u.effect with
  | .capture id b c _ => s.reopenHold id b c
  | .standIn x date => s.unexpose u.card x date
  | _ => s

/-- R90: a restored hold whose instant has passed is freed at once by expiry. -/
def State.undoAfter (s : State) (u : UndoRecord) : State :=
  match u.effect with
  | .capture id _ _ _ => s.expireIfDue id
  | _ => s

/-- R136: an unconfirmed effect is undone. One with a journal slot makes its UNDO record in that slot (R127); a HOLD's makes none. -/
def State.undo (s : State) (u : UndoRecord) : State :=
  match u.effect, u.sequence with
  | .hold id, _ => s.undoHold u id
  | _, none => s
  | _, some n =>
    let (s1, deltas) := s.undoPurses u
    (((s1.undoBeside u).releaseSlot).joinRecord
      { kind := .undo, card := u.card, origin := u.origin, bonusDelta := deltas.1, coreDelta := deltas.2, forfeited := none,
        undone := some n }).undoAfter u

/-! ### Emptying a reply queue (R165) -/

/-- What an emptying has met so far (R166, R182). An undone HOLD, whose hold is freed without a record, is not among the entries undone,
as the worked case of the site links chapter counts it: two entries undone, one freed without a record. That it is in neither of the other
two numbers is DEDUCED (notes/assumptions/16). -/
structure Emptied where
  undone : Nat
  abandoned : Nat
  undelivered : Nat
deriving DecidableEq, Repr

def Emptied.zero : Emptied := ⟨0, 0, 0⟩

/-- R166: an undo that makes an UNDO record counts as an entry undone. -/
def Emptied.addUndo (n : Emptied) (u : UndoRecord) : Emptied := if u.sequence.isSome then { n with undone := n.undone + 1 } else n

/-- R110: the request is removed from every wait list. R118: its REFERRAL entry is marked abandoned. -/
def abandonIn (l slot : Nat) (x : HostEntry) : HostEntry :=
  match x.kind with
  | .fetch f => { x with kind := .fetch { f with waiters := f.waiters.filter (fun w => decide (w ≠ ⟨l, slot⟩)) } }
  | .referral r => if r.link = l ∧ r.slot = slot then { x with kind := .referral { r with abandoned := true } } else x

/-- R165: a RESERVED entry's request is abandoned. -/
def State.abandon (s : State) (l slot : Nat) : State :=
  s.requests.keys.foldl (fun s t => match s.request t with
    | some x => s.setRequest t (some (abandonIn l slot x))
    | none => s) s

/-- R79: the entry's request has ended though its reply is not delivered: its DECLINED reply is complete. A REVERSE that has ended holds
its stack entry's mark no more, and another REVERSE may have set it since (R142). -/
def ReplyEntry.ended (e : ReplyEntry) : Bool :=
  match e.state with
  | .ready reply _ _ => decide (reply.outcome = .declined)
  | _ => false

/-- R79: a REVERSE that has not ended yet ends, and its entry's mark is cleared. -/
def State.endMark (s : State) (e : ReplyEntry) : State := if e.ended then s else s.clearMark e

/-- R165: one entry is met, removed as it is met, with the mark of a REVERSE that had not ended cleared (R79). -/
def State.emptyEntry (l : Nat) (e : ReplyEntry) (acc : State × Emptied) : State × Emptied :=
  let s := (acc.1.dropEntry l e.slot).endMark e
  let n := acc.2
  match e.state with
  | .reserved => (s.abandon l e.slot, { n with abandoned := n.abandoned + 1 })
  | .gated _ u _ _ => (s.undo u, n.addUndo u)
  | .ready _ (some u) _ => (s.undo u, n.addUndo u)
  | .ready reply none (some (tag, gen)) => (s.queue (.undelivered tag gen reply), { n with undelivered := n.undelivered + 1 })
  | .ready _ none none => (s, n)

/-- R165: the entries are met in take-off order, oldest first. -/
def State.emptyReplies (s : State) (l : Nat) (n : Emptied) : State × Emptied :=
  (s.link l).replies.foldl (fun acc e => State.emptyEntry l e acc) (s, n)

/-- R166, steps 1 to 3: the inbound queue is emptied, the presence timer stopped, the session gone, the state taken. -/
def State.closeSession (s : State) (l : Nat) (st : LinkState) : State :=
  s.setLink l { s.link l with state := st, session := none, lanes := none, presenceLimit := none, presenceTimer := none,
                              inbound := [] }

/-- R165, R166: a link's queues are emptied and the link takes a state. The ways that check faults drop on the way keep their order (R4).
-/
def State.emptyLink (s : State) (l : Nat) (st : LinkState) (n : Emptied) : State × Emptied :=
  let (s1, n1) := s.emptyReplies l n
  ((s.inFallOrder s1).closeSession l st, n1)

/-- R165, R166: link loss, by presence expiry or by a hello on an UP link. The link becomes LISTENING and LINK-LOST is raised. -/
def State.loseLink (s : State) (l : Nat) (byHello : Bool) : State :=
  let (s1, n) := s.emptyLink l .listening Emptied.zero
  s1.raise .linkLost (.linkLost l byHello n.undone n.abandoned n.undelivered)

end Sys2Proof.Machine
end

