-- ==== Sys2Proof/Machine/Delivery.lean ====
section
/-! DEFINITION. Delivery of a reply (spec 04 R63, R64, R69, R71, R73, R79; spec 05 R87, R90, R94; spec 08 R151; spec 09 R164), and
the gate timeout that withdraws one (spec 07 R135). -/

namespace Sys2Proof.Machine

/-! ### Effects away from the till -/

/-- R55: a credit is applied to the record when the card is resident in the stay of the credit and its record verifies. -/
def State.credit (s : State) (card : Nat) (stay : Option Nat) (bonus core : Nat) : State :=
  match s.findWay card with
  | some ⟨_, .valid _ now⟩ =>
    if stay = some now then
      match s.readRecord card with
      | (s1, some _) => s1.writeData card (fun d => { d with bonus := d.bonus + bonus, core := d.core + core })
      | (s1, none) => s1
    else s
  | _ => s

/-- R63, R87, R90: the effect of a delivered reply is confirmed. -/
def State.confirm (s : State) (u : UndoRecord) : State :=
  match u.effect with
  | .redeem _ _ => s
  | .standIn _ _ => s
  | .hold id => (s.modHold id (fun h => { h with state := .opened })).expireIfDue id
  | .capture id _ _ _ =>
    match s.holdById id with
    | some h => s.freeHold h
    | none => s
  | .reload amount => s.credit u.card u.stay 0 amount
  | .reverse bonus core => s.credit u.card u.stay bonus core

/-- R63, R132: the slot of a delivered reply's undo record is released. A HOLD's has none. -/
def State.releaseOf (s : State) (u : UndoRecord) : State :=
  match u.sequence with
  | some _ => s.releaseSlot
  | none => s

/-- R78, R121: the delivery of an approved REVERSE of a STAND-IN entry lowers the card's exposure on the business date of the stand-in
approval. The stand-in count is not lowered and the entry is kept; but one whose count undos have brought to 0, a count that R119 gives no
entry, leaves the table when its exposure comes to 0 (DESIGN CHOICE, notes/assumptions/30). -/
def State.lowerExposure (s : State) (e : ReplyEntry) (reply : TillReply) : State :=
  match e.bound with
  | .entry x =>
    if x.kind = .standIn ∧ reply.outcome = .approved ∧ x.approvalDate = some s.date then
      let old := s.exposure x.card
      if old = Exposure.none then s else s.setExposure x.card { old with amount := old.amount - x.core }
    else s
  | _ => s

/-! ### Effects at the till -/

/-- R151: an addition to a total stops at 4,294,967,295, an addition to a count at 65,535; the flag tells of an addition not made in full.
-/
def addTotal (total amount : Nat) : Nat := min (total + amount) Config.totalTop

def addCount (count : Nat) : Nat := min (count + 1) Config.counterTop

def Till.debit (t : Till) (amount : Nat) : Till :=
  { t with debitTotal := addTotal t.debitTotal amount, debitCount := addCount t.debitCount,
           overflow := t.overflow || decide (Config.totalTop < t.debitTotal + amount) || decide (Config.counterTop < t.debitCount + 1) }

def Till.credit (t : Till) (amount : Nat) : Till :=
  { t with creditTotal := addTotal t.creditTotal amount, creditCount := addCount t.creditCount,
           overflow := t.overflow || decide (Config.totalTop < t.creditTotal + amount) || decide (Config.counterTop < t.creditCount + 1) }

/-- R73: an entry becomes the top of the stack; at 4 entries the bottom one is discarded first. -/
def Till.push (t : Till) (x : StackEntry) : Till := { t with stack := x :: t.stack.take (Config.stackEntries - 1) }

/-- R79: an entry is removed, wherever it stands. -/
def Till.removeEntry (t : Till) (id : Nat) : Till := { t with stack := t.stack.filter (fun x => decide (x.id ≠ id)) }

/-- The business date a stand-in approval's undo record notes (R120). -/
def approvalDateOf : Option UndoRecord → Option Nat
  | some u =>
    match u.effect with
    | .standIn _ date => some date
    | _ => none
  | none => none

/-- The kind of the stack entry a delivered reply pushes (R69, R73). -/
def pushedKind (e : ReplyEntry) (reply : TillReply) : StackKind :=
  match e.msg.kind with
  | .complete => .capture
  | _ => if reply.standIn then .standIn else .debit

/-- R69, R73, R94: the stack entry a delivered REDEEM or COMPLETE pushes: the reply's parts, and the journal sequence where the part made
a record. -/
def pushedEntry (id card : Nat) (e : ReplyEntry) (reply : TillReply) (u : Option UndoRecord) : StackEntry :=
  { id := id, ref := e.msg.tillRef, card := card, kind := pushedKind e reply, bonus := reply.bonus, core := reply.core,
    sequence := u.bind (fun x => x.sequence), approvalDate := approvalDateOf u, reversing := false }

/-- The card of a delivered debit: the card the effect was made on; else, for a debit the host decided, the card the request concerned. A
host-decided COMPLETE of a key the part does not know concerns no card the part can name: a free value. -/
def debitCard (n : Nat) (e : ReplyEntry) (u : Option UndoRecord) : Nat :=
  match u, e.bound, e.msg.kind with
  | some x, _, _ => x.card
  | none, .hold _ card, _ => card
  | none, _, .complete => Config.hostCaptureCard n % Config.cardNumbers
  | none, _, _ => (cardNo e.msg).getD 0

/-- R63, R69, R94, R80, R99: a delivered debit raises the debit total and count, and pushes an entry unless the reply is a training
answer. -/
def State.debitTill (s : State) (t : Nat) (e : ReplyEntry) (reply : TillReply) (u : Option UndoRecord) : State :=
  let till := (s.till t).debit reply.approved
  if reply.training then s.setTill t till
  else { s.setTill t (till.push (pushedEntry s.nextEntry (debitCard s.nextEntry e u) e reply u)) with nextEntry := s.nextEntry + 1 }

/-- R63, R79: a delivered credit raises the credit total and count; a REVERSE's entry is removed. -/
def State.creditTill (s : State) (t : Nat) (e : ReplyEntry) (reply : TillReply) : State :=
  let till := (s.till t).credit reply.approved
  match e.bound with
  | .entry x => s.setTill t (till.removeEntry x.id)
  | _ => s.setTill t till

/-- R63, R94: what a delivered reply does at its till. -/
def State.atTill (s : State) (t : Nat) (e : ReplyEntry) (reply : TillReply) (u : Option UndoRecord) : State :=
  match e.msg.kind, reply.outcome with
  | .redeem, .approved => s.debitTill t e reply u
  | .redeem, .partly => s.debitTill t e reply u
  | .complete, .approved => s.debitTill t e reply u
  | .complete, .partly => s.debitTill t e reply u
  | .reload, .approved => s.creditTill t e reply
  | .reverse, .approved => s.creditTill t e reply
  | _, _ => s

/-- R151: the till accepts the delivery when it is OPEN in the shift noted at take-off. -/
def State.acceptedAt (s : State) (e : ReplyEntry) : Option Nat :=
  match e.noted with
  | some n => if (s.till n.till).isOpen && decide ((s.till n.till).shift = n.shift) then some n.till else none
  | none => none

/-- R164: a reply frame is handed whole to the link's stream. -/
def State.transmit (s : State) (l : Nat) (m : SiteOut) : State := s.setLink l { s.link l with sent := (s.link l).sent ++ [m] }

/-- R63, R64, R164: the delivery of a READY entry with its reply and undo record. -/
def State.deliver (s : State) (l : Nat) (e : ReplyEntry) (reply : TillReply) (u : Option UndoRecord) : State :=
  let s1 := (s.transmit l (.tillReply reply)).dropEntry l e.slot
  let s2 := match u with
    | some x => (s1.confirm x).releaseOf x
    | none => s1
  let s3 := s2.lowerExposure e reply
  match s3.acceptedAt e with
  | some t => s3.atTill t e reply u
  | none => s3

/-- R164: the oldest READY entry of a reply queue, with its reply and undo record. -/
def oldestReady : List ReplyEntry → Option (ReplyEntry × TillReply × Option UndoRecord)
  | [] => none
  | e :: t =>
    match e.state with
    | .ready reply u _ => some (e, reply, u)
    | _ => oldestReady t

/-! ### The gate timeout (R135) -/

/-- R135: the new reply of a gate timeout, with the flags of the original reply. -/
def withdrawnReply (m : TillMsg) (old : TillReply) : TillReply :=
  { declinedReply m .unavailable none with training := old.training, standIn := old.standIn, hostDecided := old.hostDecided }

/-- R135: the gate timer of a GATED entry runs out. -/
def State.gateTimeout (s : State) (l : Nat) (e : ReplyEntry) (reply : TillReply) (u : UndoRecord) : State :=
  ((s.undo u).clearMark e).finish l e.slot (.ready (withdrawnReply e.msg reply) none none)

end Sys2Proof.Machine
end

