-- ==== Sys2Proof/Machine/Evaluate.lean ====
section
/-! DEFINITION. The evaluation of one till request against one resident record (spec 03 R41, R45; spec 04 R65, R67, R70, R76;
spec 05 R86, R89, R92). -/

namespace Sys2Proof.Machine

/-- The resident record of a card with the number of its stay, unverified. -/
def State.recordOf (s : State) (card : Nat) : Option (CardRecord × Nat) :=
  match s.findWay card with
  | some ⟨_, .valid r stay⟩ => some (r, stay)
  | _ => none

/-- A request that meets a combination no run brings about is answered all the same (notes/assumptions/10). -/
def unexpected (l : Nat) (e : ReplyEntry) (s : State) : State := decline l e .unavailable none s

/-- R45, R58: an evaluation begins with the forfeit test and goes on with the record as that leaves it. -/
def State.withRecord (s : State) (l : Nat) (e : ReplyEntry) (card : Nat) (act : CardData → Nat → State → State) : State :=
  let s1 := s.forfeitTest card
  match s1.recordOf card with
  | some (r, stay) => act r.data stay s1
  | none => unexpected l e s1

/-- R126: a request's record and its undo slot are admitted, or the request is declined SYSTEM-BUSY with the free balance figure given. -/
def State.admitted (s : State) (l : Nat) (e : ReplyEntry) (free : Option Nat) (act : State → State) : State :=
  match s.admission 2 (kindCode e.msg.kind) with
  | (s1, true) => act s1
  | (s1, false) => decline l e .systemBusy free s1

/-- R65. -/
def evalEnquiry (l : Nat) (e : ReplyEntry) (d : CardData) (s : State) : State :=
  if d.status = .blocked then decline l e .cardBlocked (some (s.freeFigure d)) s
  else ready l e (approvedReply e.msg false 0 (s.freeBonus d) (s.freeCore d) (s.freeFigure d)) none s

/-- R67, R49: an approved REDEEM takes effect. -/
def applyRedeem (l : Nat) (e : ReplyEntry) (p : Program) (d : CardData) (stay : Nat) (x : Debit) (s : State) : State :=
  let d' := countUse { d with bonus := d.bonus - x.bonus, core := d.core - x.core } s.date
  let origin := originOf e s
  let s1 := joinUndoable
    { kind := .debit, card := d.card, origin := origin, bonusDelta := -(x.bonus : Int), coreDelta := -(x.core : Int),
      forfeited := none, undone := none }
    (s.writeData d.card (fun _ => d'))
  gate l e (some p) (approvedReply e.msg x.partly x.amount x.bonus x.core (s.freeFigure d'))
    { card := d.card, effect := .redeem x.bonus x.core, stay := some stay, sequence := some s.journal.nextSeq, origin := origin }
    s.journal.nextSeq s1

/-- R67. -/
def evalRedeem (l : Nat) (e : ReplyEntry) (p : Program) (d : CardData) (stay : Nat) (s : State) : State :=
  let free := some (s.freeFigure d)
  if d.status = .blocked then decline l e .cardBlocked free s
  else if limitReached p.limits.dailyUseLimit s.date d then decline l e .limitReached free s
  else
    match debitFor (amountOf e.msg) p.limits.bonusCap (s.freeBonus d) (s.freeCore d) (partialAllowed e.msg) with
    | none => decline l e .insufficient free s
    | some x => s.admitted l e free (applyRedeem l e p d stay x)

/-- R70: an approved RELOAD. The record's balances are left unchanged. -/
def applyReload (l : Nat) (e : ReplyEntry) (p : Program) (d : CardData) (stay : Nat) (s : State) : State :=
  let amount := amountOf e.msg
  let origin := originOf e s
  let s1 := joinUndoable
    { kind := .reload, card := d.card, origin := origin, bonusDelta := 0, coreDelta := (amount : Int), forfeited := none,
      undone := none } s
  gate l e (some p) (approvedReply e.msg false amount 0 amount (s.freeFigure d + amount))
    { card := d.card, effect := .reload amount, stay := some stay, sequence := some s.journal.nextSeq, origin := origin }
    s.journal.nextSeq s1

/-- R70. -/
def evalReload (l : Nat) (e : ReplyEntry) (p : Program) (d : CardData) (stay : Nat) (s : State) : State :=
  let free := some (s.freeFigure d)
  if d.status = .blocked then decline l e .cardBlocked free s
  else if !s.reloadFits d (amountOf e.msg) p.limits.maximumBalance then decline l e .overMaximum free s
  else s.admitted l e free (applyReload l e p d stay)

/-- R54: an amount that a record notes only when it is above 0. -/
def someIfPositive (n : Nat) : Option Nat := if n = 0 then none else some n

/-- R76: an approved REVERSE of the stack entry `x`. -/
def applyReverse (l : Nat) (e : ReplyEntry) (p : Option Program) (x : StackEntry) (d : CardData) (stay : Nat) (s : State) : State :=
  let back := returnedBonus d s.date x.bonus
  let origin := originOf e s
  let s1 := joinUndoable
    { kind := .reversal, card := d.card, origin := origin, bonusDelta := (back : Int), coreDelta := (x.core : Int),
      forfeited := someIfPositive (forfeitedBonus d s.date x.bonus), undone := none } s
  gate l e p (approvedReply e.msg false (x.core + back) back x.core (s.freeFigure d + back + x.core))
    { card := d.card, effect := .reverse back x.core, stay := some stay, sequence := some s.journal.nextSeq, origin := origin }
    s.journal.nextSeq s1

/-- R76. -/
def evalReverse (l : Nat) (e : ReplyEntry) (p : Option Program) (x : StackEntry) (d : CardData) (stay : Nat) (s : State) : State :=
  let free := some (s.freeFigure d)
  if !s.reverseFits d (returnedBonus d s.date x.bonus) x.core then decline l e .overMaximum free s
  else s.admitted l e free (applyReverse l e p x d stay)

/-- R86: an approved HOLD takes effect. -/
def applyHold (l : Nat) (e : ReplyEntry) (p : Program) (site : Nat) (d : CardData) (stay : Nat) (x : Debit) (s : State) : State :=
  let h : Hold :=
    { id := s.nextHold, site := site, ref := e.msg.holdRef, card := d.card, bonus := x.bonus, core := x.core,
      tip := p.limits.tipTolerance, expiry := expiryInstant s.now p.limits.holdLifetime, state := .new }
  let s1 : State := { s.dropNotes site e.msg.holdRef with
    holds := s.holds ++ [h]
    nextHold := s.nextHold + 1 }
  let s2 := (s1.countSite site (fun n => n + 1)).writeData d.card (fun _ => countUse d s.date)
  ready l e (approvedReply e.msg x.partly x.amount x.bonus x.core (s2.freeFigure d))
    (some { card := d.card, effect := .hold s.nextHold, stay := some stay, sequence := none, origin := none }) s2

/-- R86, the hold checks: one of the three limits is reached. -/
def State.holdLimit (s : State) (site card : Nat) : Bool :=
  decide (Config.holdsPerCard ≤ (s.holdsOf card).length) || decide (Config.holdsPerSite ≤ s.siteHoldCount site) ||
    decide (Config.holds ≤ s.holds.length)

/-- R86. The journal test admits nothing and reserves nothing. -/
def evalHold (l : Nat) (e : ReplyEntry) (p : Program) (site : Nat) (d : CardData) (stay : Nat) (s : State) : State :=
  let free := some (s.freeFigure d)
  if d.status = .blocked then decline l e .cardBlocked free s
  else if limitReached p.limits.dailyUseLimit s.date d then decline l e .limitReached free s
  else if (s.holdByKey site e.msg.holdRef).isSome then decline l e .duplicate free s
  else if s.holdLimit site d.card then decline l e .holdLimit free s
  else
    match debitFor (amountOf e.msg) p.limits.bonusCap (s.freeBonus d) (s.freeCore d) (partialAllowed e.msg) with
    | none => decline l e .insufficient free s
    | some x => s.admitted l e free (applyHold l e p site d stay x)

/-- R51, R89: an approved capture of the hold `h` takes effect. -/
def applyComplete (l : Nat) (e : ReplyEntry) (p : Option Program) (h : Hold) (d : CardData) (stay : Nat) (x : Capture) (s : State) :
    State :=
  let d' := { d with bonus := d.bonus - x.bonus, core := d.core - (x.core + x.extra) }
  let origin := originOf e s
  let s1 := (s.writeData d.card (fun _ => d')).modHold h.id
    (fun y => { y with bonus := 0, core := 0, state := .capturing x.bonus x.core x.extra })
  let s2 := joinUndoable
    { kind := .capture, card := d.card, origin := origin, bonusDelta := -(x.bonus : Int), coreDelta := -((x.core + x.extra : Nat) : Int),
      forfeited := none, undone := none } s1
  gate l e p (approvedReply e.msg x.partly (x.bonus + x.core + x.extra) x.bonus (x.core + x.extra) (s1.freeFigure d'))
    { card := d.card, effect := .capture h.id x.bonus x.core x.extra, stay := some stay, sequence := some s.journal.nextSeq,
      origin := origin }
    s.journal.nextSeq s2

/-- R89. -/
def evalComplete (l : Nat) (e : ReplyEntry) (p : Option Program) (id : Nat) (d : CardData) (stay : Nat) (s : State) : State :=
  let free := some (s.freeFigure d)
  match s.checkHold id with
  | .tooLate => decline l e .tooLate free s
  | .notFound => decline l e .notFound free s
  | .live h =>
    match captureFor h.bonus h.core h.tip (amountOf e.msg) (s.freeCore d) with
    | none => decline l e .overTolerance free s
    | some x => s.admitted l e free (applyComplete l e p h d stay x)

/-- The free balance figure of a card as its record now stands. -/
def State.figureOf (s : State) (card : Nat) : Option Nat := (s.recordOf card).map (fun x => s.freeFigure x.1.data)

/-- R92. -/
def evalRelease (l : Nat) (e : ReplyEntry) (id : Nat) (d : CardData) (s : State) : State :=
  let free := some (s.freeFigure d)
  match s.checkHold id with
  | .tooLate => decline l e .tooLate free s
  | .notFound => decline l e .notFound free s
  | .live h =>
    let s1 := (s.freeHold h).forfeitTest d.card
    ready l e { approvedReply e.msg false (h.bonus + h.core) h.bonus h.core 0 with free := s1.figureOf d.card } none s1

/-- R29, R30: the program lookup of an evaluation. New business for a card with no program is declined NO-PROGRAM with no effect on the
card and no free balance figure (DEDUCED, notes/assumptions/13). -/
def State.underProgram (s : State) (l : Nat) (e : ReplyEntry) (card : Nat) (act : Program → State) : State :=
  match s.programOf card with
  | none => decline l e .noProgram none s
  | some p => act p

/-- R41: the evaluation of a request against the card's resident record, which has been verified. The way moves to most recently used
(R4). -/
def evaluate (l : Nat) (e : ReplyEntry) (card : Nat) (s0 : State) : State :=
  let s := s0.touch card
  match e.msg.kind with
  | .enquiry => s.underProgram l e card (fun _ => s.withRecord l e card (fun d _ => evalEnquiry l e d))
  | .redeem => s.underProgram l e card (fun p => s.withRecord l e card (evalRedeem l e p))
  | .hold =>
    match e.noted with
    | some ⟨_, some site, _⟩ => s.underProgram l e card (fun p => s.withRecord l e card (evalHold l e p site))
    | _ => unexpected l e s
  | .reload => s.underProgram l e card (fun p => s.withRecord l e card (evalReload l e p))
  | .complete =>
    match e.bound with
    | .hold id _ => s.withRecord l e card (evalComplete l e (s.programOf card) id)
    | _ => unexpected l e s
  | .release =>
    match e.bound with
    | .hold id _ => s.withRecord l e card (fun d _ => evalRelease l e id d)
    | _ => unexpected l e s
  | .reverse =>
    match e.bound with
    | .entry x => s.withRecord l e card (evalReverse l e (s.programOf card) x)
    | _ => unexpected l e s
  | .openTill => unexpected l e s
  | .closeTill => unexpected l e s
  | .unknown _ => unexpected l e s

end Sys2Proof.Machine
end

