-- ==== Sys2Proof/Machine/Fetches.lean ====
section
/-! DEFINITION. The directory's decision for a request (spec 01 R6 to R8, R15), referrals, fetches and their wait lists, the
journal-only REVERSE and stand-in (spec 04 R77, R78; spec 05 R91, R93; spec 06 R106 to R120). -/

namespace Sys2Proof.Machine

/-! ### Referrals (R115) -/

/-- R77, R115: what completes a referred REVERSE. -/
def reverseFields : Binding → Option ReverseFields
  | .entry x => some { card := x.card, kind := x.kind, bonus := x.bonus, core := x.core, sequence := x.sequence }
  | _ => none

/-- The till number a request noted; 0 where none is noted. -/
def notedTill (e : ReplyEntry) : Nat :=
  match e.noted with
  | some n => n.till
  | none => 0

/-- The identity of the site a request noted, as the Site Table now holds it (R140). -/
def State.notedIdentity (s : State) (e : ReplyEntry) : Nat :=
  match e.noted with
  | some ⟨_, some site, _⟩ => s.siteId site
  | _ => 0

/-- R102: an entry is made in a tag; the tag's generation rises and the entry takes it. -/
def State.makeEntry (s : State) (tag timer : Nat) (kind : HostKind) : State :=
  let s1 := s.bumpGeneration tag
  s1.setRequest tag (some { gen := s1.generation tag, oldGens := [], timer := timer, kind := kind })

/-- R115: the request is referred to the host, or declined BUSY when no tag is free. -/
def refer (l : Nat) (e : ReplyEntry) (s : State) : State :=
  match s.freeTag with
  | none => decline l e .busy none s
  | some tag =>
    let s1 := s.makeEntry tag s.limits.hostAnswer
      (.referral { link := l, slot := e.slot, msg := e.msg, bound := e.bound, abandoned := false })
    s1.queue (.referral tag (s1.generation tag) e.msg (reverseFields e.bound) (notedTill e) (s.notedIdentity e))

/-! ### Fetches (R8, R106, R110) -/

/-- R8: the victim way is reserved for the card and moves to most recently used. -/
def State.reserveWay (s : State) (card no : Nat) : State :=
  s.setDirSet (setOf card) (((s.dirSet (setOf card)).put no (.reserved card)).toMru no)

/-- R8, R106: the fetch is issued into a free tag, SENT or held WAITING-POST, with the request first on its wait list. -/
def issueFetch (l : Nat) (e : ReplyEntry) (card no tag : Nat) (s : State) : State :=
  let sent := !s.names card
  let s1 := (s.reserveWay card no).makeEntry tag (if sent then s.limits.hostAnswer else s.limits.gate)
    (.fetch { card := card, set := setOf card, way := no, sent := sent, waiters := [⟨l, e.slot⟩] })
  if sent then s1.queue (.cardFetch tag (s1.generation tag) card) else s1

/-- R110: the request joins the wait list of the card's fetch, or is declined BUSY when the list is full. -/
def joinWaitList (l : Nat) (e : ReplyEntry) (card : Nat) (s : State) : State :=
  match s.fetchFor card with
  | some (tag, x, f) =>
    if f.waiters.length < Config.waiters then
      s.setRequest tag (some { x with kind := .fetch { f with waiters := f.waiters ++ [⟨l, e.slot⟩] } })
    else decline l e .busy none s
  | none => unexpected l e s

/-- R93: a RELEASE is taken without its card. -/
def releaseWithoutCard (l : Nat) (e : ReplyEntry) (id : Nat) (s : State) : State :=
  match s.checkHold id with
  | .tooLate => decline l e .tooLate none s
  | .notFound => decline l e .notFound none s
  | .live h =>
    ready l e { approvedReply e.msg false (h.bonus + h.core) h.bonus h.core 0 with free := none } none (s.freeHold h)

/-- A miss the part will not fetch: a FROZEN miss, or a NORMAL miss with no victim. The request is referred, but for a COMPLETE or RELEASE
bound to a live hold (R8, R91, R93). -/
def missUnfetched (l : Nat) (e : ReplyEntry) (s : State) : State :=
  match e.bound, e.msg.kind with
  | .hold id _, .release => releaseWithoutCard l e id s
  | .hold _ _, _ => decline l e .unavailable none s
  | _, _ => refer l e s

/-- R8: a miss in NORMAL. -/
def missNormal (l : Nat) (e : ReplyEntry) (card : Nat) (s : State) : State :=
  match s.victim card with
  | none => missUnfetched l e s
  | some no =>
    match s.freeTag with
    | none => decline l e .busy none s
    | some tag => issueFetch l e card no tag s

/-- R7: a miss, in NORMAL or FROZEN. -/
def miss (l : Nat) (e : ReplyEntry) (card : Nat) (s : State) : State :=
  match s.dirMode with
  | .normal => missNormal l e card s
  | _ => missUnfetched l e s

/-- R7, R91, R93: a lookup finds the card's way RESERVED. The request joins the wait list; but in FROZEN a request bound to a hold, whose
card is not resident, is met as at a miss (notes/assumptions/27). -/
def meetReserved (l : Nat) (e : ReplyEntry) (card : Nat) (s : State) : State :=
  match s.dirMode, e.bound with
  | .frozen, .hold _ _ => missUnfetched l e s
  | _, _ => joinWaitList l e card s

/-- R7, R11: a lookup, in NORMAL or FROZEN. `onMiss` is what a miss does. Where an alteration has left two ways with the card's number,
the check fault of the one that is met makes a miss, whatever the other holds; a fetch it issues is a second one for the card when the
other way is RESERVED (DESIGN CHOICE, notes/assumptions/4). -/
def lookup (l : Nat) (e : ReplyEntry) (card : Nat) (onMiss : State → State) (s : State) : State :=
  match s.findWay card with
  | none => onMiss s
  | some w =>
    match w.st with
    | .valid _ _ =>
      match s.readRecord card with
      | (s1, some _) => evaluate l e card s1
      | (s1, none) => onMiss s1
    | .reserved _ => meetReserved l e card s
    | .invalid => onMiss s

/-- R15: a request that reaches the directory while it is FLUSHING. `onMiss` is what a card in no way does. -/
def flushingDecision (l : Nat) (e : ReplyEntry) (card : Nat) (onMiss : State → State) (s : State) : State :=
  match s.findWay card with
  | none => onMiss s
  | some w =>
    match w.st with
    | .valid _ _ => decline l e .unavailable none s
    | .reserved _ => joinWaitList l e card s
    | .invalid => onMiss s

/-- R6: the directory's decision for a request that concerns the card. -/
def directoryDecision (l : Nat) (e : ReplyEntry) (card : Nat) (s : State) : State :=
  if s.passThrough card then refer l e s
  else
    match s.dirMode with
    | .off => refer l e s
    | .warming => refer l e s
    | .flushing _ => flushingDecision l e card (refer l e) s
    | .normal => lookup l e card (miss l e card) s
    | .frozen => lookup l e card (miss l e card) s

/-! ### The REVERSE of a STAND-IN entry (R78) -/

/-- R78: an admitted journal-only REVERSE of the entry `x`. -/
def applyJournalOnly (l : Nat) (e : ReplyEntry) (x : StackEntry) (s : State) : State :=
  let origin := originOf e s
  let s1 := joinUndoable
    { kind := .reversal, card := x.card, origin := origin, bonusDelta := 0, coreDelta := (x.core : Int), forfeited := none,
      undone := none } s
  gate l e (s.programOf x.card)
    { blankReply e.msg with standIn := true, approved := x.core, core := x.core }
    { card := x.card, effect := .reverse 0 x.core, stay := none, sequence := some s.journal.nextSeq, origin := origin }
    s.journal.nextSeq s1

/-- R78: a REVERSE of a STAND-IN entry taken journal-only. -/
def journalOnly (l : Nat) (e : ReplyEntry) (x : StackEntry) (s : State) : State :=
  s.admitted l e none (applyJournalOnly l e x)

/-- R78: a REVERSE of the STAND-IN entry `x` meets the directory. -/
def standInReverse (l : Nat) (e : ReplyEntry) (x : StackEntry) (s : State) : State :=
  match s.dirMode with
  | .normal => lookup l e x.card (journalOnly l e x) s
  | .frozen => lookup l e x.card (journalOnly l e x) s
  | .flushing _ => flushingDecision l e x.card (journalOnly l e x) s
  | .off | .warming =>
    match s.findWay x.card with
    | some ⟨_, .valid _ _⟩ => refer l e s
    | some ⟨_, .reserved _⟩ => joinWaitList l e x.card s
    | _ => journalOnly l e x s

/-! ### Stand-in (R59, R120) -/

/-- R120: an admitted stand-in approval of `x` takes effect. -/
def applyStandIn (l : Nat) (e : ReplyEntry) (p : Program) (card x : Nat) (partly : Bool) (s : State) : State :=
  let origin := originOf e s
  let old := s.exposure card
  let new : Exposure := ⟨old.amount + x, min (old.count + 1) Config.counterTop⟩
  let s1 := joinUndoable
    { kind := .standIn, card := card, origin := origin, bonusDelta := 0, coreDelta := -(x : Int), forfeited := none, undone := none }
    (s.setExposure card new)
  let s2 : State := { s1 with counters := { s1.counters with standIn := s1.counters.standIn.bump } }
  gate l e (some p)
    { blankReply e.msg with outcome := if partly then .partly else .approved, standIn := true, approved := x, core := x }
    { card := card, effect := .standIn x s.date, stay := none, sequence := some s.journal.nextSeq, origin := origin }
    s.journal.nextSeq (s2.raise .standIn (.standIn card x new.amount new.count s.journal.nextSeq))

/-- R59: the stand-in decision for a REDEEM whose fetch timed out. -/
def standInDecision (l : Nat) (e : ReplyEntry) (card : Nat) (s : State) : State :=
  s.underProgram l e card (fun p =>
    match standInFor (amountOf e.msg) p.limits.standInLimit (s.exposure card).amount (partialAllowed e.msg) with
    | none => decline l e .unavailable none s
    | some (x, partly) =>
      if s.exposure card = Exposure.none ∧ Config.exposures ≤ s.exposures.cells.length then decline l e .unavailable none s
      else s.admitted l e none (applyStandIn l e p card x partly))

/-! ### The endings of a fetch (R110 to R114) -/

/-- R10: the entry leaves the table and its way is released. -/
def State.endFetch (s : State) (tag : Nat) (f : Fetch) : State := (s.setRequest tag none).dropWay f.set f.way

/-- R110: the requests of a wait list are dealt with in list order. -/
def State.serveWaiters (s : State) (ws : List Waiter) (act : Nat → ReplyEntry → State → State) : State :=
  ws.foldl (fun s w => match s.entry w.link w.slot with
    | some e => act w.link e s
    | none => s) s

/-- R77: the stack check of a waiting REVERSE is made again. -/
def recheckReverse (l : Nat) (e : ReplyEntry) (x : StackEntry) (act : State → State) (s : State) : State :=
  match stackRecheck x.id e.nextEntry false (s.till (notedTill e)).stack with
  | .found _ => act s
  | .notFound => decline l e .notFound none s
  | .outOfOrder => decline l e .outOfOrder none s

/-- R111: a waiting request is evaluated after the install, a REVERSE after its re-check. -/
def serveInstalled (card l : Nat) (e : ReplyEntry) (s : State) : State :=
  match e.bound with
  | .entry x => recheckReverse l e x (evaluate l e card) s
  | _ => evaluate l e card s

/-- R112: a waiting request whose card the host does not know. -/
def serveUnknown (l : Nat) (e : ReplyEntry) (s : State) : State :=
  match e.bound, e.msg.kind with
  | .hold id _, .release => releaseWithoutCard l e id s
  | _, _ => decline l e .cardUnknown none s

/-- R113: a waiting request whose fetch timed out. -/
def serveTimedOut (card l : Nat) (e : ReplyEntry) (s : State) : State :=
  match e.msg.kind, e.bound with
  | .redeem, _ => standInDecision l e card s
  | .reverse, .entry x =>
    if x.kind = .standIn then recheckReverse l e x (journalOnly l e x) s else decline l e .unavailable none s
  | .release, .hold id _ => releaseWithoutCard l e id s
  | _, _ => decline l e .unavailable none s

/-- R114: a waiting request whose fetch ends in a flush. -/
def serveFlushed (l : Nat) (e : ReplyEntry) (s : State) : State :=
  match e.bound with
  | .entry x => if x.kind = .standIn then recheckReverse l e x (journalOnly l e x) s else refer l e s
  | _ => refer l e s

def DirMode.isFlushing : DirMode → Bool
  | .flushing _ => true
  | _ => false

/-- R111: the record of a taken CARD-DATA is installed into the reserved way and the wait list is evaluated. -/
def fetchInstalled (tag : Nat) (f : Fetch) (d : CardData) (s : State) : State :=
  ((s.setRequest tag none).install f.way d).serveWaiters f.waiters (serveInstalled f.card)

/-- R112, R114: the fetch ends by NO-SUCH-CARD. -/
def fetchUnknown (tag : Nat) (f : Fetch) (s : State) : State :=
  (s.endFetch tag f).serveWaiters f.waiters (if s.dirMode.isFlushing then serveFlushed else serveUnknown)

/-- R113, R114: the fetch ends by its answer timer or its gate timer. -/
def fetchTimedOut (tag : Nat) (f : Fetch) (s : State) : State :=
  ((s.endFetch tag f).raise .hostTimeout (.hostTimeout tag true (some f.card) f.sent)).serveWaiters f.waiters
    (if s.dirMode.isFlushing then serveFlushed else serveTimedOut f.card)

/-- The card a request concerns, where it has one (R6): its own card field, its hold's card or its stack entry's. -/
def requestCard (m : TillMsg) (b : Binding) : Option Nat :=
  match b with
  | .hold _ card => some card
  | .entry x => some x.card
  | .free =>
    match m.kind with
    | .enquiry | .redeem | .hold | .reload => cardNo m
    | _ => none

/-- R117: a referral ends by its answer timer. -/
def referralTimedOut (tag : Nat) (r : Referral) (s : State) : State :=
  let s1 := (s.setRequest tag none).raise .hostTimeout (.hostTimeout tag false (requestCard r.msg r.bound) true)
  if r.abandoned then s1
  else
    match s1.entry r.link r.slot with
    | some e => decline r.link e .unavailable none s1
    | none => s1

/-- R113, R117: the running timer of an entry runs out. -/
def hostTimeout (tag : Nat) (x : HostEntry) (s : State) : State :=
  match x.kind with
  | .fetch f => fetchTimedOut tag f s
  | .referral r => referralTimedOut tag r s

end Sys2Proof.Machine
end

