-- ==== Sys2Proof/Machine/Clock.lean ====
section
/-! DEFINITION. The clock's advance, day rollover (spec 10 R170 to R175) and the part's timers (R176). -/

namespace Sys2Proof.Machine

/-! ### Day rollover (R175) -/

/-- The debit stack entries of every till. -/
def State.stackedEntries (s : State) : Nat := (s.tills.cells.map (fun c => c.2.stack.length)).sum

/-- R74: every till's debit stack is emptied, with its marks. -/
def State.emptyStacks (s : State) : State := { s with tills := s.tills.mapEntries Till.default (fun t => { t with stack := [] }) }

/-- R175: one day rollover, at the present business date. -/
def State.rollover (s : State) (byTimeSet : Bool) : State :=
  ({ s.emptyStacks with exposures := Table.empty } : State).raise .dayRollover
    (.dayRollover s.date byTimeSet s.stackedEntries s.exposures.cells.length)

/-! ### The clock's advance (R172) -/

/-- The clock's reading moves; nothing else. -/
def State.setReading (s : State) (r : Reading) : State := { s with clock := { s.clock with reading := r } }

/-- R172: the clock reaches the next cutover, where the business date rises, `n` times. -/
def State.crossCutovers : Nat → State → State
  | 0, s => s
  | n + 1, s => State.crossCutovers n ((s.setReading s.clock.nextCutover).rollover false)

/-- R172: the clock runs on from its reading to a later one, taking a rollover at each cutover it reaches. -/
def State.runTo (s : State) (r : Reading) : State :=
  (State.crossCutovers (businessDateOf s.clock.cutover r - s.date) s).setReading r

/-- The later of two readings. -/
def Reading.max (a b : Reading) : Reading := if a.le b then b else a

/-! ### Elapsed time (R176) -/

def HostEntry.countDown (n : Nat) (x : HostEntry) : HostEntry := { x with timer := x.timer - n }

def ReplyEntry.countDown (n : Nat) (e : ReplyEntry) : ReplyEntry :=
  match e.state with
  | .gated reply u awaited timer => { e with state := .gated reply u awaited (timer - n) }
  | _ => e

def Link.countDown (n : Nat) (x : Link) : Link :=
  { x with presenceTimer := x.presenceTimer.map (fun t => t - n), replies := x.replies.map (ReplyEntry.countDown n) }

/-- So many milliseconds of every running timer pass. -/
def State.countDown (s : State) (n : Nat) : State :=
  { s with requests := s.requests.mapEntries none (fun x => x.map (HostEntry.countDown n))
           links := s.links.mapEntries Link.default (Link.countDown n) }

/-- R172, R176: the clock runs on to a later reading, and every timer that is running runs as long. -/
def State.elapseTo (s : State) (r : Reading) : State := (s.countDown (r.ms - s.now.ms)).runTo r

/-- R95, R172: the clock reaches the instant of an OPEN hold, which expires at that reading. A timer that the expiry starts has all of its
time from there (R176). -/
def State.reachInstant (s : State) (h : Hold) : State :=
  ((if s.now.le h.expiry then s.elapseTo h.expiry else s).expireHold h).settle

/-- R172, R95, R176: time passes until the clock reaches `target`, which is not before its reading and not past the last reading. Each
OPEN hold whose instant it reaches expires at that reading, in the order of R174. -/
def State.advanceTo (s : State) (target : Reading) : State := ((s.dueHolds target).foldl State.reachInstant s).elapseTo target

/-- The entry of a tag whose timer has run out ends by timeout. -/
def State.fireTag (s : State) (tag : Nat) : State :=
  match s.request tag with
  | some x => if x.timer = 0 then hostTimeout tag x s else s
  | none => s

/-- The GATED entries of a link whose gate timers have run out are withdrawn, in take-off order. -/
def State.fireGates (s : State) (l : Nat) : State :=
  (s.link l).replies.foldl (fun s e => match e.state with
    | .gated reply u _ 0 => s.gateTimeout l e reply u
    | _ => s) s

/-- The presence timer of a link has run out: link loss (R160). -/
def State.firePresence (s : State) (l : Nat) : State :=
  if (s.link l).state = .up ∧ (s.link l).presenceTimer = some 0 then s.loseLink l false else s

/-- The timers that have run out are met: host requests by tag, then gated replies and presence by link. The spec fixes no order among
them; DESIGN CHOICE, notes/assumptions/2. -/
def State.fireTimers (s : State) : State :=
  linkNumbers.foldl State.firePresence (linkNumbers.foldl State.fireGates (s.requests.keys.foldl State.fireTag s))

/-- R172, R176: so many milliseconds of the clock and of every running timer pass. The clock stands still while NOT-SET, and at its last
reading; the timers run on. -/
def State.elapse (s : State) (n : Nat) : State :=
  if s.clock.notSet ∨ lastReading.le s.clock.reading then s.countDown n
  else
    let target : Reading := Reading.ofMs (min (s.clock.reading.ms + n) lastReading.ms)
    (s.advanceTo target).countDown (s.clock.reading.ms + n - target.ms)

/-- So many milliseconds pass (R172, R176). No timer is to run out before the last of them. -/
def State.pass (s : State) (n : Nat) : State := ((s.elapse n).fireTimers).settle

/-- One millisecond passes. -/
def State.tick (s : State) : State := s.pass 1

/-- The milliseconds that each running timer has left (R176). -/
def State.timers (s : State) : List Nat :=
  s.requests.cells.filterMap (fun c => c.2.map (fun x => x.timer)) ++
  s.links.cells.flatMap (fun c => c.2.presenceTimer.toList ++ c.2.replies.filterMap (fun e => match e.state with
    | .gated _ _ _ timer => some timer
    | _ => none))

/-- R105: a FETCH entry is SENT. -/
def State.awaitsCard (s : State) : Bool := s.requests.cells.any (fun c => match c.2.bind HostEntry.fetch? with
  | some f => f.sent
  | none => false)

/-- No timer runs out within so many milliseconds: none that is running, and none that a hold's expiry may start, which is the gate timer
of a SENT fetch (R58, R109). -/
def State.quietFor (s : State) (n : Nat) : Bool := s.timers.all (fun t => decide (n < t)) && (!s.awaitsCard || decide (n < s.limits.gate))

/-- The milliseconds until the instant of each OPEN hold (R95). -/
def State.instants (s : State) : List Nat :=
  (s.holds.filter (fun h => decide (h.state = .opened))).map (fun h => h.expiry.ms - s.now.ms)

/-- The milliseconds until the first timer runs out or the first hold's instant comes, at least 1, and no more than `n`. -/
def State.stretch (s : State) (n : Nat) : Nat := min n (max 1 ((s.timers ++ s.instants).foldl min n))

/-- R172, R176: time passes until the clock reaches `target`, from one timer or instant to the next: a timer that runs out on the way is
met at its own millisecond. `fuel` bounds the stretches, of which each takes a millisecond at least. -/
def State.runFor (target : Reading) : Nat → State → State
  | 0, s => s.advanceTo (s.now.max target)
  | fuel + 1, s =>
    let left := target.ms - s.now.ms
    if left = 0 ∨ s.quietFor left = true then s.advanceTo (s.now.max target)
    else State.runFor target fuel (s.pass (s.stretch left))

/-- R172, R176: time passes until the clock reaches `target`, which is not past the last reading. The clock is set. -/
def State.runUntil (s : State) (target : Reading) : State := State.runFor target (target.ms - s.now.ms) s

end Sys2Proof.Machine
end

