-- ==== Sys2Proof/Machine/PartCommands.lean ====
section
/-! DEFINITION. The commands of the Service Link Unit and the Business Clock (spec 10 R173, R174; spec 11 R178 to R189), READ-FAULT
(spec 01 R12) and power-on reset. -/

namespace Sys2Proof.Machine

/-- What every meaning answers. -/
abbrev Result := Host.Outcome State Fault Refusal

/-! ### Power-on reset -/

/-- POWER_ON_RESET (R26, R40, R98, R119, R122, R139, R154, R169, R170, R180 to R188). The commands waiting are the model's own and stay.
-/
def execPowerOnReset (s : State) : Result := .next { State.reset with pending := s.pending }

/-! ### RESET-ENGINE (R182) -/

/-- R169: the reply queues are emptied, link 0 to link 7, and every link becomes DISABLED. -/
def State.emptyAllLinks (s : State) : State × Emptied :=
  linkNumbers.foldl (fun acc l => State.emptyLink acc.1 l .disabled acc.2) (s, Emptied.zero)

/-- R182: a message of an entry that the reset drops, discarded while not yet transmitted. -/
def ofDroppedEntry (requests : Table (Option HostEntry)) : HostMsg → Bool
  | .cardFetch tag gen _ | .referral tag gen _ _ _ _ =>
    match requests.get none tag with
    | some x => decide (gen ∈ x.gen :: x.oldGens)
    | none => false
  | _ => false

/-- R98, R26, R122, R139, R154, R182: what an engine reset clears once the undos are made. -/
def State.clearEngine (s : State) : State :=
  { s with
    part := .standby
    out := s.out.filter (fun m => !ofDroppedEntry s.requests m)
    dirMode := .off
    dir := Table.empty
    holds := []
    notes := []
    renoted := []
    siteHolds := Table.empty
    requests := Table.empty
    journal := { s.journal with reserved := 0, refusing := false }
    tills := s.tills.mapEntries Till.default (fun t => { t with isOpen := false, stack := [] })
    links := s.links.mapEntries Link.default (fun x => { x with windowA := 0, windowB := 1 }) }

/-- R182. The reset frees every hold that lives when it is taken, the NEW holds that its undos free (R87) among them (DEDUCED). The VALID
ways dropped are those that are VALID once the undos are made: one that a check fault of an undo drops is not among them (DESIGN CHOICE).
Both in notes/assumptions/16. -/
def engineReset (s : State) : Answer :=
  let (s1, n) := s.emptyAllLinks
  done s1.clearEngine
    (.engineReset n.undone n.abandoned n.undelivered s.holds.length s1.validWays s1.requests.cells.length)

/-- RESET_ENGINE (R182). -/
def execResetEngine (f : HostFrame Unit) (s : State) : Result := .next (command Kind.resetEngine f s (fun _ => engineReset))

/-! ### START (R181) -/

/-- R156, R181: a link that a START reaches. -/
def Link.startable (x : Link) : Bool := x.enabled && decide (x.state = .disabled)

def Link.listen (x : Link) : Link := { x with state := .listening }

/-- R181: every DISABLED link whose enable flag is set becomes LISTENING. -/
def State.listenAll (s : State) : State :=
  linkNumbers.foldl (fun s l => if (s.link l).startable then s.setLink l (s.link l).listen else s) s

/-- R181. -/
def startPart (s : State) : Answer :=
  if s.clock.notSet then refuse s .clockNotSet
  else
    match s.part with
    | .serving => done s (.listening 0)
    | .standby =>
      done { s.listenAll with part := .serving } (.listening (linkNumbers.filter (fun l => (s.link l).startable)).length)

/-- START (R181). -/
def execStart (f : HostFrame Unit) (s : State) : Result := .next (command Kind.start f s (fun _ => startPart))

/-! ### SET-LIMITS (R183) -/

/-- A value brought within its bounds. -/
def clamp (lo hi v : Nat) : Nat := max lo (min hi v)

/-- R183: the limits a command's values give. -/
def clampedLimits (x : LimitsFields) : Limits :=
  ⟨clamp 50 2000 x.hostAnswer.toNat, clamp 200 5000 x.gate.toNat, clamp 1000 10000 x.presence.toNat⟩

/-- R183: the limits that were brought within their bounds. -/
def clampedNames (x : LimitsFields) : List Field :=
  (if (clampedLimits x).hostAnswer = x.hostAnswer.toNat then [] else [.hostAnswerLimit]) ++
  (if (clampedLimits x).gate = x.gate.toNat then [] else [.gateLimit]) ++
  (if (clampedLimits x).presence = x.presence.toNat then [] else [.presenceLimit])

/-- R183. -/
def setLimits (x : LimitsFields) (s : State) : Answer :=
  let s1 : State := { s with limits := clampedLimits x }
  match clampedNames x with
  | [] => (s1, .done (.limits s1.limits []))
  | names => (s1, .doneClamped (.limits s1.limits names))

/-- SET_LIMITS (R183). -/
def execSetLimits (f : HostFrame LimitsFields) (s : State) : Result := .next (command Kind.setLimits f s setLimits)

/-! ### TIME-SET (R173, R174) -/

/-- The cutover hour a TIME-SET asks for: the carried one, or the present one; none when it is out of its range or malformed. -/
def askedCutover (present : Nat) : WireOpt Byte → Option Nat
  | .absent => some present
  | .present b => if b.toNat ≤ 23 then some b.toNat else none
  | .malformed => none

/-- R174: an accepted TIME-SET after the first takes the clock `c`. It is one event, so the ways that check faults drop keep their order
(R4). -/
def moveClock (c : Clock) (s : State) : Answer :=
  let rolled := decide (s.date < c.businessDate)
  let s1 : State := { s with clock := c }
  let s2 := if rolled then s1.rollover true else s1
  let due := s2.dueHolds c.reading
  done (s.inFallOrder (due.foldl State.expireHold s2)) (.clock c.reading c.businessDate rolled due.length)

/-- R173. -/
def timeSet (x : TimeFields) (s : State) : Answer :=
  if Config.dayMs ≤ x.time.toNat then badField s .timeOfDay
  else
    match askedCutover s.clock.cutover x.cutover with
    | none => badField s .cutoverHour
    | some cutover =>
      let c : Clock := ⟨⟨x.day.toNat, x.time.toNat⟩, cutover, false⟩
      if s.clock.notSet then done { s with clock := c } (.clock c.reading c.businessDate false 0)
      else if c.businessDate < s.date then refuse s .clockBackward
      else moveClock c s

/-- TIME_SET (R173, R174). A hold that expires may bring on a check fault, and with it the end of a flush. -/
def execTimeSet (f : HostFrame TimeFields) (s : State) : Result := .next (command Kind.timeSet f s (fun x s => settled (timeSet x s)))

/-! ### Events and counters (R184 to R188) -/

/-- R186: the set names an event the part does not know. -/
def unknownEvents (w : Word16) : Bool := decide (2048 ≤ w.toNat)

/-- R186. -/
def setNotices (x : NoticeFields) (s : State) : Answer :=
  match yesNo x.routine, yesNo x.exceptional with
  | none, _ => badField s .routineEnable
  | some _, none => badField s .exceptionalEnable
  | some routine, some exceptional =>
    if unknownEvents x.events then badField s .eventSet
    else
      done { s with events := { s.events with enables := x.events, routine := routine, exceptional := exceptional } }
        (.notices routine exceptional x.events)

/-- SET_NOTICES (R186). -/
def execSetNotices (f : HostFrame NoticeFields) (s : State) : Result := .next (command Kind.setNotices f s setNotices)

/-- R187. -/
def readEvents (s : State) : Answer :=
  done { s with events := { s.events with pending := 0#16 } } (.events s.events.pending)

/-- READ_EVENTS (R187). -/
def execReadEvents (f : HostFrame Unit) (s : State) : Result := .next (command Kind.readEvents f s (fun _ => readEvents))

/-- R188: the counters of every link as they stand. -/
def State.linkCounters (s : State) : List LinkCounters :=
  linkNumbers.map (fun l => ⟨(s.link l).dropped, (s.link l).badFrame, (s.link l).rejected⟩)

def Link.clearCounters (x : Link) : Link :=
  { x with dropped := Counter.zero, badFrame := Counter.zero, rejected := Counter.zero }

/-- R188. -/
def readCounters (s : State) : Answer :=
  done { s with counters := ⟨Counter.zero, Counter.zero, Counter.zero, Counter.zero⟩
                links := s.links.mapEntries Link.default Link.clearCounters }
    (.counters s.counters s.linkCounters)

/-- READ_COUNTERS (R188). -/
def execReadCounters (f : HostFrame Unit) (s : State) : Result := .next (command Kind.readCounters f s (fun _ => readCounters))

/-- R12. -/
def readFault (s : State) : Answer := done { s with fault := ⟨none, 0, false⟩ } (.fault s.fault)

/-- READ_FAULT (R12). -/
def execReadFault (f : HostFrame Unit) (s : State) : Result := .next (command Kind.readFault f s (fun _ => readFault))

/-! ### READ-STATUS (R189) -/

def isReserved (e : ReplyEntry) : Bool :=
  match e.state with
  | .reserved => true
  | _ => false

def isGated (e : ReplyEntry) : Bool :=
  match e.state with
  | .gated _ _ _ _ => true
  | _ => false

def isReady (e : ReplyEntry) : Bool :=
  match e.state with
  | .ready _ _ _ => true
  | _ => false

/-- R168: what READ-STATUS reports of a link. -/
def linkReport (x : Link) : LinkReport :=
  { state := x.state, enabled := x.enabled, expected := x.expected, session := x.session, lanes := x.lanes, windowA := x.windowA,
    windowB := x.windowB, inbound := x.inbound.length, reserved := (x.replies.filter isReserved).length,
    gated := (x.replies.filter isGated).length, ready := (x.replies.filter isReady).length }

def programReport (s : State) (n : Nat) : ProgramReport := ⟨n, (s.program n).range, (s.program n).state, (s.program n).locked⟩

def State.referralCount (s : State) : Nat := (s.requests.cells.filter (fun c => match c.2 with
  | some x => x.fetch?.isNone
  | none => false)).length

/-- R101: the FETCH entries that are WAITING-POST. -/
def State.waitingPosts (s : State) : Nat := (s.requests.cells.filter (fun c => match c.2 with
  | some x => match x.fetch? with
    | some f => !f.sent
    | none => false
  | none => false)).length

/-- R189. -/
def State.status (s : State) : StatusReport :=
  { part := s.part, limits := s.limits, routine := s.events.routine, exceptional := s.events.exceptional, enables := s.events.enables,
    reading := s.now, cutover := s.clock.cutover, date := s.date, notSet := s.clock.notSet,
    programs := (List.range Config.programs).map (programReport s),
    mode := s.dirMode, valid := s.validWays, reserved := s.reservedWays, pinned := s.pinnedWays,
    holds := s.holds.length, notes := s.notes.length,
    fetches := s.fetchCount, referrals := s.referralCount, waitingPost := s.waitingPosts,
    records := s.journal.records.length, oldest := s.journal.oldest, nextSeq := s.journal.nextSeq,
    highestSent := s.journal.highestSent, undoSlots := s.journal.reserved, highArmed := s.journal.highArmed,
    refusing := s.journal.refusing, exposures := s.exposures.cells.length,
    links := linkNumbers.map (fun l => linkReport (s.link l)) }

/-- READ_STATUS (R189). -/
def execReadStatus (f : HostFrame Unit) (s : State) : Result :=
  .next (command Kind.readStatus f s (fun _ s => done s (.status s.status)))

/-- UNKNOWN_COMMAND (R178, R192). -/
def execUnknownCommand (f : UnknownFrame) (s : State) : Result :=
  .next (match f with
    | .badCheck => s
    | .body kind ref => answer kind ref (refuse s .unknownCommand))

end Sys2Proof.Machine
end

