-- ==== Sys2Proof/Machine/DirectoryCommands.lean ====
section
/-! DEFINITION. The commands of the Card Directory (spec 01 R13, R14, R18 to R25). -/

namespace Sys2Proof.Machine

/-! ### PASS-RANGE-SET (R18) -/

/-- R17: an enabled range's counts, the powers of ten from 1,000 to 1,000,000,000. -/
def passCounts : List Nat := [1000, 10000, 100000, 1000000, 10000000, 100000000, 1000000000]

/-- R18, R179: the first field of a PASS-RANGE-SET, in its own field order, that fails its test. -/
def passRangeFault (x : PassRangeFields) : Option Field :=
  if Config.passRanges ≤ x.number.toNat then some .rangeNumber
  else
    match cardOfBcd x.first with
    | none => some .firstCard
    | some first =>
      if x.count.toNat ≠ 0 ∧ first % x.count.toNat ≠ 0 then some .firstCard
      else if x.count.toNat ≠ 0 ∧ x.count.toNat ∉ passCounts then some .count
      else none

/-- R18: a card that the new range may not cover stands in a way, in a FETCH entry or under a live hold. -/
def State.rangeInUse (s : State) (r : Range) : Bool :=
  s.ways.any (fun w => match w.st.card with
    | some card => r.covers card
    | none => false) ||
  s.requests.cells.any (fun c => match c.2 with
    | some x => match x.fetch? with
      | some f => r.covers f.card
      | none => false
    | none => false) ||
  s.holds.any (fun h => r.covers h.card)

/-- R18. -/
def passRangeSet (x : PassRangeFields) (s : State) : Answer :=
  match passRangeFault x with
  | some f => badField s f
  | none =>
    let r : Range := ⟨(cardOfBcd x.first).getD 0, x.count.toNat⟩
    if s.rangeInUse r then refuse s .rangeInUse
    else done { s with passRanges := s.passRanges.set ⟨0, 0⟩ x.number.toNat r } .none

/-- PASS_RANGE_SET (R18). -/
def execPassRangeSet (f : HostFrame PassRangeFields) (s : State) : Result := .next (command Kind.passRangeSet f s passRangeSet)

/-! ### DIRECTORY-MODE (R13, R14) -/

/-- A VALID way that is not pinned. -/
def State.unpinned (s : State) (w : Way) : Bool := w.st.isValid && !s.pinsWay w.st

/-- R14, R4: on entry to a flush the VALID ways of a set that are not pinned become INVALID, and take the least recently used places in
the order they held among themselves. -/
def State.flushSet (s : State) (d : DirSet) : DirSet :=
  ⟨(d.ways.filter s.unpinned).map (fun w => { w with st := .invalid }) ++ d.ways.filter (fun w => !s.unpinned w)⟩

/-- R14: FLUSHING is entered. -/
def State.enterFlush (s : State) (t : FlushTarget) : State :=
  { s with dirMode := .flushing t, dir := s.dir.mapEntries DirSet.default s.flushSet }

/-- The mode a target names. -/
def ModeTarget.mode : ModeTarget → DirMode
  | .off => .off
  | .warming => .warming
  | .normal => .normal
  | .frozen => .frozen

/-- The flush target a target names. -/
def ModeTarget.flush? : ModeTarget → Option FlushTarget
  | .off => some .off
  | .warming => some .warming
  | .normal => none
  | .frozen => none

/-- R13. -/
def directoryMode (b : Byte) (s : State) : Answer :=
  match modeTarget b with
  | none => badField s .mode
  | some t =>
    if s.dirMode = t.mode then done s .none
    else
      match s.dirMode.isFlushing, t.flush? with
      | true, none => refuse s .wrongState
      | true, some target => done { s with dirMode := .flushing target } .none
      | false, none => done { s with dirMode := t.mode } .none
      | false, some target => if s.holds.isEmpty then done (s.enterFlush target) .none else refuse s .holdsPresent

/-- DIRECTORY_MODE (R13). -/
def execDirectoryMode (f : HostFrame Byte) (s : State) : Result := .next (command Kind.directoryMode f s (fun b s => settled (directoryMode b s)))

/-! ### CARD-EVICT (R19) -/

/-- A card number a command carries. -/
def withCard (w : Word64) (s : State) (act : Nat → State → Answer) : Answer :=
  match cardOfBcd w with
  | none => badField s .cardNumber
  | some card => act card s

/-- R19. -/
def cardEvict (w : Word64) (s : State) : Answer :=
  withCard w s (fun card s =>
    match s.findWay card with
    | some ⟨no, .valid r _⟩ => if s.pins r then refuse s .pinned else done (s.dropWay (setOf card) no) .none
    | some ⟨_, .reserved _⟩ => refuse s .cardBusy
    | _ => done s .notResident)

/-- CARD_EVICT (R19). -/
def execCardEvict (f : HostFrame Word64) (s : State) : Result := .next (command Kind.cardEvict f s (fun w s => settled (cardEvict w s)))

/-! ### CARD-ADJUST (R20 to R24) -/

/-- R20, test 1: the mode refuses every form. -/
def State.adjustRefused (s : State) : Bool := decide (s.dirMode = .off) || s.dirMode.isFlushing

/-- R20, test 2: the card has an unconfirmed effect. -/
def State.unconfirmed (s : State) (card : Nat) : Bool :=
  s.undoRecords.any (fun u => decide (u.card = card)) || (s.holdsOf card).any (fun h => decide (h.state ≠ .opened))

/-- R20: the common tests of a form other than LOAD, and the form's work on the resident record. The tests of unconfirmed effects and
residence concern a card, so a malformed card number is refused between the mode and them (DEDUCED, notes/assumptions/8). -/
def adjusting (w : Word64) (s : State) (act : Nat → CardRecord → State → Answer) : Answer :=
  if s.adjustRefused then refuse s .wrongState
  else
    withCard w s (fun card s =>
      if s.unconfirmed card then refuse s .cardBusy
      else
        match s.findWay card with
        | some ⟨_, .reserved _⟩ => refuse s .cardBusy
        | _ =>
          match s.readRecord card with
          | (s1, some (r, _)) => act card r s1
          | (s1, none) => refuse s1 .notResident)

/-- R21, R11: the part once a LOAD has read the card's record, and whether the card stands in a way. A record that fails its check is
dropped, and the LOAD goes on as for a card that is not resident. -/
def State.occupied (s : State) (card : Nat) : State × Bool :=
  match s.readRecord card with
  | (s1, some _) => (s1, true)
  | (s1, none) => (s1, (s1.findWay card).isSome)

/-- R21, once it is known that the card stands in no way. -/
def loadAbsent (d : Option CardData) (card : Nat) (s : State) : Answer :=
  if s.names card then refuse s .cardBusy
  else
    match d with
    | none => badField s .cardRecord
    | some d =>
      if !s.installable d then badField s .cardRecord
      else
        match s.victim card with
        | none => refuse s .pinned
        | some no => done (s.install no d) .none

/-- R21, once the card number is known. -/
def loadRecord (d : Option CardData) (card : Nat) (s : State) : Answer :=
  match s.occupied card with
  | (s1, true) => refuse s1 .cardBusy
  | (s1, false) => loadAbsent d card s1

/-- R21. -/
def cardAdjustLoad (w : CardWire) (s : State) : Answer :=
  if s.adjustRefused then refuse s .wrongState
  else
    match cardOfBcd w.card with
    | none => badField s .cardRecord
    | some card => loadRecord (readCard w) card s

/-- CARD_ADJUST_LOAD (R20, R21). -/
def execCardAdjustLoad (f : HostFrame CardWire) (s : State) : Result := .next (command Kind.cardAdjust f s cardAdjustLoad)

/-- R22. -/
def cardAdjustUnload (w : Word64) (s : State) : Answer :=
  adjusting w s (fun card r s =>
    if s.pins r then refuse s .pinned
    else
      match s.findWay card with
      | some x => done (s.dropWay (setOf card) x.no) (.record r.data r.unposted)
      | none => refuse s .notResident)

/-- CARD_ADJUST_UNLOAD (R20, R22). -/
def execCardAdjustUnload (f : HostFrame Word64) (s : State) : Result := .next (command Kind.cardAdjust f s cardAdjustUnload)

/-- R23: the expiry day a SET-BONUS leaves. -/
def newExpiry (present carried : Option Nat) : Option Nat :=
  match carried with
  | some day => some day
  | none => present

/-- R23, on a resident record, with its balance in order and its expiry day well formed. -/
def setBonusTo (bonus : Nat) (carried : Option Nat) (card : Nat) (r : CardRecord) (s : State) : Answer :=
  let expiry := newExpiry r.data.expiry carried
  if 0 < bonus ∧ expiry = none then badField s .bonusExpiry
  else if bonus = r.data.bonus then done (s.writeData card (fun d => { d with expiry := expiry })) .none
  else
    match s.admission 1 Kind.cardAdjust with
    | (s1, false) => refuse s1 .cardBusy
    | (s1, true) =>
      done ((s1.writeData card (fun d => { d with bonus := bonus, expiry := expiry })).joinRecord
        { kind := .adjust, card := card, origin := none, bonusDelta := (bonus : Int) - (r.data.bonus : Int), coreDelta := 0,
          forfeited := none, undone := none }) .none

/-- An optional day number; none where its presence byte is malformed. -/
def optionalDay : WireOpt Word16 → Option (Option Nat)
  | .absent => some none
  | .present w => some (some w.toNat)
  | .malformed => none

/-- R23, on a resident record: the balance is tested before the expiry day, as R179 asks. -/
def setBonus (bonus : Nat) (expiry : WireOpt Word16) (card : Nat) (r : CardRecord) (s : State) : Answer :=
  if Config.purseCeiling < bonus ∨ bonus < s.heldBonus card then badField s .bonusBalance
  else
    match optionalDay expiry with
    | none => badField s .bonusExpiry
    | some carried => setBonusTo bonus carried card r s

/-- R23. -/
def cardAdjustSetBonus (x : SetBonusFields) (s : State) : Answer := adjusting x.card s (setBonus x.bonus.toNat x.expiry)

/-- CARD_ADJUST_SET_BONUS (R20, R23). -/
def execCardAdjustSetBonus (f : HostFrame SetBonusFields) (s : State) : Result :=
  .next (command Kind.cardAdjust f s cardAdjustSetBonus)

/-- R24: the status of a resident record is set. -/
def setStatus (status : CardStatus) (w : Word64) (s : State) : Answer :=
  adjusting w s (fun card _ s => done (s.writeData card (fun d => { d with status := status })) .none)

/-- CARD_ADJUST_BLOCK (R20, R24). -/
def execCardAdjustBlock (f : HostFrame Word64) (s : State) : Result := .next (command Kind.cardAdjust f s (setStatus .blocked))

/-- CARD_ADJUST_UNBLOCK (R20, R24). -/
def execCardAdjustUnblock (f : HostFrame Word64) (s : State) : Result := .next (command Kind.cardAdjust f s (setStatus .active))

/-! ### DIRECTORY-READ (R25) -/

/-- DIRECTORY_READ_SUMMARY (R25). -/
def execDirectoryReadSummary (f : HostFrame Unit) (s : State) : Result :=
  .next (command Kind.directoryRead f s (fun _ s =>
    done s (.summary s.dirMode s.validWays s.reservedWays s.pinnedWays ((List.range Config.passRanges).map s.passRange))))

/-- R25: the CARD form's report of a VALID way, its check code verified. -/
def State.cardReport (s : State) (card : Nat) : State × CardReport :=
  match s.findWay card with
  | some ⟨no, .valid r _⟩ =>
    if r.verifies then (s, .valid no r.data r.unposted (s.pins r) (s.holdsOf card).length)
    else (s.checkFault card no, .notResident)
  | some ⟨no, .reserved _⟩ => (s, .reserved no)
  | _ => (s, .notResident)

/-- R25. -/
def directoryReadCard (w : Word64) (s : State) : Answer :=
  withCard w s (fun card s =>
    let (s1, report) := s.cardReport card
    done s1 (.card (setOf card) report))

/-- DIRECTORY_READ_CARD (R25). -/
def execDirectoryReadCard (f : HostFrame Word64) (s : State) : Result := .next (command Kind.directoryRead f s (fun w s => settled (directoryReadCard w s)))

/-- R192: the code of a way's state, in the order R3 names them. -/
def WayState.code : WayState → Nat
  | .invalid => 0
  | .reserved _ => 1
  | .valid _ _ => 2

/-- R25: what the SET form reports of a way. -/
def State.wayReport (s : State) (w : Way) : WayReport :=
  { way := w.no, state := w.st.code, card := w.st.card,
    unposted := match w.st with
      | .valid r _ => some r.unposted
      | _ => none,
    pinned := match w.st with
      | .valid r _ => some (s.pins r)
      | _ => none }

/-- R25. -/
def directoryReadSet (w : Word16) (s : State) : Answer :=
  if w.toNat < Config.sets then done s (.set ((s.dirSet w.toNat).ways.map s.wayReport)) else badField s .setNumber

/-- DIRECTORY_READ_SET (R25). -/
def execDirectoryReadSet (f : HostFrame Word16) (s : State) : Result := .next (command Kind.directoryRead f s directoryReadSet)

end Sys2Proof.Machine
end

