-- ==== Sys2Proof/Machine/HostAnswers.lean ====
section
/-! DEFINITION. The host's answers (spec 06 R103, R104, R111 to R118; spec 01 R16; spec 07 R130, R131; spec 12 R192) and the
transmission of what stands on the service link (spec 07 R129). -/

namespace Sys2Proof.Machine

/-- R104: a late answer is counted and LATE-ANSWER is raised. -/
def State.lateAnswer (s : State) (kind : Word16) (tag gen : Nat) : State :=
  ({ s with counters := { s.counters with late := s.counters.late.bump } } : State).raise .lateAnswer (.lateAnswer kind tag gen)

/-- R103: an answer is refused BAD-FIELD, naming its tag. -/
def State.refuseAnswer (s : State) (kind : Word16) (tag gen : Nat) : State := s.queue (.answerRefused kind (some (tag, gen)))

/-- R103: the entry an answer's tag and generation name. -/
def State.matching (s : State) (tag gen : Nat) : Option HostEntry :=
  match s.request tag with
  | some x => if x.gen = gen then some x else none
  | none => none

/-- R192, R103: how the part meets an answer's frame. `act` takes the answer against the SENT entry it names. -/
def hostAnswer {α : Type} (kind : Word16) (f : AnswerFrame α) (s : State) (act : Nat → Nat → HostKind → α → State → State) : State :=
  match f with
  | .badCheck => s
  | .wrongLength tagGen => s.queue (.answerRefused kind (tagGen.map (fun x => (x.1.toNat, x.2.toNat))))
  | .body tag gen fields =>
    match s.matching tag.toNat gen.toNat with
    | none => s.lateAnswer kind tag.toNat gen.toNat
    | some x =>
      match x.fetch? with
      | some f => if f.sent then (act tag.toNat gen.toNat x.kind fields s).settle else s.lateAnswer kind tag.toNat gen.toNat
      | none => (act tag.toNat gen.toNat x.kind fields s).settle

/-! ### CARD-DATA (R111) -/

/-- R114: the fetch of a taken answer ends in a flush. -/
def fetchFlushed (tag : Nat) (f : Fetch) (s : State) : State := (s.endFetch tag f).serveWaiters f.waiters serveFlushed

/-- R103, R111, R9: the record of a CARD-DATA that the fetch takes. -/
def takenRecord (f : Fetch) (w : CardWire) (s : State) : Option CardData :=
  match readCard w with
  | some d => if d.card = f.card ∧ s.installable d = true then some d else none
  | none => none

/-- R111. -/
def takeCardData (tag gen : Nat) (kind : HostKind) (w : CardWire) (s : State) : State :=
  match kind with
  | .referral _ => s.refuseAnswer Kind.cardData tag gen
  | .fetch f =>
    match takenRecord f w s with
    | none => s.refuseAnswer Kind.cardData tag gen
    | some d => if s.dirMode.isFlushing then fetchFlushed tag f s else fetchInstalled tag f d s

/-- CARD_DATA (R103, R111). -/
def execCardData (f : AnswerFrame CardWire) (s : State) : Result := .next (hostAnswer Kind.cardData f s takeCardData)

/-! ### NO-SUCH-CARD (R112) -/

/-- R112. -/
def takeNoSuchCard (tag gen : Nat) (kind : HostKind) (_ : Unit) (s : State) : State :=
  match kind with
  | .referral _ => s.refuseAnswer Kind.noSuchCard tag gen
  | .fetch f => fetchUnknown tag f s

/-- NO_SUCH_CARD (R103, R112). -/
def execNoSuchCard (f : AnswerFrame Unit) (s : State) : Result := .next (hostAnswer Kind.noSuchCard f s takeNoSuchCard)

/-! ### REFERRAL-ANSWER (R116, R118) -/

/-- R16: the way a carried record goes into: the card's own VALID way, or the victim way when the card is in no way. -/
def State.warmingWay (s : State) (card : Nat) : Option Nat :=
  match s.findWay card with
  | some w => if w.st.isValid then some w.no else none
  | none => s.victim card

/-- R16: a record the referral answer carried is installed. -/
def State.warmRecord (s : State) (d : CardData) : State :=
  if s.names d.card || !s.installable d then s
  else
    match s.warmingWay d.card with
    | some no => s.install no d
    | none => s

/-- R116: whether a carried record is considered: the request named a card, and the record is that card's. -/
def warmable (m : TillMsg) (b : Binding) (d : CardData) : Bool :=
  match m.kind with
  | .enquiry | .redeem | .hold | .reload | .reverse => decide (requestCard m b = some d.card)
  | _ => false

/-- R16, R116. A carried record that is malformed is treated as not carried (R192). -/
def State.warm (s : State) (m : TillMsg) (b : Binding) (w : Option CardWire) : State :=
  match s.dirMode, w.bind readCard with
  | .warming, some d => if warmable m b d then s.warmRecord d else s
  | _, _ => s

/-- R116, R64: the till reply is placed in the request's reply slot. A host decline clears a REVERSE's mark (R79). -/
def State.relay (s : State) (r : Referral) (reply : TillReply) (tag gen : Nat) : State :=
  match s.entry r.link r.slot with
  | some e =>
    (if reply.outcome = .declined then s.clearMark e else s).finish r.link r.slot (.ready reply none (some (tag, gen)))
  | none => s

/-- R116, R118. -/
def takeReferralAnswer (tag gen : Nat) (kind : HostKind) (x : ReferralFields) (s : State) : State :=
  match kind with
  | .fetch _ => s.refuseAnswer Kind.referralAnswer tag gen
  | .referral r =>
    match readReply r.msg x.reply with
    | none => s.refuseAnswer Kind.referralAnswer tag gen
    | some reply =>
      let s1 := s.setRequest tag none
      if r.abandoned then s1.queue (.undelivered tag gen reply)
      else (s1.relay r reply tag gen).warm r.msg r.bound x.record

/-- REFERRAL_ANSWER (R103, R116). -/
def execReferralAnswer (f : AnswerFrame ReferralFields) (s : State) : Result :=
  .next (hostAnswer Kind.referralAnswer f s takeReferralAnswer)

/-! ### POSTED (R130, R131) -/

/-- The records up to and including the one with sequence `n`, and those after it; none when no record has it. -/
def splitAtSequence (n : Nat) : List JournalRecord → Option (List JournalRecord × List JournalRecord)
  | [] => none
  | r :: t =>
    if r.sequence = n then some ([r], t)
    else (splitAtSequence n t).map (fun x => (r :: x.1, x.2))

/-- R130: the records that have been sent: those from the oldest up to the highest sent. -/
def Journal.sentRecords (j : Journal) : List JournalRecord :=
  match splitAtSequence j.highestSent j.records with
  | some (sent, _) => sent
  | none => []

/-- R130: what a POSTED of sequence `n` removes, and what it leaves; none when it is invalid. -/
def Journal.postable (j : Journal) (n : Nat) : Option (List JournalRecord × List JournalRecord) :=
  if j.sentRecords.any (fun r => decide (r.sequence = n)) then splitAtSequence n j.records else none

/-- R131: an invalid POSTED is counted. -/
def State.badPosted (s : State) : State := { s with counters := { s.counters with badPosted := s.counters.badPosted.bump } }

/-- R130: the unposted count of the card of a removed record falls; a way whose count falls to 0 in a flush is dropped (R14). -/
def State.uncountUnposted (s : State) (card : Nat) : State :=
  match s.findWay card with
  | some ⟨no, .valid r _⟩ =>
    if r.verifies then
      let s1 := s.writeUnposted card (fun n => n - 1)
      if s.dirMode.isFlushing ∧ r.unposted - 1 = 0 then s1.dropWay (setOf card) no else s1
    else s.checkFault card no
  | _ => s

/-- R130, R134: a GATED entry that awaits the sequence becomes READY. -/
def openGated (sequence : Nat) (e : ReplyEntry) : ReplyEntry :=
  match e.state with
  | .gated reply u awaited _ => if awaited = sequence then { e with state := .ready reply (some u) none } else e
  | _ => e

def State.openReplies (s : State) (sequence : Nat) : State :=
  { s with links := s.links.mapEntries Link.default (fun x => { x with replies := x.replies.map (openGated sequence) }) }

/-- R130: a record has been removed. -/
def State.retire (s : State) (r : JournalRecord) : State := (s.uncountUnposted r.card).openReplies r.sequence

/-- R108: a WAITING-POST entry whose card a removed record named, and no record left names, becomes SENT. -/
def State.openFetchGate (removed : List JournalRecord) (s : State) (tag : Nat) : State :=
  match s.request tag with
  | some ⟨gen, oldGens, _, .fetch f⟩ =>
    if !f.sent && removed.any (fun r => decide (r.card = f.card)) && !s.names f.card then
      (s.setRequest tag (some ⟨gen, oldGens, s.limits.hostAnswer, .fetch { f with sent := true }⟩)).queue (.cardFetch tag gen f.card)
    else s
  | _ => s

/-- R137: a record count of 3,072 or below rearms JOURNAL-HIGH. -/
def State.rearm (s : State) : State :=
  if s.journal.records.length ≤ Config.highMark then { s with journal := { s.journal with highArmed := true } } else s

/-- R130: a valid POSTED of sequence `n`. The ways it drops keep their order (R4). -/
def State.post (s : State) (n : Nat) (removed left : List JournalRecord) : State :=
  let s1 : State := { s with journal := { s.journal with records := left, highestPosted := n } }
  let s2 := s.inFallOrder (removed.foldl State.retire s1)
  (s2.requests.keys.foldl (State.openFetchGate removed) s2).rearm

/-- R130, R131, R192. -/
def takePosted (f : PostedFrame) (s : State) : State :=
  match f with
  | .badCheck => s
  | .wrongLength => s.badPosted
  | .body n =>
    match s.journal.postable n.toNat with
    | some (removed, left) => (s.post n.toNat removed left).settle
    | none => s.badPosted

/-- POSTED (R130, R131). -/
def execPosted (f : PostedFrame) (s : State) : Result := .next (takePosted f s)

/-! ### Transmission (R129, R178) -/

/-- JOURNAL_SEND (R129, R192). The message carries the highest posted so far. -/
def execJournalSend (s : State) : Result :=
  .next (match s.out with
    | .journal r _ :: rest =>
      { s with out := rest, sentToHost := s.sentToHost ++ [.journal r s.journal.highestPosted]
               journal := { s.journal with highestSent := r.sequence } }
    | _ => s)

/-- A message other than a JOURNAL. -/
def HostMsg.isJournal : HostMsg → Bool
  | .journal _ _ => true
  | _ => false

/-- SERVICE_MESSAGE_TRANSMITTED (R178, R182, R184). -/
def execServiceMessageTransmitted (s : State) : Result :=
  .next (match s.out with
    | m :: rest => if m.isJournal then s else { s with out := rest, sentToHost := s.sentToHost ++ [m] }
    | [] => s)

end Sys2Proof.Machine
end

