-- ==== Sys2Proof/Machine/LayoutCommands.lean ====
section
/-! DEFINITION. The commands of the Till Map and LINK-CONTROL (spec 08 R145 to R147; spec 09 R167). -/

namespace Sys2Proof.Machine

/-! ### SITE-SET (R145) -/

/-- R145: another site record holds the identity. -/
def State.identityHeld (s : State) (index identity : Nat) : Bool :=
  s.siteIds.cells.any (fun c => decide (c.1 ≠ index) && decide (c.2 = identity))

def State.setSiteId (s : State) (index identity : Nat) : State := { s with siteIds := s.siteIds.set 0 index identity }

/-- R145. -/
def siteSet (x : SiteFields) (s : State) : Answer :=
  if Config.sites ≤ x.index.toNat then badField s .siteIndex
  else if s.siteId x.index.toNat = x.identity.toNat then done s .none
  else if x.identity.toNat ≠ 0 ∧ s.identityHeld x.index.toNat x.identity.toNat then badField s .siteIdentity
  else done (s.setSiteId x.index.toNat x.identity.toNat) .none

/-- SITE_SET (R145). -/
def execSiteSet (f : HostFrame SiteFields) (s : State) : Result := .next (command Kind.siteSet f s siteSet)

/-! ### SLICE-ASSIGN (R146) -/

/-- R192: the site index a SLICE-ASSIGN asks for; 65,535 is *none*. The outer none is an index out of range. -/
def askedSite (w : Word16) : Option (Option Nat) :=
  if w.toNat = 65535 then some none else if w.toNat < Config.sites then some (some w.toNat) else none

/-- R143: the slice of a till. -/
def sliceOf (till : Nat) : Nat := till / 8

/-- R146: a till of the slice is OPEN, or a RESERVED entry notes one. -/
def State.sliceTrading (s : State) (slice : Nat) : Bool :=
  (List.range 8).any (fun k => (s.till (slice * 8 + k)).isOpen) ||
  linkNumbers.any (fun l => (s.link l).replies.any (fun e => isReserved e && match e.noted with
    | some n => decide (sliceOf n.till = slice)
    | none => false))

/-- R146. -/
def sliceAssign (x : SliceFields) (s : State) : Answer :=
  if Config.slices ≤ x.slice.toNat ∨ x.slice.toNat < 2 then badField s .sliceNumber
  else
    match askedSite x.site with
    | none => badField s .siteIndex
    | some site =>
      if s.slice x.slice.toNat = site then done s .none
      else if s.sliceTrading x.slice.toNat then refuse s .tillsOpen
      else done { s with slices := s.slices.set none x.slice.toNat site } .none

/-- SLICE_ASSIGN (R146). -/
def execSliceAssign (f : HostFrame SliceFields) (s : State) : Result := .next (command Kind.sliceAssign f s sliceAssign)

/-! ### WINDOW-SET (R147) -/

/-- R147. -/
def windowSet (x : WindowFields) (s : State) : Answer :=
  let l := x.link.toNat
  if Config.links ≤ l then badField s .linkNumber
  else if 1 < x.window.toNat then badField s .window
  else if Config.slices ≤ x.slice.toNat then badField s .sliceNumber
  else if x.window.toNat = 0 then done (s.setLink l { s.link l with windowA := x.slice.toNat }) .none
  else done (s.setLink l { s.link l with windowB := x.slice.toNat }) .none

/-- WINDOW_SET (R147). -/
def execWindowSet (f : HostFrame WindowFields) (s : State) : Result := .next (command Kind.windowSet f s windowSet)

/-! ### LINK-CONTROL (R167) -/

/-- A link number a command carries. -/
def withLink (b : Byte) (s : State) (act : Nat → State → Answer) : Answer :=
  if b.toNat < Config.links then act b.toNat s else badField s .linkNumber

/-- R167: the enable flag takes a value. -/
def State.setEnabled (s : State) (l : Nat) (b : Bool) : State := s.setLink l { s.link l with enabled := b }

/-- R167, enable. -/
def linkEnable (b : Byte) (s : State) : Answer :=
  withLink b s (fun l s =>
    let s1 := s.setEnabled l true
    if s.part = .serving ∧ (s.link l).state = .disabled then done (s1.setLink l (s1.link l).listen) .none else done s1 .none)

/-- LINK_CONTROL_ENABLE (R167). -/
def execLinkControlEnable (f : HostFrame Byte) (s : State) : Result := .next (command Kind.linkControl f s linkEnable)

/-- R167, disable. -/
def linkDisable (b : Byte) (s : State) : Answer :=
  withLink b s (fun l s =>
    let s1 := s.setEnabled l false
    if (s.link l).state = .disabled then done s1 .none else done (s1.emptyLink l .disabled Emptied.zero).1 .none)

/-- LINK_CONTROL_DISABLE (R167). -/
def execLinkControlDisable (f : HostFrame Byte) (s : State) : Result := .next (command Kind.linkControl f s (fun b s => settled (linkDisable b s)))

/-- R167: the state a reset leaves a LISTENING or UP link in. -/
def State.resetState (s : State) (l : Nat) : LinkState :=
  if s.part = .serving ∧ (s.link l).enabled = true then .listening else .disabled

/-- R167, reset. -/
def linkReset (b : Byte) (s : State) : Answer :=
  withLink b s (fun l s =>
    if (s.link l).state = .disabled then done s .none else done (s.emptyLink l (s.resetState l) Emptied.zero).1 .none)

/-- LINK_CONTROL_RESET (R167). -/
def execLinkControlReset (f : HostFrame Byte) (s : State) : Result := .next (command Kind.linkControl f s (fun b s => settled (linkReset b s)))

/-- R167, set expected identity. -/
def setExpectedIdentity (x : IdentityFields) (s : State) : Answer :=
  withLink x.link s (fun l s => done (s.setLink l { s.link l with expected := x.identity }) .none)

/-- LINK_CONTROL_SET_EXPECTED_IDENTITY (R167). -/
def execLinkControlSetExpectedIdentity (f : HostFrame IdentityFields) (s : State) : Result :=
  .next (command Kind.linkControl f s setExpectedIdentity)

end Sys2Proof.Machine
end

