-- ==== Sys2Proof/Machine/LinkEvents.lean ====
section
/-! DEFINITION. What happens on a site link: hellos, presence, arrivals, deliveries and gate timeouts (spec 09 R157 to R164; spec 07
R134, R135). -/

namespace Sys2Proof.Machine

/-! ### Frames in good order and damaged frames (R157) -/

/-- R157: a frame that fails its length or its check on a LISTENING or UP link is counted. -/
def State.badFrame (s : State) (l : Nat) : State := s.setLink l { s.link l with badFrame := (s.link l).badFrame.bump }

/-- R161, R157: a till message is discarded and counted. -/
def State.dropInbound (s : State) (l : Nat) : State := s.setLink l { s.link l with dropped := (s.link l).dropped.bump }

/-- R156, R157: how a link meets a frame. A DISABLED link acts on none. -/
def siteFrame {α : Type} (l : Nat) (f : SiteFrame α) (s : State) (listening up : α → State → State) : State :=
  match (s.link l).state, f with
  | .disabled, _ => s
  | .listening, .damaged => s.badFrame l
  | .up, .damaged => s.badFrame l
  | .listening, .good x => listening x s
  | .up, .good x => up x s

/-! ### LINK-HELLO (R158, R159) -/

/-- R158: a hello is rejected. -/
def State.rejectHello (s : State) (l : Nat) (byIdentity : Bool) (h : HelloFields) : State :=
  ((s.transmit l (.linkReject byIdentity)).setLink l
    { (s.transmit l (.linkReject byIdentity)).link l with rejected := (s.link l).rejected.bump }).raise .helloRejected
      (.helloRejected l byIdentity h.identity h.level)

/-- R158: a link takes the session of an accepted hello. -/
def Link.accept (x : Link) (h : HelloFields) (limit : Nat) : Link :=
  { x with state := .up, session := some h.identity, lanes := some h.lanes, presenceLimit := some limit, presenceTimer := some limit }

/-- R158: a hello is accepted. -/
def State.acceptHello (s : State) (l : Nat) (h : HelloFields) : State :=
  ((s.setLink l ((s.link l).accept h s.limits.presence)).transmit l
    (.linkAccept l (s.link l).windowA (s.link l).windowB s.limits.presence)).raise .linkUp (.linkUp l h.identity)

/-- R158: a LISTENING link meets a hello. -/
def meetHello (l : Nat) (h : HelloFields) (s : State) : State :=
  if h.level ≠ 1#8 then s.rejectHello l false h
  else if (s.link l).expected ≠ 0#32 ∧ (s.link l).expected ≠ h.identity then s.rejectHello l true h
  else s.acceptHello l h

/-- LINK_HELLO (R158, R159). A flush that a check fault in the loss of an UP link ends is done after LINK-LOST and before the hello is met
(DESIGN CHOICE, notes/assumptions/29). -/
def execLinkHello (l : Fin 8) (f : SiteFrame HelloFields) (s : State) : Result :=
  .next (siteFrame l.val f s (meetHello l.val) (fun h s => meetHello l.val h (s.loseLink l.val true).settle))

/-! ### PRESENCE and arrivals (R157, R160, R161) -/

/-- R160: the presence timer is reloaded with the session presence limit. -/
def State.reload (s : State) (l : Nat) : State := s.setLink l { s.link l with presenceTimer := (s.link l).presenceLimit }

/-- PRESENCE (R157, R160). -/
def execPresence (l : Fin 8) (f : SiteFrame Unit) (s : State) : Result :=
  .next (siteFrame l.val f s (fun _ s => s) (fun _ s => s.reload l.val))

/-- R161: a till message is offered to the inbound queue of an UP link. -/
def State.offer (s : State) (l : Nat) (m : TillMsg) : State :=
  if (s.link l).inbound.length < Config.inboundMessages then
    s.setLink l { s.link l with inbound := (s.link l).inbound ++ [m] }
  else s.dropInbound l

/-- TILL_MESSAGE_ARRIVAL (R157, R161). -/
def execTillMessageArrival (l : Fin 8) (f : SiteFrame TillMsg) (s : State) : Result :=
  .next (siteFrame l.val f s (fun _ s => s.dropInbound l.val) (fun m s => (s.reload l.val).offer l.val m))

/-- PRESENCE_TIMEOUT (R160). A link whose presence timer does not run has none that runs out. A flush that a check fault in the loss ends
is done after LINK-LOST (DESIGN CHOICE, notes/assumptions/29). -/
def execPresenceTimeout (l : Fin 8) (s : State) : Result :=
  .next (if (s.link l.val).state = .up ∧ (s.link l.val).presenceTimer.isSome then (s.loseLink l.val false).settle else s)

/-! ### Delivery and the gate timeout (R164, R135) -/

/-- DELIVERY (R164, R63). -/
def execDelivery (l : Fin 8) (s : State) : Result :=
  .next (match (s.link l.val).state, oldestReady (s.link l.val).replies with
    | .up, some (e, reply, u) => (s.deliver l.val e reply u).settle
    | _, _ => s)

/-- The GATED entry of a reply queue that awaits a sequence, with its reply and undo record. -/
def gatedOn (sequence : Nat) : List ReplyEntry → Option (ReplyEntry × TillReply × UndoRecord)
  | [] => none
  | e :: t =>
    match e.state with
    | .gated reply u awaited _ => if awaited = sequence then some (e, reply, u) else gatedOn sequence t
    | _ => gatedOn sequence t

/-- GATE_TIMEOUT (R134, R135). -/
def execGateTimeout (l : Fin 8) (sequence : Nat) (s : State) : Result :=
  .next (match gatedOn sequence (s.link l.val).replies with
    | some (e, reply, u) => (s.gateTimeout l.val e reply u).settle
    | none => s)

end Sys2Proof.Machine
end

