-- ==== Sys2Proof/Machine/ProgramCommands.lean ====
section
/-! DEFINITION. The commands of the Program Table (spec 02 R32 to R39). -/

namespace Sys2Proof.Machine

/-- A program number a command carries, tested against R27. -/
def withProgram (b : Byte) (s : State) (act : Nat → State → Answer) : Answer :=
  if b.toNat < Config.programs then act b.toNat s else badField s .programNumber

/-- R27, R28: the first field of a PROGRAM-SET, in record order, that is malformed or out of its range. -/
def programFault (x : ProgramFields) : Option Field :=
  match cardOfBcd x.first with
  | none => some .firstCard
  | some first =>
    if Config.cardNumbers < first + x.count.toNat then some .count
    else if x.maximumBalance.toNat < 100 ∨ 4999999 < x.maximumBalance.toNat then some .maximumBalance
    else if x.holdLifetime.toNat < 15 ∨ 4320 < x.holdLifetime.toNat then some .holdLifetime
    else if 50 < x.tipTolerance.toNat then some .tipTolerance
    else if 100 < x.bonusCap.toNat then some .bonusCap
    else if 50000 < x.standInLimit.toNat then some .standInLimit
    else if (gatingOf x.gating).isNone then some .replyGating
    else none

/-- The range a PROGRAM-SET carries. -/
def carriedRange (x : ProgramFields) : Range := ⟨(cardOfBcd x.first).getD 0, x.count.toNat⟩

/-- The limits a PROGRAM-SET carries. -/
def carriedLimits (x : ProgramFields) : ProgramLimits :=
  { maximumBalance := x.maximumBalance.toNat, holdLifetime := x.holdLifetime.toNat, tipTolerance := x.tipTolerance.toNat,
    bonusCap := x.bonusCap.toNat, dailyUseLimit := x.dailyUseLimit.toNat, standInLimit := x.standInLimit.toNat,
    gating := (gatingOf x.gating).getD .early }

/-- R32, R33. -/
def programSet (x : ProgramFields) (s : State) : Answer :=
  withProgram x.number s (fun n s =>
    if (s.program n).locked then refuse s .locked
    else
      match programFault x with
      | some f => badField s f
      | none =>
        if (s.program n).state = .active ∧ (s.program n).range ≠ carriedRange x then refuse s .active
        else done (s.setProgram n { s.program n with range := carriedRange x, limits := carriedLimits x }) .none)

/-- PROGRAM_SET (R32, R33). -/
def execProgramSet (f : HostFrame ProgramFields) (s : State) : Result := .next (command Kind.programSet f s programSet)

/-- R34, R39: the ACTIVE programs other than `n` whose ranges overlap `r`, lowest number first. -/
def State.overlapping (s : State) (n : Nat) (r : Range) : List Nat :=
  (List.range Config.programs).filter (fun m =>
    decide (m ≠ n) && decide ((s.program m).state = .active) && (s.program m).range.overlaps r)

/-- R34. -/
def programActivate (b : Byte) (s : State) : Answer :=
  withProgram b s (fun n s =>
    if (s.program n).state = .active then done s .none
    else if (s.program n).range.count = 0 then badField s .programNumber
    else
      match s.overlapping n (s.program n).range with
      | [] => done (s.setProgram n { s.program n with state := .active }) .none
      | m :: ms => (s, .refused .overlap none (m :: ms)))

/-- PROGRAM_ACTIVATE (R34). -/
def execProgramActivate (f : HostFrame Byte) (s : State) : Result := .next (command Kind.programActivate f s programActivate)

/-- R35. -/
def programDeactivate (b : Byte) (s : State) : Answer :=
  withProgram b s (fun n s =>
    if (s.program n).locked then refuse s .locked
    else if (s.program n).state = .inactive then done s .none
    else done (s.setProgram n { s.program n with state := .inactive }) .none)

/-- PROGRAM_DEACTIVATE (R35). -/
def execProgramDeactivate (f : HostFrame Byte) (s : State) : Result := .next (command Kind.programDeactivate f s programDeactivate)

/-- R37. -/
def programLock (b : Byte) (s : State) : Answer :=
  withProgram b s (fun n s =>
    if (s.program n).state = .inactive then refuse s .wrongState
    else if (s.program n).locked then done s .none
    else done (s.setProgram n { s.program n with locked := true }) .none)

/-- PROGRAM_LOCK (R37). -/
def execProgramLock (f : HostFrame Byte) (s : State) : Result := .next (command Kind.programLock f s programLock)

/-- R39: the enabled pass-through ranges that overlap `r`, lowest number first. -/
def State.overlappingPass (s : State) (r : Range) : List (Nat × Range) :=
  ((List.range Config.passRanges).filter (fun n => (s.passRange n).overlaps r)).map (fun n => (n, s.passRange n))

/-- R39. -/
def rangeProbe (b : Byte) (s : State) : Answer :=
  withProgram b s (fun n s =>
    if (s.program n).state = .active then refuse s .active
    else
      done s (.probe (s.program n).range ((s.overlapping n (s.program n).range).map (programReport s))
        (s.overlappingPass (s.program n).range)))

/-- RANGE_PROBE (R39). -/
def execRangeProbe (f : HostFrame Byte) (s : State) : Result := .next (command Kind.rangeProbe f s rangeProbe)

end Sys2Proof.Machine
end

