-- ==== Sys2Proof/Machine/TillRequests.lean ====
section
/-! DEFINITION. Take-off (spec 09 R162) and the take-off checks of every till request (spec 04 R61, R75, R80; spec 05 R85, R88, R92,
R99; spec 08 R140, R141, R149, R150, R152). -/

namespace Sys2Proof.Machine

/-! ### Lane resolution (R140, R141) -/

/-- R140: the slice a lane's window names. -/
def Link.window (x : Link) (lane : Nat) : Nat := if lane < 8 then x.windowA else x.windowB

/-- R140: the till a lane reaches. -/
def tillOf (slice lane : Nat) : Nat := slice * 8 + lane % 8

/-- R143: slices 0 and 1 are the commissioning slices. -/
def commissioning (slice : Nat) : Bool := decide (slice < 2)

/-- R158: the lane is in the announced lane set. -/
def Link.announced (x : Link) (lane : Nat) : Bool :=
  match x.lanes with
  | some w => decide (lane < 16) && w.getLsbD lane
  | none => false

/-- R140, R141: the till, its site index and its shift number, or none when the mapping check fails. -/
def State.resolve (s : State) (l lane : Nat) : Option NotedTill :=
  let slice := (s.link l).window lane
  if (s.link l).announced lane && (commissioning slice || (s.slice slice).isSome) then
    some ⟨tillOf slice lane, s.slice slice, (s.till (tillOf slice lane)).shift⟩
  else none

/-! ### Take-off (R162) -/

/-- R162: the oldest message leaves the inbound queue and has an entry, RESERVED, at the newest end of the reply queue. -/
def State.take (s : State) (l : Nat) (e : ReplyEntry) (rest : List TillMsg) : State :=
  { s.setLink l { s.link l with inbound := rest, replies := (s.link l).replies ++ [e] } with nextSlot := s.nextSlot + 1 }

/-- R162, step 1: the entry made for a message, its till noted where the mapping check passes. -/
def State.newEntry (s : State) (l : Nat) (m : TillMsg) : ReplyEntry :=
  { slot := s.nextSlot, msg := m, noted := s.resolve l m.lane.toNat, bound := .free, nextEntry := s.nextEntry, state := .reserved }

/-- R162: the message a take-off would take, with the messages behind it. -/
def State.takeable (s : State) (l : Nat) : Option (TillMsg × List TillMsg) :=
  match (s.link l).state, (s.link l).inbound with
  | .up, m :: rest => if (s.link l).replies.length < Config.replyEntries then some (m, rest) else none
  | _, _ => none

/-- R162: the take-off of a message of the kind `want`. The mapping check comes first (R141); a request that passes it goes on with its
entry and its noted till. Nothing happens when the link's oldest message is of another kind or no take-off can be taken. -/
def takeOff (l : Nat) (want : TillKind → Bool) (s : State) (act : ReplyEntry → NotedTill → State → State) : State :=
  match s.takeable l with
  | none => s
  | some (m, rest) =>
    if want m.kind then
      let e := s.newEntry l m
      match e.noted with
      | none => decline l e .notMapped none (s.take l e rest)
      | some n => act e n (s.take l e rest)
    else s

/-- A request is bound to a hold or a stack entry; its entry keeps what it is bound to. -/
def bindTo (l : Nat) (e : ReplyEntry) (b : Binding) (s : State) (act : ReplyEntry → State → State) : State :=
  act { e with bound := b } (s.modEntry l e.slot (fun x => { x with bound := b }))

/-- R61, R85, R88: the checks from 2 to 5 that every money request meets: its own fields, its amount, the training answer and the till's
state. `amount` is what a training answer approves. The field checks come before the training answer, so a malformed card number of a
training request is declined BAD-REQUEST (R191), though R80 and R152 say that it is not looked at (DESIGN CHOICE, notes/assumptions/25).
-/
def moneyChecks (l : Nat) (e : ReplyEntry) (n : NotedTill) (fieldsOk amountFits : Bool) (amount : Nat) (s : State)
    (act : State → State) : State :=
  if !fieldsOk then declineField l e (isTraining n.till) .badRequest s
  else if !amountFits then declineField l e (isTraining n.till) .badAmount s
  else if isTraining n.till then ready l e (trainingReply e.msg amount) none s
  else if !(s.till n.till).isOpen then decline l e .tillClosed none s
  else (act s).settle

/-- R61, R85, check 7: the program lookup at take-off of a request that carries its card number, then the directory's decision. -/
def withCardProgram (l : Nat) (e : ReplyEntry) (s : State) : State :=
  match cardNo e.msg with
  | none => unexpected l e s
  | some card => s.underProgram l e card (fun _ => directoryDecision l e card s)

/-! ### Field checks (R61, R85, R88, R191) -/

def cardOk (m : TillMsg) : Bool := (cardNo m).isSome
def partialOk (m : TillMsg) : Bool := (yesNo m.allowPartial).isSome
def tillRefOk (m : TillMsg) : Bool := decide (m.tillRef ≠ 0#32)
def holdRefOk (m : TillMsg) : Bool := decide (m.holdRef ≠ 0#32)

/-! ### ENQUIRY, REDEEM, RELOAD -/

/-- ENQUIRY (R61, R65, R66). -/
def execEnquiry (l : Fin 8) (s : State) : Result :=
  .next (takeOff l.val (fun k => decide (k = .enquiry)) s (fun e n s =>
    moneyChecks l.val e n (cardOk e.msg) true 0 s (withCardProgram l.val e)))

/-- REDEEM (R61, R67, R68). -/
def execRedeem (l : Fin 8) (s : State) : Result :=
  .next (takeOff l.val (fun k => decide (k = .redeem)) s (fun e n s =>
    moneyChecks l.val e n (cardOk e.msg && partialOk e.msg && tillRefOk e.msg) (amountOk e.msg) (amountOf e.msg) s
      (withCardProgram l.val e)))

/-- RELOAD (R61, R70, R71). -/
def execReload (l : Fin 8) (s : State) : Result :=
  .next (takeOff l.val (fun k => decide (k = .reload)) s (fun e n s =>
    moneyChecks l.val e n (cardOk e.msg && tillRefOk e.msg) (amountOk e.msg) (amountOf e.msg) s (withCardProgram l.val e)))

/-! ### REVERSE (R75) -/

/-- R75 to R78: a REVERSE that passes its stack check marks the entry and meets the directory. -/
def reverseEntry (l : Nat) (n : NotedTill) (x : StackEntry) (e : ReplyEntry) (s : State) : State :=
  let s1 := s.setMark n.till x.id true
  if x.kind = .standIn then standInReverse l e x s1 else directoryDecision l e x.card s1

/-- R75. -/
def reverseFrom (l : Nat) (e : ReplyEntry) (n : NotedTill) (s : State) : State :=
  match stackCheck e.msg.tillRef false (s.till n.till).stack with
  | .notFound => decline l e .notFound none s
  | .outOfOrder => decline l e .outOfOrder none s
  | .found x => bindTo l e (.entry x) s (reverseEntry l n x)

/-- REVERSE (R61, R75 to R78). -/
def execReverse (l : Fin 8) (s : State) : Result :=
  .next (takeOff l.val (fun k => decide (k = .reverse)) s (fun e n s =>
    moneyChecks l.val e n (tillRefOk e.msg) true 0 s (reverseFrom l.val e n)))

/-! ### HOLD, COMPLETE, RELEASE -/

/-- R85, checks 6 to 8. -/
def holdFrom (l : Nat) (e : ReplyEntry) (n : NotedTill) (s : State) : State :=
  match n.site with
  | none => unexpected l e s
  | some site =>
    if (s.holdByKey site e.msg.holdRef).isSome then decline l e .duplicate none s else withCardProgram l e s

/-- HOLD (R85 to R87, R99). A training till's HOLD with a malformed card number is declined BAD-REQUEST with TRAINING (DESIGN CHOICE,
notes/assumptions/25). -/
def execHold (l : Fin 8) (s : State) : Result :=
  .next (takeOff l.val (fun k => decide (k = .hold)) s (fun e n s =>
    moneyChecks l.val e n (cardOk e.msg && partialOk e.msg && holdRefOk e.msg) (amountOk e.msg) (amountOf e.msg) s
      (holdFrom l.val e n)))

/-- R88, R92: the hold lookup, and the directory's decision for the hold's card. -/
def settleHold (l : Nat) (e : ReplyEntry) (n : NotedTill) (s : State) : State :=
  match n.site with
  | none => unexpected l e s
  | some site =>
    match s.holdByKey site e.msg.holdRef with
    | some h =>
      if h.state = .opened then bindTo l e (.hold h.id h.card) s (fun e => directoryDecision l e h.card)
      else decline l e .notFound none s
    | none => if s.noted site e.msg.holdRef then decline l e .tooLate none s else refer l e s

/-- COMPLETE (R88 to R91, R94). -/
def execComplete (l : Fin 8) (s : State) : Result :=
  .next (takeOff l.val (fun k => decide (k = .complete)) s (fun e n s =>
    moneyChecks l.val e n (holdRefOk e.msg && tillRefOk e.msg) (amountOk e.msg) (amountOf e.msg) s (settleHold l.val e n)))

/-- RELEASE (R92 to R94). -/
def execRelease (l : Fin 8) (s : State) : Result :=
  .next (takeOff l.val (fun k => decide (k = .release)) s (fun e n s =>
    moneyChecks l.val e n (holdRefOk e.msg) true 0 s (settleHold l.val e n)))

/-! ### OPEN-TILL, CLOSE-TILL (R149, R150, R152) -/

/-- R148: 65,535 is followed by 0. -/
def nextShift (n : Nat) : Nat := (n + 1) % 65536

/-- R149, R150: what a reply reports of a till, for the shift number it names first. -/
def reportOf (shift : Nat) (t : Till) : ShiftReport :=
  ⟨shift, t.shift, t.debitTotal, t.creditTotal, t.debitCount, t.creditCount, t.overflow⟩

/-- R149: a till record after an approved OPEN-TILL. -/
def Till.opened (t : Till) : Till :=
  { t with isOpen := true, shift := nextShift t.shift, debitTotal := 0, creditTotal := 0, debitCount := 0, creditCount := 0,
           overflow := false }

/-- R150: a till record after an approved CLOSE-TILL. -/
def Till.closed (t : Till) : Till := { t with isOpen := false, stack := [] }

/-- The APPROVED reply of an OPEN-TILL or CLOSE-TILL. -/
def shiftReply (m : TillMsg) (training : Bool) (r : ShiftReport) : TillReply := { blankReply m with training := training, report := r }

/-- R149. -/
def openTillAt (l : Nat) (e : ReplyEntry) (n : NotedTill) (s : State) : State :=
  let t := s.till n.till
  if t.isOpen then declineField l e (isTraining n.till) .alreadyOpen s
  else ready l e (shiftReply e.msg (isTraining n.till) (reportOf (nextShift t.shift) t)) none (s.setTill n.till t.opened)

/-- OPEN_TILL (R149, R152). -/
def execOpenTill (l : Fin 8) (s : State) : Result :=
  .next (takeOff l.val (fun k => decide (k = .openTill)) s (openTillAt l.val))

/-- R150. -/
def closeTillAt (l : Nat) (e : ReplyEntry) (n : NotedTill) (s : State) : State :=
  let t := s.till n.till
  if t.isOpen then ready l e (shiftReply e.msg (isTraining n.till) (reportOf t.shift t)) none (s.setTill n.till t.closed)
  else declineField l e (isTraining n.till) .tillClosed s

/-- CLOSE_TILL (R150, R152). -/
def execCloseTill (l : Fin 8) (s : State) : Result :=
  .next (takeOff l.val (fun k => decide (k = .closeTill)) s (closeTillAt l.val))

/-- UNKNOWN_TILL_KIND (R162). -/
def execUnknownTillKind (l : Fin 8) (s : State) : Result :=
  .next (takeOff l.val isUnknown s (fun e n s => declineField l.val e (isTraining n.till) .badRequest s))

end Sys2Proof.Machine
end

