-- ==== Sys2Proof/Machine/TimedEvents.lean ====
section
/-! DEFINITION. Timers that run out, the clock's events, and the alteration of stored content (spec 06 R105, R107, R113, R117; spec 05
R95; spec 10 R172, R175; spec 01 R2). -/

namespace Sys2Proof.Machine

/-- FETCH_ANSWER_TIMEOUT (R105, R113). -/
def execFetchAnswerTimeout (tag : Fin 256) (s : State) : Result :=
  .next (match (s.request tag.val).bind HostEntry.fetch? with
    | some f => if f.sent then (fetchTimedOut tag.val f s).settle else s
    | none => s)

/-- FETCH_GATE_TIMEOUT (R107, R113). -/
def execFetchGateTimeout (tag : Fin 256) (s : State) : Result :=
  .next (match (s.request tag.val).bind HostEntry.fetch? with
    | some f => if f.sent then s else (fetchTimedOut tag.val f s).settle
    | none => s)

/-- REFERRAL_TIMEOUT (R117). -/
def execReferralTimeout (tag : Fin 256) (s : State) : Result :=
  .next (match s.request tag.val with
    | some ⟨_, _, _, .referral r⟩ => referralTimedOut tag.val r s
    | _ => s)

/-- HOLD_EXPIRY (R95, R172): time passes until the clock reaches the instant of an OPEN hold, and the timers with it (R176). The clock
never reaches an instant beyond its last reading. -/
def execHoldExpiry (site : Fin 512) (ref : Word32) (s : State) : Result :=
  .next (match s.holdByKey site.val ref with
    | some h =>
      if h.state = .opened ∧ s.clock.notSet = false ∧ h.expiry.le lastReading = true then (s.runUntil h.expiry).settle else s
    | none => s)

/-- DAY_ROLLOVER (R172, R175): time passes until the clock reaches the next cutover, and the timers with it (R176). None comes after
business date 65,535. -/
def execDayRollover (s : State) : Result :=
  .next (if s.clock.notSet ∨ Config.lastDay ≤ s.date then s else (s.runUntil s.clock.nextCutover).settle)

/-- R2: the record of a VALID way after its stored content is altered. -/
def alteredRecord (x : AlteredContent) : CardRecord := ⟨x.data, x.unposted, x.check⟩

/-- R2: the state of a way after its stored content is altered so that it no longer matches its check code. -/
def alterWay (x : AlteredContent) (no : Nat) (w : Way) : Way :=
  match w.st with
  | .valid _ stay => if w.no = no ∧ (alteredRecord x).verifies = false then { w with st := .valid (alteredRecord x) stay } else w
  | _ => w

/-- STORED_CONTENT_ALTERED (R2). An alteration that leaves the content matching its check code is none (notes/assumptions/4). -/
def execStoredContentAltered (set : Fin 16384) (way : Fin 4) (content : AlteredContent) (s : State) : Result :=
  .next (s.setDirSet set.val ⟨(s.dirSet set.val).ways.map (alterWay content way.val)⟩)

end Sys2Proof.Machine
end

