-- ==== Sys2Proof/Machine/Dispatch.lean ====
section
/-! DEFINITION. The dispatch: one direct call of a meaning for each row of spec/opcode_table.json. -/

namespace Sys2Proof.Machine

def exec (i : Instr) (s : State) : Host.Outcome State Fault Refusal :=
  match i with
  | .powerOnReset => Sys2Proof.Machine.execPowerOnReset s
  | .resetEngine f => Sys2Proof.Machine.execResetEngine f s
  | .start f => Sys2Proof.Machine.execStart f s
  | .setLimits f => Sys2Proof.Machine.execSetLimits f s
  | .timeSet f => Sys2Proof.Machine.execTimeSet f s
  | .programSet f => Sys2Proof.Machine.execProgramSet f s
  | .programActivate f => Sys2Proof.Machine.execProgramActivate f s
  | .programDeactivate f => Sys2Proof.Machine.execProgramDeactivate f s
  | .programLock f => Sys2Proof.Machine.execProgramLock f s
  | .rangeProbe f => Sys2Proof.Machine.execRangeProbe f s
  | .passRangeSet f => Sys2Proof.Machine.execPassRangeSet f s
  | .directoryMode f => Sys2Proof.Machine.execDirectoryMode f s
  | .cardEvict f => Sys2Proof.Machine.execCardEvict f s
  | .cardAdjustLoad f => Sys2Proof.Machine.execCardAdjustLoad f s
  | .cardAdjustUnload f => Sys2Proof.Machine.execCardAdjustUnload f s
  | .cardAdjustSetBonus f => Sys2Proof.Machine.execCardAdjustSetBonus f s
  | .cardAdjustBlock f => Sys2Proof.Machine.execCardAdjustBlock f s
  | .cardAdjustUnblock f => Sys2Proof.Machine.execCardAdjustUnblock f s
  | .directoryReadSummary f => Sys2Proof.Machine.execDirectoryReadSummary f s
  | .directoryReadCard f => Sys2Proof.Machine.execDirectoryReadCard f s
  | .directoryReadSet f => Sys2Proof.Machine.execDirectoryReadSet f s
  | .readFault f => Sys2Proof.Machine.execReadFault f s
  | .siteSet f => Sys2Proof.Machine.execSiteSet f s
  | .sliceAssign f => Sys2Proof.Machine.execSliceAssign f s
  | .windowSet f => Sys2Proof.Machine.execWindowSet f s
  | .linkControlEnable f => Sys2Proof.Machine.execLinkControlEnable f s
  | .linkControlDisable f => Sys2Proof.Machine.execLinkControlDisable f s
  | .linkControlReset f => Sys2Proof.Machine.execLinkControlReset f s
  | .linkControlSetExpectedIdentity f => Sys2Proof.Machine.execLinkControlSetExpectedIdentity f s
  | .setNotices f => Sys2Proof.Machine.execSetNotices f s
  | .readEvents f => Sys2Proof.Machine.execReadEvents f s
  | .readCounters f => Sys2Proof.Machine.execReadCounters f s
  | .readStatus f => Sys2Proof.Machine.execReadStatus f s
  | .unknownCommand f => Sys2Proof.Machine.execUnknownCommand f s
  | .cardData f => Sys2Proof.Machine.execCardData f s
  | .noSuchCard f => Sys2Proof.Machine.execNoSuchCard f s
  | .referralAnswer f => Sys2Proof.Machine.execReferralAnswer f s
  | .posted f => Sys2Proof.Machine.execPosted f s
  | .journalSend => Sys2Proof.Machine.execJournalSend s
  | .linkHello link f => Sys2Proof.Machine.execLinkHello link f s
  | .presence link f => Sys2Proof.Machine.execPresence link f s
  | .tillMessageArrival link f => Sys2Proof.Machine.execTillMessageArrival link f s
  | .presenceTimeout link => Sys2Proof.Machine.execPresenceTimeout link s
  | .openTill link => Sys2Proof.Machine.execOpenTill link s
  | .closeTill link => Sys2Proof.Machine.execCloseTill link s
  | .enquiry link => Sys2Proof.Machine.execEnquiry link s
  | .redeem link => Sys2Proof.Machine.execRedeem link s
  | .hold link => Sys2Proof.Machine.execHold link s
  | .complete link => Sys2Proof.Machine.execComplete link s
  | .release link => Sys2Proof.Machine.execRelease link s
  | .reverse link => Sys2Proof.Machine.execReverse link s
  | .reload link => Sys2Proof.Machine.execReload link s
  | .unknownTillKind link => Sys2Proof.Machine.execUnknownTillKind link s
  | .delivery link => Sys2Proof.Machine.execDelivery link s
  | .fetchAnswerTimeout tag => Sys2Proof.Machine.execFetchAnswerTimeout tag s
  | .fetchGateTimeout tag => Sys2Proof.Machine.execFetchGateTimeout tag s
  | .referralTimeout tag => Sys2Proof.Machine.execReferralTimeout tag s
  | .gateTimeout link sequence => Sys2Proof.Machine.execGateTimeout link sequence s
  | .holdExpiry site ref => Sys2Proof.Machine.execHoldExpiry site ref s
  | .dayRollover => Sys2Proof.Machine.execDayRollover s
  | .storedContentAltered set way content => Sys2Proof.Machine.execStoredContentAltered set way content s
  | .serviceMessageTransmitted => Sys2Proof.Machine.execServiceMessageTransmitted s

end Sys2Proof.Machine
end

