-- ==== Sys2Proof/Machine/Step.lean ====
section
/-! DEFINITION. One step: the command at the front of the queue, or one millisecond of idling when none waits. -/

namespace Sys2Proof.Machine

/-- One step (DESIGN CHOICE, notes/assumptions/1 and 2): the command at the front of the queue is taken against the part with the rest of
the queue; on an empty queue one millisecond passes. -/
def step (s : State) : Host.Outcome State Fault Refusal :=
  match s.pending with
  | c :: rest => exec c { s with pending := rest }
  | [] => .next s.tick

/-- The part with the command that a table word spells at the front of its queue; unchanged where the word spells none, as every word does
(notes/assumptions/1). -/
def State.withFetchWord (s : State) (nbits w : Nat) : State :=
  match decodeTableWord nbits w with
  | some c => { s with pending := c :: s.pending }
  | none => s

/-- Bytes arrive on the service link: the commands that their frames spell join the queue (R178, R190, R192). The bytes behind the last
whole frame are left for the bytes to come. -/
def State.receiveService (s : State) (stream : List Byte) : State × List Byte :=
  ({ s with pending := s.pending ++ (serviceCommands stream).1 }, (serviceCommands stream).2)

/-- Bytes arrive on a site link (R157, R190, R191). -/
def State.receiveSite (s : State) (l : Fin 8) (stream : List Byte) : State × List Byte :=
  ({ s with pending := s.pending ++ (siteMessages l stream).1 }, (siteMessages l stream).2)

end Sys2Proof.Machine
end

