-- ==== Sys2Proof/Safety.lean ====
section
/-! DEFINITION. What holds of the part in every run: the whole-machine rules of the spec as invariants, and the words that the
statements about commands use. -/

namespace Sys2Proof.Machine

/-! ### Invariants -/

/-- Every sparse table is in its canonical form, so that equal tables are equal data. -/
def TablesCanonical (s : State) : Prop :=
  s.programs.wf Program.default = true ∧ s.passRanges.wf ⟨0, 0⟩ = true ∧ s.dir.wf DirSet.default = true ∧
  s.generations.wf 0 = true ∧ s.requests.wf none = true ∧ s.exposures.wf Exposure.none = true ∧ s.siteIds.wf 0 = true ∧
  s.siteHolds.wf 0 = true ∧ s.slices.wf none = true ∧ s.tills.wf Till.default = true ∧ s.links.wf Link.default = true

/-- R180: in STANDBY every link is DISABLED. -/
def StandbyLinksDisabled (s : State) : Prop := s.part = .standby → ∀ l ∈ linkNumbers, (s.link l).state = .disabled

/-- R155, R156, R160: a link that is not UP has empty queues, no session and no running presence timer; an UP link has all of a session;
neither queue passes 32. -/
def Link.inOrder (x : Link) : Prop :=
  (x.state ≠ .up → x.inbound = [] ∧ x.replies = [] ∧ x.session = none ∧ x.lanes = none ∧ x.presenceLimit = none ∧
    x.presenceTimer = none) ∧
  (x.state = .up → x.session.isSome = true ∧ x.lanes.isSome = true ∧ x.presenceLimit.isSome = true ∧ x.presenceTimer.isSome = true) ∧
  x.inbound.length ≤ Config.inboundMessages ∧ x.replies.length ≤ Config.replyEntries

/-- The entries of a reply queue have slot numbers of their own, all given before (the model's numbers, notes/assumptions/5). -/
def State.slotsInOrder (s : State) (l : Nat) : Prop :=
  ((s.link l).replies.map (fun e => e.slot)).Nodup ∧ ∀ e ∈ (s.link l).replies, e.slot < s.nextSlot

def LinksInOrder (s : State) : Prop := ∀ l, (s.link l).inOrder ∧ s.slotsInOrder l

/-- R148, R72: a CLOSED till's stack is empty, a stack has at most 4 entries, no total or count passes its top. -/
def Till.inOrder (t : Till) : Prop :=
  (t.isOpen = false → t.stack = []) ∧ t.stack.length ≤ Config.stackEntries ∧ t.debitTotal ≤ Config.totalTop ∧
  t.creditTotal ≤ Config.totalTop ∧ t.debitCount ≤ Config.counterTop ∧ t.creditCount ≤ Config.counterTop ∧ t.shift ≤ 65535

def TillsInOrder (s : State) : Prop := ∀ n, (s.till n).inOrder

/-- R27: every limit of a program lies in its range. -/
def ProgramLimits.inRange (x : ProgramLimits) : Prop :=
  100 ≤ x.maximumBalance ∧ x.maximumBalance ≤ 4999999 ∧ 15 ≤ x.holdLifetime ∧ x.holdLifetime ≤ 4320 ∧ x.tipTolerance ≤ 50 ∧
  x.bonusCap ≤ 100 ∧ x.dailyUseLimit ≤ 255 ∧ x.standInLimit ≤ 50000

/-- R27, R28, R34, R38: limits and ranges in their ranges; a locked program is ACTIVE; an ACTIVE program's range is not empty. -/
def Program.inOrder (p : Program) : Prop :=
  p.limits.inRange ∧ p.range.first + p.range.count ≤ Config.cardNumbers ∧ (p.locked = true → p.state = .active) ∧
  (p.state = .active → 0 < p.range.count)

def ProgramsInOrder (s : State) : Prop := ∀ n, (s.program n).inOrder

/-- R34: the ranges of any two ACTIVE programs do not overlap. -/
def ActiveProgramsApart (s : State) : Prop :=
  ∀ m n, m < Config.programs → n < Config.programs → m ≠ n → (s.program m).state = .active → (s.program n).state = .active →
    (s.program m).range.overlaps (s.program n).range = false

/-- R144: no two site records hold the same non-zero identity. -/
def SitesDistinct (s : State) : Prop := ∀ i j, i ≠ j → s.siteId i ≠ 0 → s.siteId i ≠ s.siteId j

/-- R143: the commissioning slices are unassigned. -/
def CommissioningUnassigned (s : State) : Prop := s.slice 0 = none ∧ s.slice 1 = none

/-- R183: the three limits lie in their bounds. -/
def LimitsInBounds (s : State) : Prop :=
  50 ≤ s.limits.hostAnswer ∧ s.limits.hostAnswer ≤ 2000 ∧ 200 ≤ s.limits.gate ∧ s.limits.gate ≤ 5000 ∧
  1000 ≤ s.limits.presence ∧ s.limits.presence ≤ 10000

/-- R170, R81: the clock's items and the instants of the holds are readings. -/
def TimesValid (s : State) : Prop :=
  s.clock.reading.day ≤ Config.lastDay ∧ s.clock.reading.time < Config.dayMs ∧ s.clock.cutover ≤ 23 ∧
  ∀ h ∈ s.holds, h.expiry.time < Config.dayMs

/-- R123: each sequence is followed by the next one. -/
def successive : List Nat → Prop
  | a :: b :: t => b = nextSequence a ∧ successive (b :: t)
  | _ => True

/-- R123: the records in the queue have consecutive sequence numbers, oldest first, and the next sequence follows the newest. -/
def JournalInOrder (s : State) : Prop :=
  successive (s.journal.records.map (fun r => r.sequence) ++ [s.journal.nextSeq]) ∧ 1 ≤ s.journal.nextSeq ∧
  s.journal.nextSeq ≤ Config.lastSequence

/-- R60: no card's exposure passes 50,000. -/
def ExposuresBounded (s : State) : Prop := ∀ card, (s.exposure card).amount ≤ 50000

/-- R3: a set has its four ways, and a card stands in one way at most, of its own set. -/
def DirSet.inOrder (n : Nat) (d : DirSet) : Prop :=
  (d.ways.map (fun w => w.no)).Perm [0, 1, 2, 3] ∧ (d.ways.filterMap (fun w => w.st.card)).Nodup ∧
  ∀ w ∈ d.ways, ∀ card ∈ w.st.card, setOf card = n

/-- R3, R101: a FETCH entry and the way it has reserved. -/
def State.reservedFor (s : State) (f : Fetch) : Prop :=
  f.set = setOf f.card ∧ s.findWay f.card = some ⟨f.way, .reserved f.card⟩

/-- The FETCH entry of a tag. -/
def State.fetchAt (s : State) (tag : Nat) : Option Fetch := (s.request tag).bind HostEntry.fetch?

/-- R3, R101: every set is in order, every FETCH entry has its RESERVED way, every RESERVED way its FETCH entry, and no two FETCH entries
are for one card. -/
def DirectoryInOrder (s : State) : Prop :=
  (∀ n, (s.dirSet n).inOrder n) ∧ (∀ tag f, s.fetchAt tag = some f → s.reservedFor f) ∧
  (∀ card no, s.findWay card = some ⟨no, .reserved card⟩ → ∃ tag f, s.fetchAt tag = some f ∧ f.card = card) ∧
  ∀ a b f g, s.fetchAt a = some f → s.fetchAt b = some g → f.card = g.card → a = b

/-- R81, R82, R84: hold numbers and keys are not shared, the site counts are those of the live holds, the three limits hold, and no note
shares its key with another note or a live hold. -/
def HoldsInOrder (s : State) : Prop :=
  (s.holds.map (fun h => h.id)).Nodup ∧ (∀ h ∈ s.holds, h.id < s.nextHold) ∧
  (s.holds.map (fun h => (h.site, h.ref))).Nodup ∧
  (∀ site, s.siteHoldCount site = (s.holds.filter (fun h => decide (h.site = site))).length) ∧
  (∀ site, s.siteHoldCount site ≤ Config.holdsPerSite) ∧ (∀ card, (s.holdsOf card).length ≤ Config.holdsPerCard) ∧
  s.holds.length ≤ Config.holds ∧ s.notes.length ≤ Config.notes ∧ (s.notes.map (fun n => (n.site, n.ref))).Nodup ∧
  ∀ n ∈ s.notes, s.holdByKey n.site n.ref = none

/-- Where a request waits (R101, R110): the wait list of a FETCH entry, or a REFERRAL entry that is not abandoned. -/
def HostEntry.waiting (x : HostEntry) : List Waiter :=
  match x.kind with
  | .fetch f => f.waiters
  | .referral r => if r.abandoned then [] else [⟨r.link, r.slot⟩]

/-- Every request that waits on the host. -/
def State.waiting (s : State) : List Waiter := s.requests.cells.flatMap (fun c => (c.2.map HostEntry.waiting).getD [])

/-- R110, R118, R163: a request waits in one place, and its reply queue entry is RESERVED. -/
def WaitersInOrder (s : State) : Prop :=
  s.waiting.Nodup ∧ ∀ w ∈ s.waiting, w.link < Config.links ∧ ∃ e, s.entry w.link w.slot = some e ∧ e.state = .reserved

/-- R86, R126, R132: the undo records of the reply queues hold the reserved slots, one each but for a HOLD's, which has none. -/
def SlotsInOrder (s : State) : Prop :=
  s.journal.reserved = (s.undoRecords.filter (fun u => u.sequence.isSome)).length ∧
  ∀ u ∈ s.undoRecords, u.sequence = none ↔ ∃ id, u.effect = .hold id

/-- R123, R126: the records and the reserved slots keep within the queue's 4,096 places. -/
def JournalWithinBounds (s : State) : Prop := s.journal.records.length + s.journal.reserved ≤ Config.journalRecords

/-- R5, R106, R109: a resident record that matches its check code counts the records of the queue that name its card, and no record names
the card of a SENT fetch. -/
def UnpostedCounted (s : State) : Prop :=
  (∀ card r stay, s.recordOf card = some (r, stay) → r.verifies = true →
    r.unposted = (s.journal.records.filter (fun x => decide (x.card = card))).length) ∧
  ∀ tag f, s.fetchAt tag = some f → f.sent = true → s.names f.card = false

/-! ### Words of the statements about commands -/

/-- The rows that arrive as a command's frame on the service link, each with the frame `f` and the kind it has there (R190). -/
def commandRows (f : ∀ α : Type, HostFrame α) : List (Instr × Word16) :=
  [(.resetEngine (f _), 257#16), (.start (f _), 256#16), (.setLimits (f _), 258#16), (.timeSet (f _), 259#16), (.programSet (f _), 260#16),
   (.programActivate (f _), 261#16), (.programDeactivate (f _), 262#16), (.programLock (f _), 263#16), (.rangeProbe (f _), 264#16),
   (.passRangeSet (f _), 265#16), (.directoryMode (f _), 266#16), (.cardEvict (f _), 267#16), (.cardAdjustLoad (f _), 268#16),
   (.cardAdjustUnload (f _), 268#16), (.cardAdjustSetBonus (f _), 268#16), (.cardAdjustBlock (f _), 268#16),
   (.cardAdjustUnblock (f _), 268#16), (.directoryReadSummary (f _), 269#16), (.directoryReadCard (f _), 269#16),
   (.directoryReadSet (f _), 269#16), (.readFault (f _), 270#16), (.siteSet (f _), 271#16), (.sliceAssign (f _), 272#16),
   (.windowSet (f _), 273#16), (.linkControlEnable (f _), 274#16), (.linkControlDisable (f _), 274#16), (.linkControlReset (f _), 274#16),
   (.linkControlSetExpectedIdentity (f _), 274#16), (.setNotices (f _), 275#16), (.readEvents (f _), 276#16), (.readCounters (f _), 277#16),
   (.readStatus (f _), 278#16)]

/-- R79: the entry is that of a REVERSE that has not ended, and that holds the mark of the stack entry of this till and number. -/
def ReplyEntry.holdsMark (e : ReplyEntry) (till id : Nat) : Bool :=
  !e.ended && match e.bound, e.noted with
    | .entry x, some n => decide (x.id = id) && decide (n.till = till)
    | _, _ => false

/-- The row of spec/opcode_table.json that takes off a till message of a kind. -/
def takeOffOf : TillKind → Fin 8 → Instr
  | .openTill => .openTill
  | .closeTill => .closeTill
  | .enquiry => .enquiry
  | .redeem => .redeem
  | .hold => .hold
  | .complete => .complete
  | .release => .release
  | .reverse => .reverse
  | .reload => .reload
  | .unknown _ => .unknownTillKind

/-- R61, R85, R88, R92, R190, R191: the fields that a money request of the message's kind reads are well formed and its references are not
0. OPEN-TILL, CLOSE-TILL and an unknown kind are no money requests. -/
def fieldsGood (m : TillMsg) : Prop :=
  match m.kind with
  | .enquiry => (cardOfBcd m.card).isSome = true
  | .redeem => (cardOfBcd m.card).isSome = true ∧ (m.allowPartial = 0#8 ∨ m.allowPartial = 1#8) ∧ m.tillRef ≠ 0#32
  | .reload => (cardOfBcd m.card).isSome = true ∧ m.tillRef ≠ 0#32
  | .reverse => m.tillRef ≠ 0#32
  | .hold => (cardOfBcd m.card).isSome = true ∧ (m.allowPartial = 0#8 ∨ m.allowPartial = 1#8) ∧ m.holdRef ≠ 0#32
  | .complete => m.holdRef ≠ 0#32 ∧ m.tillRef ≠ 0#32
  | .release => m.holdRef ≠ 0#32
  | .openTill => False
  | .closeTill => False
  | .unknown _ => False

/-- The kinds that read an amount (R191). -/
def readsAmount (m : TillMsg) : Prop := m.kind = .redeem ∨ m.kind = .hold ∨ m.kind = .reload ∨ m.kind = .complete

/-- R162: `m` is the message that the next take-off of link `l` takes, with `rest` behind it. The slot number it will have is new. -/
structure State.Taking (s : State) (l : Fin 8) (m : TillMsg) (rest : List TillMsg) : Prop where
  up : (s.link l).state = .up
  front : (s.link l).inbound = m :: rest
  room : (s.link l).replies.length < 32
  fresh : ∀ e ∈ (s.link l).replies, e.slot < s.nextSlot

/-- R140, R141, R61: the message reaches an ordinary till that is OPEN. -/
structure State.Trading (s : State) (l : Fin 8) (m : TillMsg) (rest : List TillMsg) (n : NotedTill) : Prop extends
    s.Taking l m rest where
  mapped : s.resolve l m.lane.toNat = some n
  ordinary : 16 ≤ n.till
  opened : (s.till n.till).isOpen = true

/-- R162: link `l` once the message at its front has been taken off and its reply queue entry stands as `st`. -/
def State.takenLink (s : State) (l : Nat) (m : TillMsg) (rest : List TillMsg) (noted : Option NotedTill) (b : Binding)
    (st : ReplyState) : Link :=
  { s.link l with
    inbound := rest
    replies := (s.link l).replies ++ [{ slot := s.nextSlot, msg := m, noted := noted, bound := b, nextEntry := s.nextEntry, state := st }] }

/-- R124, R140: the till fields of a record made for request `m` of till `n`. -/
def State.tillFields (s : State) (n : NotedTill) (m : TillMsg) : Origin :=
  ⟨match n.site with
    | some i => s.siteId i
    | none => 0, n.till, m.tillRef⟩

/-- R7, R11: in NORMAL or FROZEN, a lookup of the card is a hit on the record `r` of stay `stay`, in a set in order, and no FETCH entry is
for the card (as `DirectoryInOrder` says of every VALID way). -/
structure State.Found (s : State) (card : Nat) (r : CardRecord) (stay : Nat) : Prop where
  mode : s.dirMode = .normal ∨ s.dirMode = .frozen
  record : s.recordOf card = some (r, stay)
  verified : r.verifies = true
  apart : (s.dirSet (setOf card)).inOrder (setOf card)
  unfetched : s.fetchFor card = none

/-- R6, R7: a request for the card is a hit: its card lies in no pass-through range, and the lookup finds it. -/
structure State.Hit (s : State) (card : Nat) (r : CardRecord) (stay : Nat) : Prop extends s.Found card r stay where
  direct : s.passThrough card = false

/-- R27, R28, R190, R192: every field of a PROGRAM-SET is well formed and in its range; `first` and `g` are what two of them say. -/
structure GoodProgram (x : ProgramFields) (first : Nat) (g : Gating) : Prop where
  card : cardOfBcd x.first = some first
  range : first + x.count.toNat ≤ 10000000000000000
  maximum : 100 ≤ x.maximumBalance.toNat ∧ x.maximumBalance.toNat ≤ 4999999
  lifetime : 15 ≤ x.holdLifetime.toNat ∧ x.holdLifetime.toNat ≤ 4320
  tip : x.tipTolerance.toNat ≤ 50
  cap : x.bonusCap.toNat ≤ 100
  standIn : x.standInLimit.toNat ≤ 50000
  gating : gatingOf x.gating = some g

/-- R20: the common tests of CARD-ADJUST pass and the card's record verifies, in a set in order, with no FETCH entry for the card. -/
structure State.Adjustable (s : State) (card : Nat) (r : CardRecord) (stay : Nat) : Prop where
  mode : s.dirMode = .warming ∨ s.dirMode = .normal ∨ s.dirMode = .frozen
  confirmed : s.unconfirmed card = false
  record : s.recordOf card = some (r, stay)
  verified : r.verifies = true
  apart : (s.dirSet (setOf card)).inOrder (setOf card)
  unfetched : s.fetchFor card = none

/-- R58: no bonus of the record is due to be forfeited. -/
def State.NothingToForfeit (s : State) (r : CardRecord) : Prop :=
  inDate r.data s.date = true ∨ r.data.bonus ≤ s.heldBonus r.data.card

/-- R4: the card's way stands at the most recently used place of its set. -/
def State.mostRecent (s : State) (card : Nat) : Prop :=
  ((s.dirSet (setOf card)).ways.getLast?.bind (fun w => w.st.card)) = some card

/-- The records of all cards but one are as they were. -/
def State.otherCards (s t : State) (card : Nat) : Prop := ∀ c, c ≠ card → t.recordOf c = s.recordOf c

/-- All sets but one are as they were. -/
def State.otherSets (s t : State) (n : Nat) : Prop := ∀ m, m ≠ n → t.dirSet m = s.dirSet m

/-- All links but one are as they were. -/
def State.otherLinks (s t : State) (l : Nat) : Prop := ∀ k, k ≠ l → t.link k = s.link k

/-- R79: the tills of `t` are those of `s`, with the mark of the stack entry that a REVERSE of till `n` is bound to set or cleared. -/
def State.marked (s t : State) (n : NotedTill) (b : Binding) (reversing : Bool) : Prop :=
  ∀ k, t.till k = match b with
    | .entry x => if k = n.till then
        { s.till k with stack := (s.till k).stack.map (fun y => if y.id = x.id then { y with reversing := reversing } else y) }
      else s.till k
    | _ => s.till k

/-- R162: the request at the front of link `l` has been taken off, and its reply queue entry, bound as `b`, stands as `st`. -/
def State.takenOff (s t : State) (l : Nat) (m : TillMsg) (rest : List TillMsg) (n : NotedTill) (b : Binding) (st : ReplyState) : Prop :=
  s.otherLinks t l ∧ t.link l = s.takenLink l m rest (some n) b st

/-- R61, R62, R79: the take-off of the request at the front of link `l` declines it with no free balance figure, a REVERSE's mark is
clear, and nothing else changes. `State.settle` ends a flush that has nothing left to wait for, and is the identity in every other state.
-/
def State.declines (s : State) (l : Fin 8) (m : TillMsg) (rest : List TillMsg) (n : NotedTill) (b : Binding) (reason : Reason) : Prop :=
  ∃ u : State, exec (takeOffOf m.kind l) s = .next u.settle ∧ (s.dirMode.isFlushing = false → u.settle = u) ∧
    u = { s with links := u.links, tills := u.tills, nextSlot := s.nextSlot + 1 } ∧ s.marked u n b false ∧
    s.takenOff u l m rest n b (.ready (declinedReply m reason none) none none)

/-- R45, R62, R44, R4: the request at the front of link `l` is evaluated against the record `r` of stay `stay` and declined with the
card's free balance figure. The card's way is the most recently used of its set, a REVERSE's mark is clear, and nothing else changes. -/
def State.declinesAgainst (s : State) (l : Fin 8) (m : TillMsg) (rest : List TillMsg) (n : NotedTill) (b : Binding) (card : Nat)
    (r : CardRecord) (stay : Nat) (reason : Reason) : Prop :=
  ∃ t : State, exec (takeOffOf m.kind l) s = .next t ∧
    t = { s with dir := t.dir, links := t.links, tills := t.tills, nextSlot := s.nextSlot + 1 } ∧ s.marked t n b false ∧
    s.otherSets t (setOf card) ∧ s.otherCards t card ∧ t.mostRecent card ∧ t.recordOf card = some (r, stay) ∧
    s.takenOff t l m rest n b (.ready (declinedReply m reason (some (s.freeBonus r.data + s.freeCore r.data))) none none)

/-- R110, R111, R45, R62, R44: the request of the entry `e`, which waited for the fetch of the card, is evaluated against the installed
record and declined with the card's free balance figure. Nothing else changes but the order of the card's set. -/
def State.declinesWaiting (s : State) (l : Nat) (e : ReplyEntry) (card : Nat) (r : CardRecord) (stay : Nat) (reason : Reason) : Prop :=
  ∃ t : State, serveInstalled card l e s = t ∧ t = { s with dir := t.dir, links := t.links } ∧ s.otherLinks t l ∧
    s.otherSets t (setOf card) ∧ s.otherCards t card ∧ t.mostRecent card ∧ t.recordOf card = some (r, stay) ∧
    t.link l = { s.link l with replies := (s.link l).replies.map (fun y => if y.slot = e.slot
      then { y with state := .ready (declinedReply e.msg reason (some (s.freeBonus r.data + s.freeCore r.data))) none none } else y) }

/-- R102: the tag that the next entry of the Host Request Table is made in. -/
def State.lowestFree (s : State) (tag : Nat) : Prop :=
  tag < 256 ∧ s.request tag = none ∧ ∀ k, k < tag → (s.request k).isSome = true

/-- R102: an entry has been made in a tag, under the generation that follows the tag's last. -/
def State.entered (s t : State) (tag timer : Nat) (kind : HostKind) : Prop :=
  t.generation tag = (s.generation tag + 1) % 65536 ∧
  t.request tag = some { gen := (s.generation tag + 1) % 65536, oldGens := [], timer := timer, kind := kind } ∧
  ∀ k, k ≠ tag → t.request k = s.request k ∧ t.generation k = s.generation k

/-- R115, R102, R77: the take-off of the request at the front of link `l` refers it to the host in the lowest free tag, with what
completes a REVERSE, or declines it BUSY when no tag is free. -/
def State.refers (s : State) (l : Fin 8) (m : TillMsg) (rest : List TillMsg) (n : NotedTill) (b : Binding) : Prop :=
  (∀ tag, s.lowestFree tag → ∃ u : State, exec (takeOffOf m.kind l) s = .next u.settle ∧ (s.dirMode.isFlushing = false → u.settle = u) ∧
    u = { s with
      links := u.links, tills := u.tills, nextSlot := s.nextSlot + 1, requests := u.requests, generations := u.generations
      out := s.out ++ [.referral tag ((s.generation tag + 1) % 65536) m (match b with
        | .entry x => some { card := x.card, kind := x.kind, bonus := x.bonus, core := x.core, sequence := x.sequence }
        | _ => none) n.till ((n.site.map s.siteId).getD 0)] } ∧
    s.marked u n b true ∧ s.takenOff u l m rest n b .reserved ∧
    s.entered u tag s.limits.hostAnswer (.referral ⟨l, s.nextSlot, m, b, false⟩)) ∧
  ((∀ k, k < 256 → (s.request k).isSome = true) → s.declines l m rest n b .busy)

/-- R6, R61, R75, R85, R88, R92: the request at the front of link `l` passes its take-off checks and reaches the directory for the card,
bound as `b`: free with a card number of its own under a program, to the OPEN hold of its key, or to the stack entry of its reference. -/
structure State.Asks (s : State) (l : Fin 8) (m : TillMsg) (rest : List TillMsg) (n : NotedTill) (b : Binding) (card : Nat) : Prop extends
    s.Trading l m rest n where
  fields : fieldsGood m
  amount : readsAmount m → 1 ≤ m.amount.toNat ∧ m.amount.toNat ≤ 9999999
  bound : match m.kind with
    | .complete | .release =>
      ∃ site h, n.site = some site ∧ s.holdByKey site m.holdRef = some h ∧ h.state = .opened ∧ h.card = card ∧ b = .hold h.id card
    | .reverse => ∃ x, stackCheck m.tillRef false (s.till n.till).stack = .found x ∧ x.card = card ∧ b = .entry x
    | .hold => b = .free ∧ cardOfBcd m.card = some card ∧ (s.programOf card).isSome = true ∧
        ∃ site, n.site = some site ∧ s.holdByKey site m.holdRef = none
    | _ => b = .free ∧ cardOfBcd m.card = some card ∧ (s.programOf card).isSome = true

/-- R164: the reply of the entry `e` has been handed to link `l`, and the entry has left its queue. -/
def State.handedOver (s t : State) (l : Nat) (e : ReplyEntry) (reply : TillReply) : Prop :=
  s.otherLinks t l ∧ t.link l = { s.link l with
    sent := (s.link l).sent ++ [.tillReply reply], replies := (s.link l).replies.filter (fun y => decide (y.slot ≠ e.slot)) }

/-- R151: the delivery has made of the till `n` noted, when it is OPEN in the noted shift, what `f` says; every other till is as it was.
-/
def State.atNotedTill (s t : State) (n : NotedTill) (f : Till → Till) : Prop :=
  (∀ k, k ≠ n.till → t.till k = s.till k) ∧
  t.till n.till = if (s.till n.till).isOpen ∧ (s.till n.till).shift = n.shift then f (s.till n.till) else s.till n.till

/-- R151: a debit of `amount` at a till: its total and its count rise, saturating, and the flag tells of a rise not made in full. -/
def Till.debited (amount : Nat) (t : Till) : Till :=
  { t with
    debitTotal := min (t.debitTotal + amount) 4294967295, debitCount := min (t.debitCount + 1) 65535
    overflow := t.overflow || decide (4294967295 < t.debitTotal + amount) || decide (65535 < t.debitCount + 1) }

/-- R151: a credit of `amount` at a till. -/
def Till.credited (amount : Nat) (t : Till) : Till :=
  { t with
    creditTotal := min (t.creditTotal + amount) 4294967295, creditCount := min (t.creditCount + 1) 65535
    overflow := t.overflow || decide (4294967295 < t.creditTotal + amount) || decide (65535 < t.creditCount + 1) }

/-- R73, R79: a delivered debit's entry on the stack of a till, above the three that stay of four. -/
def Till.pushed (x : StackEntry) (t : Till) : Till := { t with stack := x :: t.stack.take 3 }

/-- R165, R166: link `l` has been emptied into the state `st`. The link's queues are empty and its session is gone; of the tills only the
marks of the link's own REVERSEs that had not ended are cleared. -/
def State.emptied (s t : State) (l : Nat) (st : LinkState) (enabled : Bool) : Prop :=
  t = { s with
    links := t.links, tills := t.tills, dir := t.dir, dirMode := t.dirMode, fault := t.fault, counters := t.counters
    events := t.events, journal := t.journal, holds := t.holds, notes := t.notes, siteHolds := t.siteHolds
    requests := t.requests, generations := t.generations, exposures := t.exposures, out := t.out } ∧
  s.otherLinks t l ∧
  (∀ n, t.till n = { s.till n with stack := (s.till n).stack.map (fun x =>
    if (s.link l).replies.any (fun e => e.holdsMark n x.id) then { x with reversing := false } else x) }) ∧
  t.link l = { s.link l with
    state := st, enabled := enabled, session := none, lanes := none, presenceLimit := none, presenceTimer := none, inbound := []
    replies := [] }

/-- R126, R128: the journal `j` after the record `r` joined as new business that holds an undo slot. -/
def Journal.withUndoable (j : Journal) (r : JournalRecord) : Journal :=
  { j with records := j.records ++ [r], nextSeq := nextSequence j.nextSeq, reserved := j.reserved + 1, refusing := false,
           highArmed := j.highArmed && decide (j.records.length ≠ Config.highMark) }

/-- R126, R138: the part after a failed admission test of new business for a request of this kind. The refusing condition is set, and
JOURNAL-FULL is raised when it was clear. -/
def State.full (s : State) (kind : Word16) : State :=
  if s.journal.refusing then s
  else
    { s with
      journal := { s.journal with refusing := true }
      events := { s.events with pending := s.events.pending ||| 128#16 }
      out := if s.events.enables.getLsbD 7 ∧ s.events.exceptional then
          s.out ++ [.notice .journalFull s.now (.journalFull kind s.journal.records.length s.journal.reserved)]
        else s.out }

/-- R133: the state of the entry of a reply whose request made a record of sequence `n`, under a program's reply gating. -/
def gatedBy (gating : Gating) (limit n : Nat) (reply : TillReply) (undo : UndoRecord) : ReplyState :=
  match gating with
  | .gated => .gated reply undo n limit
  | .early => .ready reply (some undo) none

/-- R29, R30: the reply gating of a card's program, EARLY for a card with none. -/
def State.gatingOf (s : State) (card : Nat) : Gating :=
  match s.programOf card with
  | some p => p.limits.gating
  | none => .early

/-! ### Undoing an effect (R56, R57) -/

/-- R56, R136: the bonus delta and the core delta "equal and opposite" to those of the effect's record. -/
def Effect.reversal : Effect → Int × Int
  | .redeem b c => ((b : Nat), (c : Nat))
  | .hold _ => (0, 0)
  | .capture _ b c x => ((b : Nat), (c + x : Nat))
  | .reload a => (0, -(a : Int))
  | .reverse b c => (-(b : Int), -(c : Int))
  | .standIn x _ => (0, (x : Nat))

/-- R56, R57, R47: the data of the card's record once the effect of `u` is undone on it, exactly in the stay of the effect and as far as
the record allows in another. -/
def State.undoneData (s : State) (u : UndoRecord) (stay : Nat) (d : CardData) : CardData :=
  let up (old amount : Nat) : Nat := if u.stay = some stay then old + amount else old + min amount (9999999 - old)
  let down (old held amount : Nat) : Nat := if u.stay = some stay then old else old - min amount (old - held)
  let uses : Nat := if d.stamp = s.date then d.uses - 1 else d.uses
  match u.effect with
  | .redeem b c => { d with bonus := up d.bonus b, core := up d.core c, uses := uses }
  | .hold _ => { d with uses := uses }
  | .capture _ b c x => { d with bonus := up d.bonus b, core := up d.core (c + x) }
  | .reload a => { d with core := down d.core (s.heldCore u.card) a }
  | .reverse b c => { d with bonus := down d.bonus (s.heldBonus u.card) b, core := down d.core (s.heldCore u.card) c }
  | .standIn x _ => { d with core := up d.core x }

/-- R56, R57, R136: the deltas of the UNDO record: the full reversal in the stay of the effect and for a card that is not resident, the
amounts added back or taken back in a later stay. -/
def State.undoneDeltas (s : State) (u : UndoRecord) : Int × Int :=
  match s.recordOf u.card with
  | none => u.effect.reversal
  | some (r, stay) =>
    if u.stay = some stay then u.effect.reversal
    else
      let d := s.undoneData u stay r.data
      ((d.bonus : Int) - r.data.bonus, (d.core : Int) - r.data.core)

/-- R124, R125, R136: the UNDO record of the effect of `u`, whose own record is `q`. -/
def State.undoRecord (s : State) (u : UndoRecord) (q : Nat) : JournalRecord :=
  { sequence := s.journal.nextSeq, kind := .undo, card := u.card, origin := u.origin, bonusDelta := (s.undoneDeltas u).1
    coreDelta := (s.undoneDeltas u).2, forfeited := none, undone := some q, date := s.date, instant := s.now }

/-- What the statements about undos ask of a state: the effect has a journal record, its card stands in a set in order, verifies where it
is resident and has at most one FETCH entry (R101); a stand-in approval was made in no stay and fits below the purse ceiling (of the
others notes/assumptions/26 speaks); the instant of a capture's hold has not passed (R90). -/
structure State.Undoable (s : State) (u : UndoRecord) : Prop where
  recorded : ∀ id, u.effect ≠ .hold id
  verified : ∀ r stay, s.recordOf u.card = some (r, stay) → r.verifies = true
  apart : (s.dirSet (setOf u.card)).inOrder (setOf u.card)
  fetched : ∀ a b f g, s.fetchAt a = some f → s.fetchAt b = some g → f.card = u.card → g.card = u.card → a = b
  standIn : ∀ x date, u.effect = .standIn x date →
    u.stay = none ∧ ∀ r stay, s.recordOf u.card = some (r, stay) → r.data.core + x ≤ 9999999
  capture : ∀ id b c x, u.effect = .capture id b c x → ∀ h ∈ s.holds, h.id = id → s.clock.notSet = true ∨ s.now.ms < h.expiry.ms

/-- R56, R57, R90, R121, R127, R128: what the undo of the effect of `u`, whose own record is `q`, makes of `s` in `t`. The card's record
is undone on and its unposted count rises; a CAPTURING hold is OPEN again with its captured parts; a stand-in approval of the business
date gives its exposure back; the UNDO record takes the reserved slot. R109: a SENT fetch of the card goes back to WAITING-POST under a
new generation, with its gate timer running. -/
structure State.Undone (s t : State) (u : UndoRecord) (q : Nat) : Prop where
  record : t.recordOf u.card =
    (s.recordOf u.card).map (fun x => (sealRecord (s.undoneData u x.2 x.1.data) (x.1.unposted + 1), x.2))
  others : s.otherCards t u.card
  sets : s.otherSets t (setOf u.card)
  order : ∀ n, (t.dirSet n).ways.map (fun w => w.no) = (s.dirSet n).ways.map (fun w => w.no)
  holds : t.holds = match u.effect with
    | .capture id b c _ => s.holds.map (fun h => if h.id = id then { h with bonus := b, core := c, state := .opened } else h)
    | _ => s.holds
  exposures : ∀ card, t.exposure card = match u.effect with
    | .standIn x date => if card = u.card ∧ s.date = date then ⟨(s.exposure card).amount - x, (s.exposure card).count - 1⟩
      else s.exposure card
    | _ => s.exposure card
  requests : ∀ tag, t.request tag = (s.request tag).map (fun x => match x.kind with
    | .fetch f => if f.card = u.card ∧ f.sent = true then
        { gen := (s.generation tag + 1) % 65536, oldGens := x.gen :: x.oldGens, timer := s.limits.gate
          kind := .fetch { f with sent := false } }
      else x
    | .referral _ => x)
  generations : ∀ tag, t.generation tag = match s.fetchAt tag with
    | some f => if f.card = u.card ∧ f.sent = true then (s.generation tag + 1) % 65536 else s.generation tag
    | none => s.generation tag
  journal : t.journal =
    { s.journal with
      records := s.journal.records ++ [s.undoRecord u q], nextSeq := nextSequence s.journal.nextSeq
      reserved := s.journal.reserved - 1
      highArmed := s.journal.highArmed && decide (s.journal.records.length ≠ 3072) }

end Sys2Proof.Machine
end

