-- ==== Sys2Proof/Certificates/Slice0/Obligations.lean ====
section
/-! DEFINITION. The statements about the part. Hypotheses name the state and the operands alone; a conclusion `exec i s = .next t` is
where the command completes, and what it says of `t` is the effect and the frame. -/

open Sys2Proof Sys2Proof.Machine

/-! ### The machine -/

/-- One step takes the command at the front of the queue, against the part with the rest of it (the model's queue, notes/assumptions/1).
-/
def Obligations.StepTakesTheFrontCommand : Prop :=
  ∀ (c : Instr) (rest : List Instr) (s : State), s.pending = c :: rest → step s = exec c { s with pending := rest }

/-- R26, R40, R98, R119, R122, R139, R154, R169, R170, R180, R183, R184: what a power-on reset leaves. The queue of waiting commands is
the model's own and stays. -/
def Obligations.PowerOnResetGivesTheResetValues : Prop :=
  ∀ s : State, ∃ t : State, exec .powerOnReset s = .next t ∧ t.pending = s.pending ∧
    t.part = .standby ∧ t.limits = ⟨400, 1500, 3000⟩ ∧ t.clock = ⟨⟨0, 0⟩, 4, true⟩ ∧ t.events = ⟨0#16, 0#16, false, false⟩ ∧
    t.counters = ⟨⟨0, false⟩, ⟨0, false⟩, ⟨0, false⟩, ⟨0, false⟩⟩ ∧ t.out = [] ∧
    (∀ n, t.program n = ⟨⟨0, 0⟩, .inactive, false, ⟨50000, 240, 20, 100, 0, 0, .early⟩⟩) ∧
    t.dirMode = .off ∧ (∀ n, t.passRange n = ⟨0, 0⟩) ∧ t.fault = ⟨none, 0, false⟩ ∧
    (∀ n, t.dirSet n = ⟨[⟨0, .invalid⟩, ⟨1, .invalid⟩, ⟨2, .invalid⟩, ⟨3, .invalid⟩]⟩) ∧
    t.holds = [] ∧ t.notes = [] ∧ (∀ tag, t.request tag = none ∧ t.generation tag = 0) ∧ (∀ card, t.exposure card = ⟨0, 0⟩) ∧
    t.journal = ⟨[], 1, 0, 0, true, false, 0⟩ ∧ (∀ i, t.siteId i = 0 ∧ t.siteHoldCount i = 0) ∧ (∀ n, t.slice n = none) ∧
    (∀ n, t.till n = ⟨false, 0, 0, 0, 0, 0, false, []⟩) ∧
    ∀ l, t.link l = { state := .disabled, enabled := true, expected := 0#32, session := none, lanes := none, presenceLimit := none,
                      presenceTimer := none, inbound := [], replies := [], dropped := ⟨0, false⟩, badFrame := ⟨0, false⟩,
                      rejected := ⟨0, false⟩, windowA := 0, windowB := 1, sent := [] }

/-- R182 with R26, R98, R122, R139, R154, R169, R170: what an engine reset clears and what it keeps. That it reports as freed every hold
that lived when it was taken is the model's deduction (notes/assumptions/16). -/
def Obligations.EngineResetClearsTheEngineAndKeepsTheLayout : Prop :=
  ∀ (ref : Word32) (s : State), TablesCanonical s → ∃ (t : State) (undone abandoned undelivered ways entries : Nat),
    exec (.resetEngine (.body ref ())) s = .next t ∧
    t.part = .standby ∧ t.dirMode = .off ∧ (∀ n, t.dirSet n = DirSet.default) ∧ t.holds = [] ∧ t.notes = [] ∧
    (∀ i, t.siteHoldCount i = 0) ∧ (∀ tag, t.request tag = none) ∧ t.journal.reserved = 0 ∧ t.journal.refusing = false ∧
    (∀ l ∈ linkNumbers, t.link l =
      { s.link l with state := .disabled, session := none, lanes := none, presenceLimit := none, presenceTimer := none, inbound := [],
                      replies := [], windowA := 0, windowB := 1 }) ∧
    (∀ n, t.till n = { s.till n with isOpen := false, stack := [] }) ∧
    t.programs = s.programs ∧ t.passRanges = s.passRanges ∧ t.siteIds = s.siteIds ∧ t.slices = s.slices ∧ t.clock = s.clock ∧
    t.limits = s.limits ∧ t.events.enables = s.events.enables ∧ t.events.routine = s.events.routine ∧
    t.events.exceptional = s.events.exceptional ∧ t.out.getLast? =
      some (.result Kind.resetEngine ref (.done (.engineReset undone abandoned undelivered s.holds.length ways entries)))

/-! ### START, limits, events and counters -/

/-- R181: START with the clock not set, in SERVING, and otherwise. -/
def Obligations.StartPutsThePartIntoService : Prop :=
  ∀ (ref : Word32) (s : State),
    (s.clock.notSet = true →
      exec (.start (.body ref ())) s = .next (s.queue (.result Kind.start ref (.refused .clockNotSet none [])))) ∧
    (s.clock.notSet = false → s.part = .serving →
      exec (.start (.body ref ())) s = .next (s.queue (.result Kind.start ref (.done (.listening 0))))) ∧
    (s.clock.notSet = false → s.part = .standby → ∃ t : State, exec (.start (.body ref ())) s = .next t ∧
      t = { s with
        part := .serving
        links := t.links
        out := s.out ++ [.result Kind.start ref (.done (.listening
          (linkNumbers.filter (fun l => (s.link l).enabled && decide ((s.link l).state = .disabled))).length))] } ∧
      ∀ l, t.link l = if l < 8 ∧ (s.link l).enabled = true ∧ (s.link l).state = .disabled then { s.link l with state := .listening }
        else s.link l)

/-- R183, R188, R12: SET-LIMITS brings each value within its bounds and reports the limits as they now stand; DONE-CLAMPED names the
limits that were brought within theirs. READ-COUNTERS reports every counter and sets it to 0, and leaves the fault record; READ-FAULT
reports the fault record and empties it, and leaves the counters. R186, R187: SET-NOTICES sets the enables and leaves the pending flags;
READ-EVENTS reports the pending flags and clears them. -/
def Obligations.LimitsAndNoticesAreSetAndRecordsReadOnce : Prop :=
  (∀ (ref : Word32) (x : LimitsFields) (s : State),
     let now : Limits := ⟨max 50 (min 2000 x.hostAnswer.toNat), max 200 (min 5000 x.gate.toNat), max 1000 (min 10000 x.presence.toNat)⟩
     let names : List Field :=
       (if 50 ≤ x.hostAnswer.toNat ∧ x.hostAnswer.toNat ≤ 2000 then [] else [.hostAnswerLimit]) ++
       (if 200 ≤ x.gate.toNat ∧ x.gate.toNat ≤ 5000 then [] else [.gateLimit]) ++
       (if 1000 ≤ x.presence.toNat ∧ x.presence.toNat ≤ 10000 then [] else [.presenceLimit])
     exec (.setLimits (.body ref x)) s = .next { s with
       limits := now
       out := s.out ++ [.result Kind.setLimits ref (if names = [] then .done (.limits now []) else .doneClamped (.limits now names))] }) ∧
  (∀ (ref : Word32) (s : State), s.links.wf Link.default = true → ∃ t : State, exec (.readCounters (.body ref ())) s = .next t ∧
    t = { s with
      counters := ⟨⟨0, false⟩, ⟨0, false⟩, ⟨0, false⟩, ⟨0, false⟩⟩
      links := t.links
      out := s.out ++ [.result Kind.readCounters ref (.done (.counters s.counters ((List.range 8).map (fun l =>
        ⟨(s.link l).dropped, (s.link l).badFrame, (s.link l).rejected⟩))))] } ∧
    ∀ l, t.link l = { s.link l with dropped := ⟨0, false⟩, badFrame := ⟨0, false⟩, rejected := ⟨0, false⟩ }) ∧
  (∀ (ref : Word32) (s : State),
    exec (.readFault (.body ref ())) s = .next
      { s with fault := ⟨none, 0, false⟩, out := s.out ++ [.result Kind.readFault ref (.done (.fault s.fault))] }) ∧
  (∀ (ref : Word32) (x : NoticeFields) (a b : Bool) (s : State), yesNo x.routine = some a → yesNo x.exceptional = some b →
    exec (.setNotices (.body ref x)) s = .next (if x.events.toNat < 2048 then
        { s with events := { s.events with enables := x.events, routine := a, exceptional := b },
                 out := s.out ++ [.result Kind.setNotices ref (.done (.notices a b x.events))] }
      else { s with out := s.out ++ [.result Kind.setNotices ref (.refused .badField (some .eventSet) [])] })) ∧
  (∀ (ref : Word32) (s : State),
    exec (.readEvents (.body ref ())) s = .next
      { s with events := { s.events with pending := 0#16 },
               out := s.out ++ [.result Kind.readEvents ref (.done (.events s.events.pending))] })

/-- R189, R168, R25: READ-STATUS and the SUMMARY and SET forms of DIRECTORY-READ change nothing but the link to the host, and report the
items as they stand. That the SET form codes a way's state 0 INVALID, 1 RESERVED and 2 VALID is the model's choice (notes/assumptions/9,
DESIGN CHOICE): the spec gives the states no codes. -/
def Obligations.ReportsChangeNothing : Prop :=
  ∀ (ref : Word32) (s : State),
    (∃ r : StatusReport, exec (.readStatus (.body ref ())) s = .next (s.queue (.result Kind.readStatus ref (.done (.status r)))) ∧
      r.part = s.part ∧ r.limits = s.limits ∧ r.routine = s.events.routine ∧ r.exceptional = s.events.exceptional ∧
      r.enables = s.events.enables ∧ r.reading = (if s.clock.notSet then ⟨0, 0⟩ else s.clock.reading) ∧ r.cutover = s.clock.cutover ∧
      r.date = s.date ∧ r.notSet = s.clock.notSet ∧
      r.programs = (List.range 32).map (fun n => ⟨n, (s.program n).range, (s.program n).state, (s.program n).locked⟩) ∧
      r.mode = s.dirMode ∧ r.valid = (s.ways.filter (fun w => w.st.isValid)).length ∧
      r.reserved = (s.ways.filter (fun w => w.st.isReserved)).length ∧ r.pinned = (s.ways.filter (fun w => s.pinsWay w.st)).length ∧
      r.holds = s.holds.length ∧ r.notes = s.notes.length ∧
      r.fetches = (s.requests.cells.filter (fun c => (c.2.bind HostEntry.fetch?).isSome)).length ∧
      r.referrals = (s.requests.cells.filter (fun c => c.2.isSome && (c.2.bind HostEntry.fetch?).isNone)).length ∧
      r.waitingPost = (s.requests.cells.filter (fun c => match c.2.bind HostEntry.fetch? with
        | some f => !f.sent
        | none => false)).length ∧
      r.records = s.journal.records.length ∧ r.oldest = (s.journal.records.map (·.sequence)).head? ∧
      r.nextSeq = s.journal.nextSeq ∧ r.highestSent = s.journal.highestSent ∧ r.undoSlots = s.journal.reserved ∧
      r.highArmed = s.journal.highArmed ∧ r.refusing = s.journal.refusing ∧ r.exposures = s.exposures.cells.length ∧
      r.links = (List.range 8).map (fun l =>
        { state := (s.link l).state, enabled := (s.link l).enabled, expected := (s.link l).expected, session := (s.link l).session
          lanes := (s.link l).lanes, windowA := (s.link l).windowA, windowB := (s.link l).windowB
          inbound := (s.link l).inbound.length
          reserved := ((s.link l).replies.filter (fun e => decide (e.state = .reserved))).length
          gated := ((s.link l).replies.filter (fun e => match e.state with
            | .gated _ _ _ _ => true
            | _ => false)).length
          ready := ((s.link l).replies.filter (fun e => match e.state with
            | .ready _ _ _ => true
            | _ => false)).length })) ∧
    exec (.directoryReadSummary (.body ref ())) s = .next (s.queue (.result Kind.directoryRead ref (.done
      (.summary s.dirMode s.validWays s.reservedWays s.pinnedWays [s.passRange 0, s.passRange 1, s.passRange 2, s.passRange 3])))) ∧
    ∀ n : Word16, exec (.directoryReadSet (.body ref n)) s = .next (s.queue (.result Kind.directoryRead ref
      (if n.toNat < 16384 then .done (.set ((s.dirSet n.toNat).ways.map (fun w =>
          match w.st with
          | .invalid => ⟨w.no, 0, none, none, none⟩
          | .reserved card => ⟨w.no, 1, some card, none, none⟩
          | .valid r _ => ⟨w.no, 2, some r.data.card, some r.unposted, some (s.pins r)⟩)))
        else .refused .badField (some .setNumber) [])))

/-! ### The Business Clock -/

/-- R173: the tests of TIME-SET in their order, and the first setting of the clock. `c` is the clock that a good command carries.
`State.settle` ends a flush that has nothing left to wait for, and is the identity in every other state. That the RESULT of the first
setting carries the data of R174, with no rollover and no expiry, is the model's deduction (notes/assumptions/19). -/
def Obligations.TimeSetIsTestedAndFirstSetsTheClock : Prop :=
  ∀ (ref : Word32) (x : TimeFields) (s : State),
    (86399999 < x.time.toNat →
      exec (.timeSet (.body ref x)) s = .next (s.settle.queue (.result Kind.timeSet ref (.refused .badField (some .timeOfDay) [])))) ∧
    (x.time.toNat ≤ 86399999 → (∃ b, x.cutover = .present b ∧ 23 < b.toNat) →
      exec (.timeSet (.body ref x)) s =
        .next (s.settle.queue (.result Kind.timeSet ref (.refused .badField (some .cutoverHour) [])))) ∧
    ∀ cutover, x.time.toNat ≤ 86399999 →
      (x.cutover = .absent ∧ cutover = s.clock.cutover ∨ ∃ b, x.cutover = .present b ∧ cutover = b.toNat ∧ b.toNat ≤ 23) →
      let c : Clock := ⟨⟨x.day.toNat, x.time.toNat⟩, cutover, false⟩
      (s.clock.notSet = true →
        exec (.timeSet (.body ref x)) s = .next
          (({ s with clock := c } : State).settle.queue
            (.result Kind.timeSet ref (.done (.clock c.reading c.businessDate false 0))))) ∧
      (s.clock.notSet = false → c.businessDate < s.date →
        exec (.timeSet (.body ref x)) s = .next (s.settle.queue (.result Kind.timeSet ref (.refused .clockBackward none []))))

/-- R174, R175: an accepted TIME-SET after the first. The clock takes the reading; a later business date is one rollover; every OPEN hold
whose instant lies at or before the new reading has expired. -/
def Obligations.TimeSetMovesTheClockAndExpiresHolds : Prop :=
  ∀ (ref : Word32) (x : TimeFields) (cutover : Nat) (s : State), s.tills.wf Till.default = true →
    s.clock.notSet = false → x.time.toNat ≤ 86399999 →
    (x.cutover = .absent ∧ cutover = s.clock.cutover ∨ ∃ b, x.cutover = .present b ∧ cutover = b.toNat ∧ b.toNat ≤ 23) →
    s.date ≤ (Clock.mk ⟨x.day.toNat, x.time.toNat⟩ cutover false).businessDate →
    let c : Clock := ⟨⟨x.day.toNat, x.time.toNat⟩, cutover, false⟩
    let due : Nat := (s.holds.filter (fun h => decide (h.state = .opened) && decide (h.expiry.ms ≤ c.reading.ms))).length
    ∃ t : State, exec (.timeSet (.body ref x)) s = .next t ∧
      t = { s with
        clock := c, tills := t.tills, exposures := t.exposures, holds := t.holds, notes := t.notes, siteHolds := t.siteHolds,
        dir := t.dir, dirMode := t.dirMode, fault := t.fault, counters := t.counters, events := t.events, journal := t.journal,
        requests := t.requests, generations := t.generations, out := t.out } ∧
      (∀ h ∈ t.holds, h.state = .opened → c.reading.ms < h.expiry.ms) ∧
      (∀ h ∈ s.holds, (h.state ≠ .opened ∨ c.reading.ms < h.expiry.ms) →
        (∀ k ∈ s.holds, k.id = h.id → k = h) → h ∈ t.holds) ∧
      (s.date < c.businessDate → t.exposures = Table.empty ∧ (∀ m, t.till m = { s.till m with stack := [] }) ∧
        t.events.pending.getLsbD 1 = true) ∧
      (s.date = c.businessDate → t.exposures = s.exposures ∧ t.tills = s.tills) ∧
      t.out.getLast? = some (.result Kind.timeSet ref
        (.done (.clock c.reading c.businessDate (decide (s.date < c.businessDate)) due)))

/-- R95, R172, R176: the expiry of an OPEN hold, when the clock reaches its instant. The clock then stands at the instant, or where it
stood when it had passed it. When no timer runs out on the way, none that an expiry may start among them, the hold is gone, no OPEN hold
that is due is left, and every timer of a link has run as long as the clock; when no other hold is due, the hold's key is noted. That the
row lets time pass up to the instant is the model's choice (notes/assumptions/2). -/
def Obligations.HoldExpiryFreesTheHold : Prop :=
  ∀ (site : Fin 512) (ref : Word32) (h : Hold) (s : State), s.holdByKey site.val ref = some h → h.state = .opened →
    s.clock.notSet = false → h.expiry.ms ≤ lastReading.ms →
    ∃ t : State, exec (.holdExpiry site ref) s = .next t ∧ t.now.ms = max s.now.ms h.expiry.ms ∧
      (TablesCanonical s → s.quietFor (h.expiry.ms - s.now.ms) = true →
        (∀ k ∈ t.holds, k.id ≠ h.id) ∧ (∀ k ∈ t.holds, k.state = .opened → t.now.ms < k.expiry.ms) ∧
        ((∀ k ∈ s.holds, k.state = .opened → k.id ≠ h.id → t.now.ms < k.expiry.ms) → (s.holds.filter (fun k => k.id = h.id)).length = 1 →
          t.holds = s.holds.filter (fun k => decide (k.id ≠ h.id)) ∧ t.siteHoldCount site.val = s.siteHoldCount site.val - 1 ∧
          t.notes.getLast? = some ⟨site.val, ref, h.id⟩) ∧
        (∀ l, t.link l = (s.link l).countDown (h.expiry.ms - s.now.ms)) ∧
        t = { s with
          clock := { s.clock with reading := t.clock.reading }, tills := t.tills, exposures := t.exposures, holds := t.holds
          notes := t.notes, siteHolds := t.siteHolds, dir := t.dir, dirMode := t.dirMode, fault := t.fault, counters := t.counters
          events := t.events, journal := t.journal, requests := t.requests, generations := t.generations, out := t.out
          links := t.links })

/-- R172, R175, R176: the clock's advance to the next cutover, where the business date rises by one. When no timer runs out on the way,
none that a hold's expiry may start among them, every debit stack and the exposure table are empty, the states, shift numbers and totals
of the tills stay, and every timer of a link has run as long as the clock. That the row lets time pass up to the cutover is the model's
choice (notes/assumptions/2). -/
def Obligations.DayRolloverEmptiesStacksAndExposures : Prop :=
  ∀ s : State, TimesValid s → s.clock.notSet = false → s.date < 65535 →
    let cutover : Reading := ⟨s.date + 1, s.clock.cutover * 3600000⟩
    ∃ t : State, exec .dayRollover s = .next t ∧ t.date = s.date + 1 ∧ t.clock.reading = cutover ∧
      (TablesCanonical s → s.quietFor (cutover.ms - s.clock.reading.ms) = true →
        t.exposures = Table.empty ∧ (∀ m, t.till m = { s.till m with stack := [] }) ∧ t.events.pending.getLsbD 1 = true ∧
        (∀ l, t.link l = (s.link l).countDown (cutover.ms - s.clock.reading.ms)) ∧
        t = { s with
          clock := { s.clock with reading := cutover }, tills := t.tills, exposures := Table.empty, holds := t.holds
          notes := t.notes, siteHolds := t.siteHolds, dir := t.dir, dirMode := t.dirMode, fault := t.fault, counters := t.counters
          events := t.events, journal := t.journal, requests := t.requests, generations := t.generations, out := t.out
          links := t.links })

/-! ### The Program Table -/

/-- R32, R33: PROGRAM-SET, its tests in their order, and the record it writes. R35, R37: PROGRAM-DEACTIVATE and PROGRAM-LOCK. -/
def Obligations.ProgramsAreSetDeactivatedAndLocked : Prop :=
  (∀ (ref : Word32) (x : ProgramFields) (s : State),
     let n := x.number.toNat
     let say (t : State) (b : ResultBody) : State := t.queue (.result Kind.programSet ref b)
     (31 < n → exec (.programSet (.body ref x)) s = .next (say s (.refused .badField (some .programNumber) []))) ∧
     (n ≤ 31 → (s.program n).locked = true → exec (.programSet (.body ref x)) s = .next (say s (.refused .locked none []))) ∧
     (n ≤ 31 → (s.program n).locked = false → (¬ ∃ first g, GoodProgram x first g) →
       ∃ f, exec (.programSet (.body ref x)) s = .next (say s (.refused .badField (some f) []))) ∧
     ∀ first g, n ≤ 31 → (s.program n).locked = false → GoodProgram x first g →
       ((s.program n).state = .active → (s.program n).range ≠ ⟨first, x.count.toNat⟩ →
         exec (.programSet (.body ref x)) s = .next (say s (.refused .active none []))) ∧
       ((s.program n).state = .inactive ∨ (s.program n).range = ⟨first, x.count.toNat⟩ →
         ∃ t : State, exec (.programSet (.body ref x)) s = .next t ∧
           t = { s with programs := t.programs, out := s.out ++ [.result Kind.programSet ref (.done .none)] } ∧
           t.program n = { s.program n with
             range := ⟨first, x.count.toNat⟩
             limits := ⟨x.maximumBalance.toNat, x.holdLifetime.toNat, x.tipTolerance.toNat, x.bonusCap.toNat, x.dailyUseLimit.toNat,
               x.standInLimit.toNat, g⟩ } ∧
           ∀ m, m ≠ n → t.program m = s.program m)) ∧
  (∀ (ref : Word32) (b : Byte) (s : State),
     let n := b.toNat
     let p := s.program n
     (∃ t : State, exec (.programDeactivate (.body ref b)) s = .next (t.queue (.result Kind.programDeactivate ref
         (if 31 < n then .refused .badField (some .programNumber) []
          else if p.locked then .refused .locked none []
          else .done .none))) ∧
       t = { s with programs := t.programs } ∧ (∀ m, m ≠ n → t.program m = s.program m) ∧
       t.program n = if n ≤ 31 ∧ p.locked = false then { p with state := .inactive } else p) ∧
     (∃ t : State, exec (.programLock (.body ref b)) s = .next (t.queue (.result Kind.programLock ref
         (if 31 < n then .refused .badField (some .programNumber) []
          else if p.state = .inactive then .refused .wrongState none []
          else .done .none))) ∧
       t = { s with programs := t.programs } ∧ (∀ m, m ≠ n → t.program m = s.program m) ∧
       t.program n = if n ≤ 31 ∧ p.state = .active then { p with locked := true } else p))

/-- R34, R39: PROGRAM-ACTIVATE and RANGE-PROBE on the programs and pass-through ranges that overlap program `n`'s range. That
PROGRAM-ACTIVATE of an empty range names the program number is the model's deduction (notes/assumptions/8). -/
def Obligations.ActivationAndProbeFindTheOverlaps : Prop :=
  ∀ (ref : Word32) (b : Byte) (s : State),
    let n := b.toNat
    let clash := (List.range 32).filter (fun m =>
      decide (m ≠ n ∧ (s.program m).state = .active) && (s.program m).range.overlaps (s.program n).range)
    let pass := (List.range 4).filter (fun m => (s.passRange m).overlaps (s.program n).range)
    (∃ t : State, exec (.programActivate (.body ref b)) s = .next (t.queue (.result Kind.programActivate ref
        (if 31 < n then .refused .badField (some .programNumber) []
         else if (s.program n).state = .active then .done .none
         else if (s.program n).range.count = 0 then .refused .badField (some .programNumber) []
         else if clash = [] then .done .none else .refused .overlap none clash))) ∧
      t = { s with programs := t.programs } ∧ (∀ m, m ≠ n → t.program m = s.program m) ∧
      t.program n = if n ≤ 31 ∧ (s.program n).range.count ≠ 0 ∧ clash = [] then { s.program n with state := .active }
        else s.program n) ∧
    exec (.rangeProbe (.body ref b)) s = .next (s.queue (.result Kind.rangeProbe ref
      (if 31 < n then .refused .badField (some .programNumber) []
       else if (s.program n).state = .active then .refused .active none []
       else .done (.probe (s.program n).range
         (clash.map (fun m => ⟨m, (s.program m).range, (s.program m).state, (s.program m).locked⟩))
         (pass.map (fun m => (m, s.passRange m)))))))

/-! ### The Card Directory -/

/-- R18: PASS-RANGE-SET, with a range number and a count in order; a range is in use when it would cover a card in a way, in a FETCH entry
or under a live hold. -/
def Obligations.PassRangeSetRefusesRangesInUse : Prop :=
  ∀ (ref : Word32) (x : PassRangeFields) (first : Nat) (s : State), TablesCanonical s → (∀ n, (s.dirSet n).inOrder n) →
    cardOfBcd x.first = some first →
    let n := x.number.toNat
    let r : Range := ⟨first, x.count.toNat⟩
    let inUse : Prop := ∃ card, r.covers card = true ∧
      ((s.findWay card).isSome = true ∨ (∃ tag f, s.fetchAt tag = some f ∧ f.card = card) ∨ ∃ h ∈ s.holds, h.card = card)
    let say (b : ResultBody) : HostMsg := .result Kind.passRangeSet ref b
    (3 < n → exec (.passRangeSet (.body ref x)) s = .next (s.queue (say (.refused .badField (some .rangeNumber) [])))) ∧
    (n ≤ 3 → (¬ (r.count = 0 ∨ r.count ∈ [1000, 10000, 100000, 1000000, 10000000, 100000000, 1000000000] ∧ first % r.count = 0)) →
      ∃ f, exec (.passRangeSet (.body ref x)) s = .next (s.queue (say (.refused .badField (some f) [])))) ∧
    (n ≤ 3 → (r.count = 0 ∨ r.count ∈ [1000, 10000, 100000, 1000000, 10000000, 100000000, 1000000000] ∧ first % r.count = 0) →
      (inUse → exec (.passRangeSet (.body ref x)) s = .next (s.queue (say (.refused .rangeInUse none [])))) ∧
      (¬ inUse → ∃ t : State, exec (.passRangeSet (.body ref x)) s = .next t ∧
        t = { s with passRanges := t.passRanges, out := s.out ++ [say (.done .none)] } ∧ t.passRange n = r ∧
        ∀ m, m ≠ n → t.passRange m = s.passRange m))

/-- R13, R14: DIRECTORY-MODE from each mode towards each target. `flush` is the flush as it is entered: the VALID ways that are not pinned
are INVALID, in the least recently used places in the order they held. -/
def Obligations.DirectoryModeChangesOrFlushes : Prop :=
  ∀ (ref : Word32) (b : Byte) (s : State), s.dir.wf DirSet.default = true →
    let say (t : State) (b : ResultBody) : State := t.queue (.result Kind.directoryMode ref b)
    (3 < b.toNat → exec (.directoryMode (.body ref b)) s = .next (say s.settle (.refused .badField (some .mode) []))) ∧
    ∀ target, modeTarget b = some target →
      (s.dirMode = target.mode → exec (.directoryMode (.body ref b)) s = .next (say s (.done .none))) ∧
      (s.dirMode ≠ target.mode → s.dirMode.isFlushing = false → target.flush? = none →
        exec (.directoryMode (.body ref b)) s = .next (say { s with dirMode := target.mode } (.done .none))) ∧
      (s.dirMode.isFlushing = true → target.flush? = none →
        exec (.directoryMode (.body ref b)) s = .next (say s.settle (.refused .wrongState none []))) ∧
      ∀ goal, target.flush? = some goal →
        (s.dirMode.isFlushing = true →
          exec (.directoryMode (.body ref b)) s = .next (say ({ s with dirMode := .flushing goal } : State).settle (.done .none))) ∧
        (s.dirMode ≠ target.mode → s.dirMode.isFlushing = false → s.holds ≠ [] →
          exec (.directoryMode (.body ref b)) s = .next (say s (.refused .holdsPresent none []))) ∧
        (s.dirMode ≠ target.mode → s.dirMode.isFlushing = false → s.holds = [] →
          ∃ flush : State, exec (.directoryMode (.body ref b)) s = .next (say flush.settle (.done .none)) ∧
            flush = { s with dirMode := .flushing goal, dir := flush.dir } ∧
            (∀ n, (flush.dirSet n).ways =
              ((s.dirSet n).ways.filter (fun w => w.st.isValid && !s.pinsWay w.st)).map (fun w => ⟨w.no, .invalid⟩) ++
              (s.dirSet n).ways.filter (fun w => !(w.st.isValid && !s.pinsWay w.st))) ∧
            ((∀ w ∈ flush.ways, w.st = .invalid) → flush.fetchCount = 0 →
              flush.settle.dirMode = target.mode ∧ flush.settle.events.pending.getLsbD 2 = true))

/-- R19, R22: a card taken out of the directory by CARD-EVICT and by UNLOAD, and the refusals of each. -/
def Obligations.EvictAndUnloadEmptyTheWay : Prop :=
  ∀ (ref : Word32) (w : Word64) (card : Nat) (s : State), cardOfBcd w = some card → (s.dirSet (setOf card)).inOrder (setOf card) →
    s.dirMode.isFlushing = false →
    let gone (t : State) (no : Nat) : Prop :=
      t.findWay card = none ∧ s.otherSets t (setOf card) ∧
      (t.dirSet (setOf card)).ways = ⟨no, .invalid⟩ :: (s.dirSet (setOf card)).ways.filter (fun w => decide (w.no ≠ no))
    (s.findWay card = none →
      exec (.cardEvict (.body ref w)) s = .next (s.queue (.result Kind.cardEvict ref (.done .notResident)))) ∧
    (∀ no c, s.findWay card = some ⟨no, .reserved c⟩ →
      exec (.cardEvict (.body ref w)) s = .next (s.queue (.result Kind.cardEvict ref (.refused .cardBusy none [])))) ∧
    ∀ no r stay, s.findWay card = some ⟨no, .valid r stay⟩ →
      (s.pins r = true →
        exec (.cardEvict (.body ref w)) s = .next (s.queue (.result Kind.cardEvict ref (.refused .pinned none [])))) ∧
      (s.pins r = false → ∃ t : State, exec (.cardEvict (.body ref w)) s = .next t ∧
        t = { s with dir := t.dir, out := s.out ++ [.result Kind.cardEvict ref (.done .none)] } ∧ gone t no) ∧
      (s.Adjustable card r stay →
        (s.pins r = true →
          exec (.cardAdjustUnload (.body ref w)) s = .next (s.queue (.result Kind.cardAdjust ref (.refused .pinned none [])))) ∧
        (s.pins r = false → ∃ t : State, exec (.cardAdjustUnload (.body ref w)) s = .next t ∧
          t = { s with dir := t.dir, out := s.out ++ [.result Kind.cardAdjust ref (.done (.record r.data r.unposted))] } ∧ gone t no))

/-- R20, R21, R9, R11: CARD-ADJUST LOAD of a record whose card number is well formed: its refusals in their order, and the install. A
resident record of the card that fails its check is dropped, and the LOAD goes on as for a card that is not resident. That a record R9
refuses is named as the card record, and that WRONG-STATE comes before the record is read, are the model's deductions
(notes/assumptions/8). -/
def Obligations.LoadInstallsInTheVictimWay : Prop :=
  ∀ (ref : Word32) (w : CardWire) (card : Nat) (s : State), cardOfBcd w.card = some card →
    (s.dirSet (setOf card)).inOrder (setOf card) →
    let say (b : ResultBody) : HostMsg := .result Kind.cardAdjust ref b
    ((s.dirMode = .off ∨ s.dirMode.isFlushing = true) →
      exec (.cardAdjustLoad (.body ref w)) s = .next (s.queue (say (.refused .wrongState none [])))) ∧
    (s.dirMode = .warming ∨ s.dirMode = .normal ∨ s.dirMode = .frozen →
      ((∃ no, s.findWay card = some ⟨no, .reserved card⟩) ∨ (∃ no r stay, s.findWay card = some ⟨no, .valid r stay⟩ ∧ r.verifies = true) ∨
          s.findWay card = none ∧ s.names card = true →
        exec (.cardAdjustLoad (.body ref w)) s = .next (s.queue (say (.refused .cardBusy none [])))) ∧
      (∀ no r stay, s.findWay card = some ⟨no, .valid r stay⟩ → r.verifies = false →
        (s.checkFault card no).findWay card = none ∧
        exec (.cardAdjustLoad (.body ref w)) s = exec (.cardAdjustLoad (.body ref w)) (s.checkFault card no)) ∧
      (s.findWay card = none → s.names card = false → (¬ ∃ d, readCard w = some d ∧ s.installable d = true) →
        exec (.cardAdjustLoad (.body ref w)) s = .next (s.queue (say (.refused .badField (some .cardRecord) [])))) ∧
      ∀ d, s.findWay card = none → s.names card = false → readCard w = some d → s.installable d = true →
        (s.victim card = none →
          exec (.cardAdjustLoad (.body ref w)) s = .next (s.queue (say (.refused .pinned none [])))) ∧
        ∀ no, s.victim card = some no → ∃ t : State, exec (.cardAdjustLoad (.body ref w)) s = .next t ∧
          t = { s with dir := t.dir, nextStay := s.nextStay + 1, out := s.out ++ [say (.done .none)] } ∧
          d.card = card ∧ t.recordOf card = some (sealRecord d 0, s.nextStay) ∧ t.mostRecent card ∧ s.otherSets t (setOf card) ∧
          ∀ c x, c ≠ card → s.findWay c = some x → x.no ≠ no → t.findWay c = some x)

/-- R20, R23, R24, R2, R11, R126, R138, R179: in OFF and FLUSHING every form but LOAD is refused WRONG-STATE, whatever it carries; in the
other modes it is refused CARD-BUSY for a card with an unconfirmed effect or in a RESERVED way, and NOT-RESIDENT for a card in no way, and
for one whose record fails its check and is dropped. SET-BONUS that keeps the balance, SET-BONUS that changes it, with room in the Journal
Queue and refused CARD-BUSY with none, BLOCK and UNBLOCK, on a resident record. Which field a refused SET-BONUS names, and where a
malformed card number stands among the tests, are deduced (notes/assumptions/8). -/
def Obligations.AdjustWritesTheRecord : Prop :=
  (∀ (ref : Word32) (w : Word64) (x : SetBonusFields) (s : State), s.dirMode = .off ∨ s.dirMode.isFlushing = true →
    ∀ i ∈ [Instr.cardAdjustUnload (.body ref w), .cardAdjustSetBonus (.body ref x), .cardAdjustBlock (.body ref w),
        .cardAdjustUnblock (.body ref w)],
      exec i s = .next (s.queue (.result Kind.cardAdjust ref (.refused .wrongState none [])))) ∧
  (∀ (ref : Word32) (w : Word64) (x : SetBonusFields) (s : State), x.card = w →
    s.dirMode = .warming ∨ s.dirMode = .normal ∨ s.dirMode = .frozen →
    ∀ i ∈ [Instr.cardAdjustUnload (.body ref w), .cardAdjustSetBonus (.body ref x), .cardAdjustBlock (.body ref w),
        .cardAdjustUnblock (.body ref w)],
      let refused (reason : RefuseReason) (field : Option Field) : Prop :=
        exec i s = .next (s.queue (.result Kind.cardAdjust ref (.refused reason field [])))
      (cardOfBcd w = none → refused .badField (some .cardNumber)) ∧
      ∀ card, cardOfBcd w = some card → (s.dirSet (setOf card)).inOrder (setOf card) →
        let unconfirmed : Prop := (∃ u ∈ s.undoRecords, u.card = card) ∨ ∃ h ∈ s.holds, h.card = card ∧ h.state ≠ .opened
        (unconfirmed ∨ (∃ no c, s.findWay card = some ⟨no, .reserved c⟩) → refused .cardBusy none) ∧
        (¬ unconfirmed → s.findWay card = none → refused .notResident none) ∧
        ∀ no r stay, ¬ unconfirmed → s.findWay card = some ⟨no, .valid r stay⟩ → r.verifies = false →
          (s.checkFault card no).findWay card = none ∧ exec i s = exec i (s.checkFault card no)) ∧
  (∀ (ref : Word32) (w : Word64) (card : Nat) (r : CardRecord) (stay : Nat) (s : State), cardOfBcd w = some card →
     s.Adjustable card r stay →
     let written (t : State) (x : CardRecord) : Prop :=
       t.recordOf card = some (x, stay) ∧ s.otherCards t card ∧ s.otherSets t (setOf card) ∧
       (t.dirSet (setOf card)).ways.map (fun w => w.no) = (s.dirSet (setOf card)).ways.map (fun w => w.no)
     (∃ t : State, exec (.cardAdjustBlock (.body ref w)) s = .next t ∧
       t = { s with dir := t.dir, out := s.out ++ [.result Kind.cardAdjust ref (.done .none)] } ∧
       written t (sealRecord { r.data with status := .blocked } r.unposted)) ∧
     (∃ t : State, exec (.cardAdjustUnblock (.body ref w)) s = .next t ∧
       t = { s with dir := t.dir, out := s.out ++ [.result Kind.cardAdjust ref (.done .none)] } ∧
       written t (sealRecord { r.data with status := .active } r.unposted)) ∧
     (∀ bonus : Word32, exec (.cardAdjustSetBonus (.body ref ⟨w, bonus, .malformed⟩)) s = .next (s.queue (.result Kind.cardAdjust ref
       (.refused .badField (some (if 9999999 < bonus.toNat ∨ bonus.toNat < s.heldBonus card then .bonusBalance else .bonusExpiry)) [])))) ∧
     ∀ (bonus : Word32) (carried : Option Nat) (o : WireOpt Word16),
       (o = .absent ∧ carried = none ∨ ∃ v, o = .present v ∧ carried = some v.toNat) →
       let expiry : Option Nat := carried.or r.data.expiry
       let bad : Prop := 9999999 < bonus.toNat ∨ bonus.toNat < s.heldBonus card ∨ (0 < bonus.toNat ∧ expiry = none)
       (bad → exec (.cardAdjustSetBonus (.body ref ⟨w, bonus, o⟩)) s = .next (s.queue (.result Kind.cardAdjust ref
         (.refused .badField (some (if 9999999 < bonus.toNat ∨ bonus.toNat < s.heldBonus card then .bonusBalance else .bonusExpiry)) [])))) ∧
       (¬ bad → bonus.toNat = r.data.bonus → ∃ t : State, exec (.cardAdjustSetBonus (.body ref ⟨w, bonus, o⟩)) s = .next t ∧
         t = { s with dir := t.dir, out := s.out ++ [.result Kind.cardAdjust ref (.done .none)] } ∧
         written t (sealRecord { r.data with expiry := expiry } r.unposted)) ∧
       (¬ bad → bonus.toNat ≠ r.data.bonus → 4096 < s.journal.records.length + s.journal.reserved + 1 →
         exec (.cardAdjustSetBonus (.body ref ⟨w, bonus, o⟩)) s = .next ((s.full 268#16).queue (.result Kind.cardAdjust ref
           (.refused .cardBusy none [])))) ∧
       (¬ bad → bonus.toNat ≠ r.data.bonus → s.journal.records.length + s.journal.reserved + 1 ≤ 4096 →
         ∃ t : State, exec (.cardAdjustSetBonus (.body ref ⟨w, bonus, o⟩)) s = .next t ∧
           let joined : JournalRecord :=
             { sequence := s.journal.nextSeq, kind := .adjust, card := card, origin := none,
               bonusDelta := (bonus.toNat : Int) - (r.data.bonus : Int), coreDelta := 0, forfeited := none, undone := none,
               date := s.date, instant := s.now }
           t = { s with
             dir := t.dir, events := t.events, out := t.out
             journal := { s.journal with
               records := s.journal.records ++ [joined], nextSeq := nextSequence s.journal.nextSeq, refusing := false
               highArmed := s.journal.highArmed && decide (s.journal.records.length ≠ 3072) } } ∧
           written t (sealRecord { r.data with bonus := bonus.toNat, expiry := expiry } (r.unposted + 1)) ∧
           (s.journal.records.length ≠ 3072 →
             t.events = s.events ∧ t.out = s.out ++ [.journal joined 0, .result Kind.cardAdjust ref (.done .none)])))

/-- R25, R11, R12: the CARD form of DIRECTORY-READ on a record that matches its check code, and the check fault on one that does not. R2:
an alteration of stored content, the card number or the check code among it, that no longer matches its check code changes the record of
the way and nothing else; that one which still matches is none is the model's choice (notes/assumptions/4). -/
def Obligations.AlteredRecordsAreFoundAndDropped : Prop :=
  (∀ (ref : Word32) (w : Word64) (card : Nat) (s : State), cardOfBcd w = some card → (s.dirSet (setOf card)).inOrder (setOf card) →
     let say (r : CardReport) : HostMsg := .result Kind.directoryRead ref (.done (.card (card % 16384) r))
     (s.findWay card = none → exec (.directoryReadCard (.body ref w)) s = .next (s.settle.queue (say .notResident))) ∧
     (∀ no c, s.findWay card = some ⟨no, .reserved c⟩ →
       exec (.directoryReadCard (.body ref w)) s = .next (s.settle.queue (say (.reserved no)))) ∧
     ∀ no r stay, s.findWay card = some ⟨no, .valid r stay⟩ →
       (r.check = checkCode r.data r.unposted → exec (.directoryReadCard (.body ref w)) s = .next (s.settle.queue
         (say (.valid no r.data r.unposted (s.pins r) (s.holds.filter (fun h => decide (h.card = card))).length)))) ∧
       (r.check ≠ checkCode r.data r.unposted → ∃ u, exec (.directoryReadCard (.body ref w)) s = .next (u.settle.queue (say .notResident)) ∧
         u = { s with
           dir := u.dir, events := u.events, out := u.out
           fault := ⟨s.fault.latched.or (some ⟨card, card % 16384, no⟩),
             if s.fault.count < 65535 then s.fault.count + 1 else s.fault.count, s.fault.overflow || s.fault.latched.isSome⟩
           counters := { s.counters with checkFault := s.counters.checkFault.bump } } ∧
         u.findWay card = none ∧ s.otherSets u (setOf card) ∧
         (u.dirSet (setOf card)).ways = ⟨no, .invalid⟩ :: (s.dirSet (setOf card)).ways.filter (fun w => decide (w.no ≠ no)) ∧
         u.events.pending.getLsbD 10 = true)) ∧
  (∀ (set : Fin 16384) (way : Fin 4) (x : AlteredContent) (r : CardRecord) (stay : Nat) (s : State),
    (s.dirSet set.val).inOrder set.val → (⟨way.val, .valid r stay⟩ : Way) ∈ (s.dirSet set.val).ways →
    let changed : CardRecord := ⟨x.data, x.unposted, x.check⟩
    (x.check ≠ checkCode x.data x.unposted → ∃ t : State, exec (.storedContentAltered set way x) s = .next t ∧
      t = { s with dir := t.dir } ∧ s.otherSets t set.val ∧ changed.verifies = false ∧
      (t.dirSet set.val).ways = (s.dirSet set.val).ways.map (fun w => if w.no = way.val then ⟨w.no, .valid changed stay⟩ else w)) ∧
    (x.check = checkCode x.data x.unposted → ∃ t : State, exec (.storedContentAltered set way x) s = .next t ∧
      t = { s with dir := t.dir } ∧ ∀ n, t.dirSet n = s.dirSet n))

/-! ### Sites, slices, windows and links -/

/-- R145, R146, R147, R192: SITE-SET, WINDOW-SET, and SLICE-ASSIGN of a slice to `site`, or to none, coded 65,535: every refusal and every
effect. That a SLICE-ASSIGN of slice 0 or 1 names its slice number whatever site index it carries is deduced from R179, which names the
first field in the command's own order, against R146, whose row on the slice stands below the one on the site index (notes/assumptions/8,
DEDUCED). R167: LINK-CONTROL enable and set expected identity, and the link number's bound for all four actions. -/
def Obligations.TheTillMapAndLinksAreSet : Prop :=
  (∀ (ref : Word32) (x : SiteFields) (s : State), s.siteIds.wf 0 = true →
    let i := x.index.toNat
    let v := x.identity.toNat
    let held : Prop := v ≠ 0 ∧ ∃ j, j ≠ i ∧ s.siteId j = v
    let say (b : ResultBody) : HostMsg := .result Kind.siteSet ref b
    (511 < i → exec (.siteSet (.body ref x)) s = .next (s.queue (say (.refused .badField (some .siteIndex) [])))) ∧
    (i ≤ 511 → s.siteId i ≠ v → held →
      exec (.siteSet (.body ref x)) s = .next (s.queue (say (.refused .badField (some .siteIdentity) [])))) ∧
    (i ≤ 511 → s.siteId i = v → exec (.siteSet (.body ref x)) s = .next (s.queue (say (.done .none)))) ∧
    (i ≤ 511 → s.siteId i ≠ v → ¬ held → ∃ t : State, exec (.siteSet (.body ref x)) s = .next t ∧
      t = { s with siteIds := t.siteIds, out := s.out ++ [say (.done .none)] } ∧ t.siteId i = v ∧
      ∀ j, j ≠ i → t.siteId j = s.siteId j)) ∧
  (∀ (ref : Word32) (x : WindowFields) (s : State),
    let l := x.link.toNat
    (¬ (l ≤ 7 ∧ x.window.toNat ≤ 1 ∧ x.slice.toNat ≤ 1023) → ∃ f,
      exec (.windowSet (.body ref x)) s = .next (s.queue (.result Kind.windowSet ref (.refused .badField (some f) [])))) ∧
    (l ≤ 7 → x.window.toNat ≤ 1 → x.slice.toNat ≤ 1023 → ∃ t : State, exec (.windowSet (.body ref x)) s = .next t ∧
      t = { s with links := t.links, out := s.out ++ [.result Kind.windowSet ref (.done .none)] } ∧ s.otherLinks t l ∧
      t.link l = if x.window.toNat = 0 then { s.link l with windowA := x.slice.toNat }
        else { s.link l with windowB := x.slice.toNat })) ∧
  (∀ (ref : Word32) (x : SliceFields) (s : State),
     let n := x.slice.toNat
     let busy : Prop := (∃ k, k < 8 ∧ (s.till (n * 8 + k)).isOpen = true) ∨
       ∃ l ∈ linkNumbers, ∃ e ∈ (s.link l).replies, e.state = .reserved ∧ ∃ till ∈ e.noted, till.till / 8 = n
     let say (b : ResultBody) : HostMsg := .result Kind.sliceAssign ref b
     (1023 < n ∨ n < 2 → exec (.sliceAssign (.body ref x)) s = .next (s.queue (say (.refused .badField (some .sliceNumber) [])))) ∧
     (n ≤ 1023 → 2 ≤ n → 511 < x.site.toNat → x.site.toNat < 65535 →
       exec (.sliceAssign (.body ref x)) s = .next (s.queue (say (.refused .badField (some .siteIndex) [])))) ∧
     (∀ site, (site = none ∧ x.site.toNat = 65535 ∨ site = some x.site.toNat ∧ x.site.toNat ≤ 511) → n ≤ 1023 → 2 ≤ n →
       (s.slice n = site → exec (.sliceAssign (.body ref x)) s = .next (s.queue (say (.done .none)))) ∧
       (s.slice n ≠ site → busy → exec (.sliceAssign (.body ref x)) s = .next (s.queue (say (.refused .tillsOpen none [])))) ∧
       (s.slice n ≠ site → ¬ busy → ∃ t : State, exec (.sliceAssign (.body ref x)) s = .next t ∧
         t = { s with slices := t.slices, out := s.out ++ [say (.done .none)] } ∧ t.slice n = site ∧
         ∀ m, m ≠ n → t.slice m = s.slice m))) ∧
  (∀ (ref : Word32) (b : Byte) (identity : Word32) (s : State),
     let l := b.toNat
     let no : Host.Outcome State Fault Refusal :=
       .next (s.queue (.result Kind.linkControl ref (.refused .badField (some .linkNumber) [])))
     (7 < l → exec (.linkControlEnable (.body ref b)) s = no ∧ exec (.linkControlSetExpectedIdentity (.body ref ⟨b, identity⟩)) s = no ∧
       (s.dirMode.isFlushing = false →
         exec (.linkControlDisable (.body ref b)) s = no ∧ exec (.linkControlReset (.body ref b)) s = no)) ∧
     (l ≤ 7 →
       (∃ t : State, exec (.linkControlEnable (.body ref b)) s = .next t ∧
         t = { s with links := t.links, out := s.out ++ [.result Kind.linkControl ref (.done .none)] } ∧ s.otherLinks t l ∧
         t.link l = { s.link l with
           enabled := true
           state := if s.part = .serving ∧ (s.link l).state = .disabled then .listening else (s.link l).state }) ∧
       (∃ t : State, exec (.linkControlSetExpectedIdentity (.body ref ⟨b, identity⟩)) s = .next t ∧
         t = { s with links := t.links, out := s.out ++ [.result Kind.linkControl ref (.done .none)] } ∧ s.otherLinks t l ∧
         t.link l = { s.link l with expected := identity })))

/-- R165, R166, R167, R160, R79: the loss of an UP link by presence, and the disable and the reset of a link in every state. The link's
queues are empty and its session is gone; the other links, the programs, the layout and the clock are as they were; of the tills only the
marks of the link's own REVERSEs that had not ended are cleared; a loss raises LINK-LOST, a disable and a reset answer DONE. A link that
is DISABLED stays so, and has nothing to empty. What each entry of R165's table is met with is said for a reply queue of that entry alone,
and for one of any number of READY entries without an undo record: a RESERVED request is abandoned (R110, R118); an effect with a journal
slot is undone with its UNDO record, which re-gates a SENT fetch of its card (R56, R57, R90, R109, R121, R127); a NEW hold is freed
without one (R87); a relayed reply is reported undelivered; any other reply is emptied. LINK-LOST counts the entries undone, abandoned and
reported undelivered; that a freed hold is among none of them is the model's deduction (notes/assumptions/16). -/
def Obligations.LosingALinkEmptiesItsQueues : Prop :=
  ∀ (l : Fin 8) (ref : Word32) (s : State),
    let b : Byte := BitVec.ofNat 8 l
    let answered (t : State) : Prop := t.out.getLast? = some (.result Kind.linkControl ref (.done .none))
    let met (t : State) (events : EventFlags) (last : Nat → Nat → Nat → List HostMsg) : Prop :=
      s.dirMode.isFlushing = false → (∀ n, (s.dirSet n).inOrder n) →
      ((∀ e ∈ (s.link l).replies, ∃ reply origin, e.state = .ready reply none origin) →
        let told : List HostMsg := (s.link l).replies.filterMap (fun e => match e.state with
          | .ready reply none (some (tag, gen)) => some (.undelivered tag gen reply)
          | _ => none)
        t = { s with links := t.links, tills := t.tills, dir := t.dir, events := events, out := s.out ++ told ++ last 0 0 told.length } ∧
        ∀ n, t.dirSet n = s.dirSet n) ∧
      ∀ e, (s.link l).replies = [e] →
        (e.state = .reserved →
          t = { s with
            links := t.links, tills := t.tills, dir := t.dir, requests := t.requests, events := events, out := s.out ++ last 0 1 0 } ∧
          (∀ n, t.dirSet n = s.dirSet n) ∧
          ∀ tag, t.request tag = (s.request tag).map (fun x => match x.kind with
            | .fetch f => { x with kind := .fetch { f with waiters := f.waiters.filter (fun w => decide (w ≠ ⟨l, e.slot⟩)) } }
            | .referral r => if r.link = l ∧ r.slot = e.slot then { x with kind := .referral { r with abandoned := true } } else x)) ∧
        (∀ reply u q, (e.state = .ready reply (some u) none ∨ ∃ awaited timer, e.state = .gated reply u awaited timer) →
          u.sequence = some q → s.Undoable u →
          t = { s with
            links := t.links, tills := t.tills, dir := t.dir, holds := t.holds, exposures := t.exposures, journal := t.journal
            requests := t.requests, generations := t.generations, events := t.events, out := t.out } ∧
          s.Undone t u q ∧
          (s.journal.records.length ≠ 3072 → t.events = events ∧ t.out = s.out ++ [.journal (s.undoRecord u q) 0] ++ last 1 0 0)) ∧
        (∀ reply u h, e.state = .ready reply (some u) none → u.effect = .hold h.id → u.sequence = none → s.holdById h.id = some h →
          (∀ r stay, s.recordOf u.card = some (r, stay) → r.verifies = true ∧ (inDate r.data s.date = true ∨ r.data.bonus = 0)) →
          t = { s with
            links := t.links, tills := t.tills, dir := t.dir, holds := s.holds.filter (fun y => decide (y.id ≠ h.id))
            siteHolds := t.siteHolds, events := events, out := s.out ++ last 0 0 0 } ∧
          t.siteHoldCount h.site = s.siteHoldCount h.site - 1 ∧ (∀ k, k ≠ h.site → t.siteHoldCount k = s.siteHoldCount k) ∧
          s.otherSets t (setOf u.card) ∧ s.otherCards t u.card ∧
          t.recordOf u.card = (s.recordOf u.card).map (fun x =>
            (sealRecord { x.1.data with uses := if x.1.data.stamp = s.date then x.1.data.uses - 1 else x.1.data.uses } x.1.unposted, x.2)))
    let done (_ _ _ : Nat) : List HostMsg := [.result Kind.linkControl ref (.done .none)]
    let lost (undone abandoned undelivered : Nat) : List HostMsg :=
      if s.events.enables.getLsbD 4 ∧ s.events.exceptional then
        [.notice .linkLost s.now (.linkLost l false undone abandoned undelivered)]
      else []
    ((s.link l).state = .up → (s.link l).presenceTimer.isSome = true → ∃ t : State, exec (.presenceTimeout l) s = .next t ∧
      s.emptied t l .listening (s.link l).enabled ∧ t.events.pending.getLsbD 4 = true ∧
      met t { s.events with pending := s.events.pending ||| 16#16 } lost) ∧
    ((s.link l).state ≠ .disabled →
      (∃ t : State, exec (.linkControlDisable (.body ref b)) s = .next t ∧ s.emptied t l .disabled false ∧ answered t ∧
        met t s.events done) ∧
      ∃ t : State, exec (.linkControlReset (.body ref b)) s = .next t ∧
        s.emptied t l (if s.part = .serving ∧ (s.link l).enabled = true then .listening else .disabled) (s.link l).enabled ∧ answered t ∧
        met t s.events done) ∧
    ((s.link l).state = .disabled →
      (∃ t : State, exec (.linkControlDisable (.body ref b)) s = .next t ∧
        t = { s with links := t.links, dirMode := t.dirMode, events := t.events, out := t.out } ∧ s.otherLinks t l ∧
        t.link l = { s.link l with enabled := false } ∧ answered t ∧ (s.dirMode.isFlushing = false → t.dirMode = s.dirMode)) ∧
      ∃ t : State, exec (.linkControlReset (.body ref b)) s = .next t ∧
        t = { s with dirMode := t.dirMode, events := t.events, out := t.out } ∧ answered t ∧
        (s.dirMode.isFlushing = false → t.dirMode = s.dirMode))

/-- R158, R159: a LISTENING link rejects a hello of another level, then one of another identity than it expects, and accepts any other; an
UP link is lost first and meets the hello as a LISTENING one. The loss leaves the link LISTENING with empty queues and no session, and
raises LINK-LOST with cause HELLO (R166). A flush that a check fault of the loss ends is done after the loss and before the hello is met,
by `State.settle`: the model's choice (notes/assumptions/29, DESIGN CHOICE); out of a flush `State.settle` changes nothing. -/
def Obligations.HelloIsRejectedOrAccepted : Prop :=
  ∀ (l : Fin 8) (h : HelloFields) (s : State),
    ((s.link l).state = .listening →
      (h.level ≠ 1#8 ∨ (s.link l).expected ≠ 0#32 ∧ (s.link l).expected ≠ h.identity →
        ∃ t : State, exec (.linkHello l (.good h)) s = .next t ∧ t = { s with links := t.links, events := t.events, out := t.out } ∧
          s.otherLinks t l ∧ t.events.pending.getLsbD 5 = true ∧
          t.link l = { s.link l with
            rejected := (s.link l).rejected.bump
            sent := (s.link l).sent ++ [.linkReject (decide (h.level = 1#8))] }) ∧
      (h.level = 1#8 → (s.link l).expected = 0#32 ∨ (s.link l).expected = h.identity →
        ∃ t : State, exec (.linkHello l (.good h)) s = .next t ∧ t = { s with links := t.links, events := t.events, out := t.out } ∧
          s.otherLinks t l ∧ t.events.pending.getLsbD 0 = true ∧
          t.link l = { s.link l with
            state := .up, session := some h.identity, lanes := some h.lanes, presenceLimit := some s.limits.presence
            presenceTimer := some s.limits.presence
            sent := (s.link l).sent ++ [.linkAccept l (s.link l).windowA (s.link l).windowB s.limits.presence] })) ∧
    ((s.link l).state = .up → ∃ (u : State) (undone abandoned undelivered : Nat), u = s.loseLink l true ∧
      exec (.linkHello l (.good h)) s = exec (.linkHello l (.good h)) u.settle ∧ u.dirMode = s.dirMode ∧
      (s.dirMode.isFlushing = false → u.settle = u) ∧ s.emptied u l .listening (s.link l).enabled ∧
      (u.settle.link l).state = .listening ∧ u.events.pending.getLsbD 4 = true ∧
      (s.events.enables.getLsbD 4 = true → s.events.exceptional = true →
        u.out.getLast? = some (.notice .linkLost s.now (.linkLost l true undone abandoned undelivered))))

/-- R156, R157, R160, R161, R168: PRESENCE, till messages and damaged frames on a link in each of its states. R178, R190, R192: on the
service link a frame of an unknown kind is refused UNKNOWN-COMMAND; a frame of any command or answer that fails its check is discarded; a
body of a length not allowed is refused BAD-FIELD naming the body for every command, in the form of an answer for every answer, and
counted for a POSTED; a form or action code that the layout does not give is refused BAD-FIELD. -/
def Obligations.FramesArriveOrAreDiscarded : Prop :=
  (∀ (l : Fin 8) (m : TillMsg) (s : State),
     let x := s.link l
     ∃ p a d q : State, exec (.presence l (.good ())) s = .next p ∧ exec (.tillMessageArrival l (.good m)) s = .next a ∧
       exec (.tillMessageArrival l .damaged) s = .next d ∧ exec (.linkHello l .damaged) s = .next q ∧
       exec (.presence l .damaged) s = .next q ∧ q = d ∧
       (p = { s with links := p.links } ∧ a = { s with links := a.links } ∧ d = { s with links := d.links }) ∧
       (s.otherLinks p l ∧ s.otherLinks a l ∧ s.otherLinks d l) ∧
       p.link l = (if x.state = .up then { x with presenceTimer := x.presenceLimit } else x) ∧
       d.link l = (if x.state = .disabled then x else { x with badFrame := x.badFrame.bump }) ∧
       a.link l = match x.state with
         | .disabled => x
         | .listening => { x with dropped := x.dropped.bump }
         | .up => if x.inbound.length < 32 then { x with presenceTimer := x.presenceLimit, inbound := x.inbound ++ [m] }
           else { x with presenceTimer := x.presenceLimit, dropped := x.dropped.bump }) ∧
  (∀ (s : State) (kind : Word16) (ref : Word32) (tagGen : Option (Byte × Word16)) (field : Field),
     let named : Option (Nat × Nat) := tagGen.map (fun x => (x.1.toNat, x.2.toNat))
     exec (.unknownCommand (.body kind ref)) s = .next (s.queue (.result kind ref (.refused .unknownCommand none []))) ∧
     exec (.unknownCommand .badCheck) s = .next s ∧
     (∀ x ∈ commandRows (fun _ => .badCheck), exec x.1 s = .next s) ∧
     (∀ x ∈ commandRows (fun _ => .wrongLength ref), exec x.1 s =
       .next (s.queue (.result x.2 ref (.refused .badField (some .body) [])))) ∧
     (∀ x ∈ commandRows (fun _ => .badCode ref field), exec x.1 s =
       .next (s.queue (.result x.2 ref (.refused .badField (some field) [])))) ∧
     exec (.cardData .badCheck) s = .next s ∧ exec (.noSuchCard .badCheck) s = .next s ∧ exec (.referralAnswer .badCheck) s = .next s ∧
     exec (.posted .badCheck) s = .next s ∧
     exec (.cardData (.wrongLength tagGen)) s = .next (s.queue (.answerRefused 320#16 named)) ∧
     exec (.noSuchCard (.wrongLength tagGen)) s = .next (s.queue (.answerRefused 321#16 named)) ∧
     exec (.referralAnswer (.wrongLength tagGen)) s = .next (s.queue (.answerRefused 322#16 named)) ∧
     exec (.posted .wrongLength) s = .next { s with counters := { s.counters with badPosted := s.counters.badPosted.bump } })

/-! ### The host's answers and the journal -/

/-- R103, R111, R112, R114, R9, R10: CARD-DATA and NO-SUCH-CARD for a SENT fetch whose way is reserved. `u` is the part once the record is
installed or the fetch's way released; then the wait list is dealt with in its order. R77: a lone waiting REVERSE has its stack check made
again after CARD-DATA. It is declined NOT-FOUND when its entry has left the stack, OUT-OF-ORDER when a STANDING entry above it has been
pushed since its take-off, and evaluated otherwise, whatever stood above it at take-off. That an entry pushed since which is REVERSING by
now does not stand in its way is DEDUCED, notes/assumptions/24. -/
def Obligations.FetchAnswersEndTheFetch : Prop :=
  ∀ (tag : Byte) (gen : Word16) (w : CardWire) (x : HostEntry) (f : Fetch) (s : State), s.request tag.toNat = some x →
    x.gen = gen.toNat → x.kind = .fetch f → f.sent = true → s.reservedFor f → (s.dirSet f.set).inOrder f.set →
    let freed (u : State) : Prop := u.request tag.toNat = none ∧ (∀ k, k ≠ tag.toNat → u.request k = s.request k) ∧ s.otherSets u f.set
    ((∃ d, readCard w = some d ∧ d.card = f.card ∧ s.installable d = true) →
      (s.dirMode.isFlushing = false → ∃ u : State,
        exec (.cardData (.body tag gen w)) s = .next (u.serveWaiters f.waiters (serveInstalled f.card)).settle ∧
        u = { s with requests := u.requests, dir := u.dir, nextStay := s.nextStay + 1 } ∧ freed u ∧ u.mostRecent f.card ∧
        (∃ d, readCard w = some d ∧ u.recordOf f.card = some (sealRecord d 0, s.nextStay)) ∧
        (f.waiters = [] → exec (.cardData (.body tag gen w)) s = .next u) ∧
        ∀ (l slot : Nat) (e : ReplyEntry) (x : StackEntry) (n : NotedTill), f.waiters = [⟨l, slot⟩] → s.entry l slot = some e →
          e.bound = .entry x → e.noted = some n →
          let declined (r : Reason) : Prop := ∃ t : State, exec (.cardData (.body tag gen w)) s = .next t ∧
            t = { u with links := t.links, tills := t.tills } ∧ s.marked t n e.bound false ∧ s.otherLinks t l ∧
            t.link l = { s.link l with replies := (s.link l).replies.map (fun y =>
              if y.slot = slot then { y with state := .ready (declinedReply e.msg r none) none none } else y) }
          ((∀ y ∈ (s.till n.till).stack, y.id ≠ x.id) → declined .notFound) ∧
          ∀ (above below : List StackEntry) (y : StackEntry), (s.till n.till).stack = above ++ y :: below → y.id = x.id →
            (∀ z ∈ above, z.id ≠ x.id) →
            ((∃ z ∈ above, z.reversing = false ∧ e.nextEntry ≤ z.id) → declined .outOfOrder) ∧
            ((∀ z ∈ above, z.reversing = false → z.id < e.nextEntry) →
              exec (.cardData (.body tag gen w)) s = .next (evaluate l e f.card u).settle)) ∧
      (s.dirMode.isFlushing = true → ∃ u : State,
        exec (.cardData (.body tag gen w)) s = .next (u.serveWaiters f.waiters serveFlushed).settle ∧
        u = { s with requests := u.requests, dir := u.dir } ∧ freed u ∧ u.findWay f.card = none)) ∧
    ((¬ ∃ d, readCard w = some d ∧ d.card = f.card ∧ s.installable d = true) →
      exec (.cardData (.body tag gen w)) s = .next (s.queue (.answerRefused Kind.cardData (some (tag.toNat, gen.toNat)))).settle) ∧
    (s.dirMode.isFlushing = false → ∃ u : State,
      exec (.noSuchCard (.body tag gen ())) s = .next (u.serveWaiters f.waiters serveUnknown).settle ∧
      u = { s with requests := u.requests, dir := u.dir } ∧ freed u ∧ u.findWay f.card = none ∧
      (u.dirSet f.set).ways = ⟨f.way, .invalid⟩ :: (s.dirSet f.set).ways.filter (fun w => decide (w.no ≠ f.way)) ∧
      ∀ l slot e, f.waiters = [⟨l, slot⟩] → s.entry l slot = some e → e.bound = .free → ∃ t : State,
        exec (.noSuchCard (.body tag gen ())) s = .next t ∧ t = { u with links := t.links } ∧ s.otherLinks t l ∧
        t.link l = { s.link l with replies := (s.link l).replies.map (fun y =>
          if y.slot = slot then { y with state := .ready (declinedReply e.msg .cardUnknown none) none none } else y) })

/-- R104: an answer whose tag and generation name no SENT entry. R131: a POSTED of any sequence `n` that is not that of a record from the
oldest held up to the highest sent. -/
def Obligations.LateAnswersAndInvalidPostedAreCounted : Prop :=
  (∀ (tag : Byte) (gen : Word16) (w : CardWire) (y : ReferralFields) (s : State),
     (∀ x, s.request tag.toNat = some x → x.gen ≠ gen.toNat ∨ ∃ f, x.kind = .fetch f ∧ f.sent = false) →
     let late (kind : Word16) : State :=
       { s with
         counters := { s.counters with late := s.counters.late.bump }
         events := { s.events with pending := s.events.pending ||| 8#16 }
         out := if s.events.enables.getLsbD 3 && s.events.routine
           then s.out ++ [.notice .lateAnswer s.now (.lateAnswer kind tag.toNat gen.toNat)] else s.out }
     exec (.cardData (.body tag gen w)) s = .next (late 320#16) ∧ exec (.noSuchCard (.body tag gen ())) s = .next (late 321#16) ∧
     exec (.referralAnswer (.body tag gen y)) s = .next (late 322#16)) ∧
  (∀ (n : Word32) (s : State),
     (∀ a h d, s.journal.records = a ++ h :: d → h.sequence = s.journal.highestSent → ∀ r ∈ a ++ [h], r.sequence ≠ n.toNat) →
     exec (.posted (.body n)) s = .next { s with counters := { s.counters with
       badPosted := if s.counters.badPosted.value < 65535 then { s.counters.badPosted with value := s.counters.badPosted.value + 1 }
         else { s.counters.badPosted with overflow := true } } })

/-- R116, R64, R79, R118, R16: the host's decision of a referral. A reply of no known outcome, a DECLINED one with no known reason and one
with an amount above 9,999,999 are refused BAD-FIELD, and the entry stays. Any other is relayed into the request's reply queue entry, with
the echo and the flags of the part; an abandoned one is reported undelivered. In WARMING a carried record of the card that the request
named is installed besides, into the card's own VALID way or the victim way; a record that is not installed leaves the relay as it is. -/
def Obligations.ReferralAnswersAreRelayed : Prop :=
  ∀ (tag : Byte) (gen : Word16) (y : ReferralFields) (x : HostEntry) (r : Referral) (s : State),
    s.request tag.toNat = some x → x.gen = gen.toNat → x.kind = .referral r →
    let bad : Prop := 2 < y.reply.outcome.toNat ∨
      y.reply.outcome = 2#8 ∧ (y.reply.reason = 0#8 ∨ 20 < y.reply.reason.toNat) ∨
      9999999 < y.reply.approved.toNat ∨ 9999999 < y.reply.bonus.toNat ∨ 9999999 < y.reply.core.toNat
    let named (card : Nat) : Prop :=
      (r.msg.kind = .enquiry ∨ r.msg.kind = .redeem ∨ r.msg.kind = .hold ∨ r.msg.kind = .reload ∨ r.msg.kind = .reverse) ∧
      requestCard r.msg r.bound = some card
    (bad → exec (.referralAnswer (.body tag gen y)) s =
      .next (s.queue (.answerRefused Kind.referralAnswer (some (tag.toNat, gen.toNat)))).settle) ∧
    (¬ bad → (readReply r.msg y.reply).isSome = true) ∧
    ∀ reply, readReply r.msg y.reply = some reply →
    (reply.hostDecided = true ∧ reply.training = false ∧ reply.standIn = false ∧ reply.lane = r.msg.lane ∧ reply.ref = replyRef r.msg ∧
      reply.approved = y.reply.approved.toNat ∧ reply.bonus = y.reply.bonus.toNat ∧ reply.core = y.reply.core.toNat ∧
      reply.free = if y.reply.flags.getLsbD 3 then some y.reply.free.toNat else none) ∧
    (r.abandoned = true → ∃ u t : State, exec (.referralAnswer (.body tag gen y)) s = .next t ∧ t = u.settle ∧
      u = { s with requests := u.requests, out := s.out ++ [.undelivered tag.toNat gen.toNat reply] } ∧
      u.request tag.toNat = none ∧ ∀ k, k ≠ tag.toNat → u.request k = s.request k) ∧
    ∀ e, r.abandoned = false → s.entry r.link r.slot = some e →
      let relayed (u : State) : Prop :=
        u.request tag.toNat = none ∧ (∀ k, k ≠ tag.toNat → u.request k = s.request k) ∧ s.otherLinks u r.link ∧
        u.link r.link = { s.link r.link with replies := (s.link r.link).replies.map (fun z =>
          if z.slot = r.slot then { z with state := .ready reply none (some (tag.toNat, gen.toNat)) } else z) }
      (s.dirMode ≠ .warming ∨ (∀ w d, y.record = some w → readCard w = some d →
          ¬ named d.card ∨ s.names d.card = true ∨ s.installable d = false ∨ s.findWay d.card = none ∧ s.victim d.card = none ∨
          ∃ no c, s.findWay d.card = some ⟨no, .reserved c⟩) →
        ∃ u t : State, exec (.referralAnswer (.body tag gen y)) s = .next t ∧ t = u.settle ∧
          u = { s with
            requests := u.requests, links := u.links
            tills := if reply.outcome = .declined then (s.clearMark e).tills else s.tills } ∧ relayed u) ∧
      ∀ w d no, s.dirMode = .warming → y.record = some w → readCard w = some d → named d.card →
        s.names d.card = false → s.installable d = true →
        (s.findWay d.card = none ∧ s.victim d.card = some no ∨ ∃ old stay, s.findWay d.card = some ⟨no, .valid old stay⟩) →
        (s.dirSet (setOf d.card)).inOrder (setOf d.card) →
        ∃ t : State, exec (.referralAnswer (.body tag gen y)) s = .next t ∧
          t = { s with
            requests := t.requests, links := t.links, dir := t.dir, nextStay := s.nextStay + 1
            tills := if reply.outcome = .declined then (s.clearMark e).tills else s.tills } ∧ relayed t ∧
          t.recordOf d.card = some (sealRecord d 0, s.nextStay) ∧ t.mostRecent d.card ∧ s.otherSets t (setOf d.card) ∧
          ∀ c x, c ≠ d.card → s.findWay c = some x → x.no ≠ no → t.findWay c = some x

/-- R130, R108, R134: a valid POSTED of sequence `n`, that of the record `r`, which stands at or before the highest sent. The records `a`,
of which `r` is the last, leave the queue; the gated replies that awaited them become READY; the unposted counts of their cards fall; the
fetch gates that they held open. -/
def Obligations.PostedRemovesTheRecordsUpToIt : Prop :=
  ∀ (n : Word32) (a b : List JournalRecord) (r : JournalRecord) (s : State), TablesCanonical s → (∀ k, (s.dirSet k).inOrder k) →
    s.dirMode.isFlushing = false → s.journal.records = a ++ b → a.getLast? = some r → r.sequence = n.toNat →
    (∀ x ∈ a.dropLast, x.sequence ≠ n.toNat ∧ x.sequence ≠ s.journal.highestSent) →
    (∃ h ∈ r :: b, h.sequence = s.journal.highestSent) →
    ∃ t : State, exec (.posted (.body n)) s = .next t ∧
      t = { s with
        journal := { s.journal with
          records := b, highestPosted := n.toNat, highArmed := s.journal.highArmed || decide (b.length ≤ 3072) }
        links := t.links, dir := t.dir, requests := t.requests, events := t.events, out := t.out, fault := t.fault
        counters := t.counters } ∧
      (∀ l, t.link l = { s.link l with replies := (s.link l).replies.map (fun e =>
        match e.state with
        | .gated reply undo awaited _ =>
          if awaited ∈ a.map (fun x => x.sequence) then { e with state := .ready reply (some undo) none } else e
        | _ => e) }) ∧
      (∀ card x stay, s.recordOf card = some (x, stay) → x.verifies = true → t.recordOf card =
        some (sealRecord x.data (x.unposted - (a.filter (fun y => decide (y.card = card))).length), stay)) ∧
      (∀ tag, s.fetchAt tag = none → t.request tag = s.request tag) ∧
      (∀ tag g o timer f, s.request tag = some ⟨g, o, timer, .fetch f⟩ → t.request tag =
        if f.sent = false ∧ (∃ y ∈ a, y.card = f.card) ∧ (∀ y ∈ b, y.card ≠ f.card)
          then some ⟨g, o, s.limits.hostAnswer, .fetch { f with sent := true }⟩
        else some ⟨g, o, timer, .fetch f⟩)

/-- R129, R178, R192: the message at the front of the service link is transmitted. A JOURNAL carries the highest posted so far and its
sequence becomes the highest sent; any other message leaves as it was queued. -/
def Obligations.MessagesLeaveInOrder : Prop :=
  ∀ (m : HostMsg) (rest : List HostMsg) (s : State), s.out = m :: rest →
    (∀ r posted, m = .journal r posted →
      exec .journalSend s = .next { s with
        out := rest, sentToHost := s.sentToHost ++ [.journal r s.journal.highestPosted]
        journal := { s.journal with highestSent := r.sequence } } ∧
      exec .serviceMessageTransmitted s = .next s) ∧
    ((∀ r posted, m ≠ .journal r posted) →
      exec .serviceMessageTransmitted s = .next { s with out := rest, sentToHost := s.sentToHost ++ [m] } ∧
      exec .journalSend s = .next s)

/-! ### Take-off -/

/-- R162, R141: with the link not UP, its inbound queue empty, 32 entries in its reply queue, or another kind of message at the front, no
take-off of the row happens, and that the row then changes nothing is the model's choice (notes/assumptions/1); a message whose lane
resolves to no till is declined NOT-MAPPED, whatever its kind. -/
def Obligations.TakeOffNeedsAMessageAndAMappedLane : Prop :=
  ∀ (l : Fin 8) (k : TillKind) (s : State),
    ((s.link l).state ≠ .up ∨ (s.link l).inbound = [] ∨ 32 ≤ (s.link l).replies.length →
      exec (takeOffOf k l) s = .next s) ∧
    ∀ m rest, s.Taking l m rest →
      (takeOffOf m.kind l ≠ takeOffOf k l → exec (takeOffOf k l) s = .next s) ∧
      (s.resolve l m.lane.toNat = none → ∃ t : State, exec (takeOffOf m.kind l) s = .next t ∧
        t = { s with links := t.links, nextSlot := s.nextSlot + 1 } ∧ s.otherLinks t l ∧
        t.link l = s.takenLink l m rest none .free (.ready
          { lane := m.lane, kind := kindByte m.kind, outcome := .declined, reason := some .notMapped, training := false
            standIn := false, hostDecided := false, free := none, approved := 0, bonus := 0, core := 0, ref := replyRef m
            report := ShiftReport.zero } none none))

/-- R80, R99, R152: the seven money requests of a training till whose fields are in order are answered at once, whatever the till's state;
a RELOAD, REDEEM, HOLD or COMPLETE for its amount, the others for 0. -/
def Obligations.TrainingTillsAreAnsweredAtOnce : Prop :=
  ∀ (l : Fin 8) (m : TillMsg) (rest : List TillMsg) (n : NotedTill) (s : State), s.Taking l m rest →
    s.resolve l m.lane.toNat = some n → n.till < 16 → fieldsGood m →
    (readsAmount m → 1 ≤ m.amount.toNat ∧ m.amount.toNat ≤ 9999999) →
    let x := if m.kind = .redeem ∨ m.kind = .hold ∨ m.kind = .reload ∨ m.kind = .complete then m.amount.toNat else 0
    ∃ t : State, exec (takeOffOf m.kind l) s = .next t ∧ t = { s with links := t.links, nextSlot := s.nextSlot + 1 } ∧ s.otherLinks t l ∧
      t.link l = s.takenLink l m rest (some n) .free (.ready
        { lane := m.lane, kind := kindByte m.kind, outcome := .approved, reason := none, training := true, standIn := false
          hostDecided := false, free := none, approved := x, bonus := 0, core := x, ref := replyRef m, report := ShiftReport.zero }
        none none)

/-- R61, R85, R88: the field checks before the till's state: a reference of 0, an amount of 0 or above 9,999,999, then the CLOSED till. -/
def Obligations.MoneyRequestsFailTheirFirstChecks : Prop :=
  ∀ (l : Fin 8) (m : TillMsg) (rest : List TillMsg) (n : NotedTill) (s : State), s.Taking l m rest →
    s.resolve l m.lane.toNat = some n → 16 ≤ n.till →
    let declines (reason : Reason) : Prop := ∃ t : State, exec (takeOffOf m.kind l) s = .next t ∧
      t = { s with links := t.links, nextSlot := s.nextSlot + 1 } ∧ s.otherLinks t l ∧
      t.link l = s.takenLink l m rest (some n) .free (.ready (declinedReply m reason none) none none)
    ((m.kind = .redeem ∨ m.kind = .reload ∨ m.kind = .reverse ∨ m.kind = .complete) → m.tillRef = 0#32 → declines .badRequest) ∧
    ((m.kind = .hold ∨ m.kind = .complete ∨ m.kind = .release) → m.holdRef = 0#32 → declines .badRequest) ∧
    ((m.kind = .enquiry ∨ m.kind = .redeem ∨ m.kind = .hold ∨ m.kind = .reload) → cardOfBcd m.card = none → declines .badRequest) ∧
    (∀ code, m.kind = .unknown code → declines .badRequest) ∧
    ((m.kind = .redeem ∨ m.kind = .hold) → m.allowPartial ≠ 0#8 → m.allowPartial ≠ 1#8 → declines .badRequest) ∧
    (fieldsGood m →
      (readsAmount m → (m.amount.toNat = 0 ∨ 9999999 < m.amount.toNat) → declines .badAmount) ∧
      ((readsAmount m → 1 ≤ m.amount.toNat ∧ m.amount.toNat ≤ 9999999) → (s.till n.till).isOpen = false → declines .tillClosed))

/-- R149, R150, R152: OPEN-TILL and CLOSE-TILL of a till in each state. `t₀` is the till as the request finds it. -/
def Obligations.TillShiftsOpenAndClose : Prop :=
  ∀ (l : Fin 8) (m : TillMsg) (rest : List TillMsg) (n : NotedTill) (s : State), s.Taking l m rest →
    s.resolve l m.lane.toNat = some n →
    let t₀ := s.till n.till
    let reply (outcome : Decision) (reason : Option Reason) (shift : Nat) : TillReply :=
      { lane := m.lane, kind := kindByte m.kind, outcome := outcome, reason := reason, training := decide (n.till < 16), standIn := false
        hostDecided := false, free := none, approved := 0, bonus := 0, core := 0, ref := m.tillRef
        report := if outcome = .approved
          then ⟨shift, t₀.shift, t₀.debitTotal, t₀.creditTotal, t₀.debitCount, t₀.creditCount, t₀.overflow⟩ else ⟨0, 0, 0, 0, 0, 0, false⟩ }
    let taken (t : State) (y : Till) (r : TillReply) : Prop :=
      t = { s with links := t.links, tills := t.tills, nextSlot := s.nextSlot + 1 } ∧ s.otherLinks t l ∧
      (∀ k, k ≠ n.till → t.till k = s.till k) ∧ t.till n.till = y ∧ t.link l = s.takenLink l m rest (some n) .free (.ready r none none)
    (m.kind = .openTill → ∃ t : State, exec (.openTill l) s = .next t ∧
      if t₀.isOpen then taken t t₀ (reply .declined (some .alreadyOpen) 0)
      else taken t
        { t₀ with isOpen := true, shift := (t₀.shift + 1) % 65536, debitTotal := 0, creditTotal := 0, debitCount := 0, creditCount := 0
                  overflow := false }
        (reply .approved none ((t₀.shift + 1) % 65536))) ∧
    (m.kind = .closeTill → ∃ t : State, exec (.closeTill l) s = .next t ∧
      if t₀.isOpen then taken t { t₀ with isOpen := false, stack := [] } (reply .approved none t₀.shift)
      else taken t t₀ (reply .declined (some .tillClosed) 0))

/-! ### Requests that reach a resident record -/

/-- R65, R44, R43, R4: an ENQUIRY for a card that is resident, ACTIVE or BLOCKED; R29, R30: one for a card with no program. -/
def Obligations.EnquiryReportsTheFreeFunds : Prop :=
  (∀ (l : Fin 8) (m : TillMsg) (rest : List TillMsg) (n : NotedTill) (card : Nat) (p : Program) (r : CardRecord) (stay : Nat) (s : State),
      s.Trading l m rest n → m.kind = .enquiry → cardOfBcd m.card = some card → s.programOf card = some p → s.Hit card r stay →
      s.NothingToForfeit r →
      let core : Nat := r.data.core - ((s.holds.filter (fun h => decide (h.card = card))).map (fun h => h.core)).sum
      let bonus : Nat := if (∃ day ∈ r.data.expiry, s.date ≤ day) ∧ 0 < r.data.bonus
        then r.data.bonus - ((s.holds.filter (fun h => decide (h.card = card))).map (fun h => h.bonus)).sum else 0
      let reply : TillReply :=
        { lane := m.lane, kind := 3#8, outcome := .approved, reason := none, training := false, standIn := false, hostDecided := false
          free := some (bonus + core), approved := 0, bonus := bonus, core := core, ref := m.tillRef, report := ShiftReport.zero }
      ∃ t : State, exec (.enquiry l) s = .next t ∧
        t = { s with dir := t.dir, links := t.links, nextSlot := s.nextSlot + 1 } ∧ s.otherLinks t l ∧ s.otherSets t (setOf card) ∧
        s.otherCards t card ∧ t.recordOf card = some (r, stay) ∧ t.mostRecent card ∧
        t.link l = s.takenLink l m rest (some n) .free (.ready
          (if r.data.status = .blocked then declinedReply m .cardBlocked (some (bonus + core)) else reply) none none)) ∧
  ∀ (l : Fin 8) (m : TillMsg) (rest : List TillMsg) (n : NotedTill) (card : Nat) (s : State),
    s.Trading l m rest n → m.kind = .enquiry → cardOfBcd m.card = some card → s.programOf card = none →
    s.declines l m rest n .free .noProgram

/-- R58, R43, R127, R138: the forfeit of an expired bonus at a card's touch, here an ENQUIRY's. With room for its record, what no hold
holds of the bonus leaves the purse and a FORFEIT record joins that takes no undo slot; with none, nothing is forfeited, and neither the
refusing condition nor JOURNAL-FULL is touched. Either way the reply counts none of the bonus as free. -/
def Obligations.AnExpiredBonusIsForfeitedAtATouch : Prop :=
  ∀ (l : Fin 8) (m : TillMsg) (rest : List TillMsg) (n : NotedTill) (card : Nat) (p : Program) (r : CardRecord) (stay : Nat) (s : State),
    s.Trading l m rest n → m.kind = .enquiry → cardOfBcd m.card = some card → s.programOf card = some p → s.Hit card r stay →
    (∀ day ∈ r.data.expiry, day < s.date) →
    let held : Nat := ((s.holds.filter (fun h => decide (h.card = card))).map (fun h => h.bonus)).sum
    let core : Nat := r.data.core - ((s.holds.filter (fun h => decide (h.card = card))).map (fun h => h.core)).sum
    held < r.data.bonus →
    let joined : JournalRecord :=
      { sequence := s.journal.nextSeq, kind := .forfeit, card := card, origin := none
        bonusDelta := -((r.data.bonus - held : Nat) : Int), coreDelta := 0, forfeited := none, undone := none, date := s.date
        instant := s.now }
    let reply : TillReply :=
      { lane := m.lane, kind := 3#8, outcome := .approved, reason := none, training := false, standIn := false, hostDecided := false
        free := some core, approved := 0, bonus := 0, core := core, ref := m.tillRef, report := ShiftReport.zero }
    let replied (t : State) : Prop :=
      s.otherLinks t l ∧ s.otherSets t (setOf card) ∧ s.otherCards t card ∧ t.mostRecent card ∧
      t.link l = s.takenLink l m rest (some n) .free (.ready
        (if r.data.status = .blocked then declinedReply m .cardBlocked (some core) else reply) none none)
    (s.journal.records.length + s.journal.reserved + 1 ≤ 4096 → ∃ t : State, exec (.enquiry l) s = .next t ∧
      t = { s with
        dir := t.dir, links := t.links, nextSlot := s.nextSlot + 1, events := t.events, out := t.out
        journal := { s.journal with
          records := s.journal.records ++ [joined], nextSeq := nextSequence s.journal.nextSeq
          highArmed := s.journal.highArmed && decide (s.journal.records.length ≠ 3072) } } ∧
      replied t ∧ t.recordOf card = some (sealRecord { r.data with bonus := held } (r.unposted + 1), stay) ∧
      (s.journal.records.length ≠ 3072 → t.events = s.events ∧ t.out = s.out ++ [.journal joined 0])) ∧
    (4096 < s.journal.records.length + s.journal.reserved + 1 → ∃ t : State, exec (.enquiry l) s = .next t ∧
      t = { s with dir := t.dir, links := t.links, nextSlot := s.nextSlot + 1 } ∧ replied t ∧ t.recordOf card = some (r, stay))

/-- R67, R48, R49, R47, R126, R128, R133: an approved REDEEM. The debit leaves the purses at once, the use is counted, a DEBIT record and
its undo slot are admitted, and the reply waits as the program's gating says. Where the Journal Queue has no room for both, the REDEEM is
declined SYSTEM-BUSY, and the refusing condition is set (R138). The declines before that, in their order: NO-PROGRAM (R30), CARD-BLOCKED,
LIMIT-REACHED, INSUFFICIENT. -/
def Obligations.RedeemTakesTheDebitAtApproval : Prop :=
  (∀ (l : Fin 8) (m : TillMsg) (rest : List TillMsg) (n : NotedTill) (card : Nat) (p : Program) (r : CardRecord) (stay : Nat) (x : Debit)
     (s : State),
     s.Trading l m rest n → m.kind = .redeem → fieldsGood m → 1 ≤ m.amount.toNat → m.amount.toNat ≤ 9999999 →
     cardOfBcd m.card = some card → s.programOf card = some p → s.Hit card r stay → s.NothingToForfeit r → r.data.status = .active →
     limitReached p.limits.dailyUseLimit s.date r.data = false →
     debitFor m.amount.toNat p.limits.bonusCap (s.freeBonus r.data) (s.freeCore r.data) (decide (m.allowPartial = 1#8)) = some x →
     let used : CardData :=
       { r.data with
         bonus := r.data.bonus - x.bonus, core := r.data.core - x.core
         uses := min ((if r.data.stamp = s.date then r.data.uses else 0) + 1) 255, stamp := s.date }
     let joined : JournalRecord :=
       { sequence := s.journal.nextSeq, kind := .debit, card := card, origin := some (s.tillFields n m), bonusDelta := -(x.bonus : Int)
         coreDelta := -(x.core : Int), forfeited := none, undone := none, date := s.date, instant := s.now }
     let undo : UndoRecord :=
       { card := card, effect := .redeem x.bonus x.core, stay := some stay, sequence := some s.journal.nextSeq
         origin := some (s.tillFields n m) }
     let reply : TillReply :=
       { lane := m.lane, kind := 4#8, outcome := if x.partly then .partly else .approved, reason := none, training := false
         standIn := false, hostDecided := false, free := some (s.freeBonus used + s.freeCore used), approved := x.amount
         bonus := x.bonus, core := x.core, ref := m.tillRef, report := ShiftReport.zero }
     (s.journal.records.length + s.journal.reserved + 2 ≤ 4096 → ∃ t : State, exec (.redeem l) s = .next t ∧
       t = { s with
         dir := t.dir, links := t.links, nextSlot := s.nextSlot + 1, journal := s.journal.withUndoable joined, events := t.events
         out := t.out } ∧
       s.otherLinks t l ∧ s.otherSets t (setOf card) ∧ s.otherCards t card ∧ t.mostRecent card ∧
       t.recordOf card = some (sealRecord used (r.unposted + 1), stay) ∧
       t.link l = s.takenLink l m rest (some n) .free (gatedBy p.limits.gating s.limits.gate s.journal.nextSeq reply undo) ∧
       (s.journal.records.length ≠ 3072 → t.events = s.events ∧ t.out = s.out ++ [.journal joined 0])) ∧
     (4096 < s.journal.records.length + s.journal.reserved + 2 → ∃ t : State, exec (.redeem l) s = .next t ∧
       t = { s.full 4#16 with dir := t.dir, links := t.links, nextSlot := s.nextSlot + 1 } ∧
       s.otherLinks t l ∧ s.otherSets t (setOf card) ∧ s.otherCards t card ∧ t.mostRecent card ∧ t.recordOf card = some (r, stay) ∧
       t.link l = s.takenLink l m rest (some n) .free
         (.ready (declinedReply m .systemBusy (some (s.freeBonus r.data + s.freeCore r.data))) none none))) ∧
  ∀ (l : Fin 8) (m : TillMsg) (rest : List TillMsg) (n : NotedTill) (card : Nat) (s : State),
    s.Trading l m rest n → m.kind = .redeem → fieldsGood m → 1 ≤ m.amount.toNat → m.amount.toNat ≤ 9999999 →
    cardOfBcd m.card = some card →
    (s.programOf card = none → s.declines l m rest n .free .noProgram) ∧
    ∀ p r stay, s.programOf card = some p → s.Hit card r stay → s.NothingToForfeit r →
      let declined (reason : Reason) : Prop := s.declinesAgainst l m rest n .free card r stay reason
      (r.data.status = .blocked → declined .cardBlocked) ∧
      (r.data.status = .active → limitReached p.limits.dailyUseLimit s.date r.data = true → declined .limitReached) ∧
      (r.data.status = .active → limitReached p.limits.dailyUseLimit s.date r.data = false →
        debitFor m.amount.toNat p.limits.bonusCap (s.freeBonus r.data) (s.freeCore r.data) (decide (m.allowPartial = 1#8)) = none →
        declined .insufficient)

/-- R70, R53: an approved RELOAD. The balances stay until delivery; a RELOAD record and its undo slot are admitted. Where the Journal
Queue has no room for both, the RELOAD is declined SYSTEM-BUSY, and the refusing condition is set (R126, R138). The declines before that,
in their order: NO-PROGRAM (R30), CARD-BLOCKED, OVER-MAXIMUM. -/
def Obligations.ReloadLeavesTheBalancesUntilDelivery : Prop :=
  (∀ (l : Fin 8) (m : TillMsg) (rest : List TillMsg) (n : NotedTill) (card : Nat) (p : Program) (r : CardRecord) (stay : Nat) (s : State),
     s.Trading l m rest n → m.kind = .reload → fieldsGood m → 1 ≤ m.amount.toNat → m.amount.toNat ≤ 9999999 →
     cardOfBcd m.card = some card → s.programOf card = some p → s.Hit card r stay → s.NothingToForfeit r → r.data.status = .active →
     r.data.core + s.pendingSum card Effect.coreCredit + m.amount.toNat + s.pendingSum card Effect.coreDebit ≤ p.limits.maximumBalance →
     let joined : JournalRecord :=
       { sequence := s.journal.nextSeq, kind := .reload, card := card, origin := some (s.tillFields n m), bonusDelta := 0
         coreDelta := (m.amount.toNat : Int), forfeited := none, undone := none, date := s.date, instant := s.now }
     let undo : UndoRecord :=
       { card := card, effect := .reload m.amount.toNat, stay := some stay, sequence := some s.journal.nextSeq
         origin := some (s.tillFields n m) }
     let reply : TillReply :=
       { lane := m.lane, kind := 9#8, outcome := .approved, reason := none, training := false, standIn := false, hostDecided := false
         free := some (s.freeBonus r.data + s.freeCore r.data + m.amount.toNat), approved := m.amount.toNat, bonus := 0
         core := m.amount.toNat, ref := m.tillRef, report := ShiftReport.zero }
     (s.journal.records.length + s.journal.reserved + 2 ≤ 4096 → ∃ t : State, exec (.reload l) s = .next t ∧
       t = { s with
         dir := t.dir, links := t.links, nextSlot := s.nextSlot + 1, journal := s.journal.withUndoable joined, events := t.events
         out := t.out } ∧
       s.otherLinks t l ∧ s.otherSets t (setOf card) ∧ s.otherCards t card ∧ t.mostRecent card ∧
       t.recordOf card = some (sealRecord r.data (r.unposted + 1), stay) ∧
       t.link l = s.takenLink l m rest (some n) .free (gatedBy p.limits.gating s.limits.gate s.journal.nextSeq reply undo) ∧
       (s.journal.records.length ≠ 3072 → t.events = s.events ∧ t.out = s.out ++ [.journal joined 0])) ∧
     (4096 < s.journal.records.length + s.journal.reserved + 2 → ∃ t : State, exec (.reload l) s = .next t ∧
       t = { s.full 9#16 with dir := t.dir, links := t.links, nextSlot := s.nextSlot + 1 } ∧
       s.otherLinks t l ∧ s.otherSets t (setOf card) ∧ s.otherCards t card ∧ t.mostRecent card ∧ t.recordOf card = some (r, stay) ∧
       t.link l = s.takenLink l m rest (some n) .free
         (.ready (declinedReply m .systemBusy (some (s.freeBonus r.data + s.freeCore r.data))) none none))) ∧
  ∀ (l : Fin 8) (m : TillMsg) (rest : List TillMsg) (n : NotedTill) (card : Nat) (s : State),
    s.Trading l m rest n → m.kind = .reload → fieldsGood m → 1 ≤ m.amount.toNat → m.amount.toNat ≤ 9999999 →
    cardOfBcd m.card = some card →
    (s.programOf card = none → s.declines l m rest n .free .noProgram) ∧
    ∀ p r stay, s.programOf card = some p → s.Hit card r stay → s.NothingToForfeit r →
      let declined (reason : Reason) : Prop := s.declinesAgainst l m rest n .free card r stay reason
      (r.data.status = .blocked → declined .cardBlocked) ∧
      (r.data.status = .active →
        p.limits.maximumBalance <
          r.data.core + s.pendingSum card Effect.coreCredit + m.amount.toNat + s.pendingSum card Effect.coreDebit →
        declined .overMaximum)

/-- R86, R47, R81, R82, R84: an approved HOLD. A NEW hold joins the card's list, its key's note goes, the site's count and the use count
rise, and neither purse changes. The part remembers which hold the removed note told of (the model's own list, notes/assumptions/12).
R126, R138: where the Journal Queue has no room for its capture's record and slot, the HOLD is declined SYSTEM-BUSY, and the refusing
condition is set. The declines before that, in their order: DUPLICATE (R85), NO-PROGRAM (R30), CARD-BLOCKED, LIMIT-REACHED, HOLD-LIMIT,
INSUFFICIENT; and DUPLICATE for a HOLD that waited for its card's fetch while another took its key. -/
def Obligations.HoldReservesWithoutMovingMoney : Prop :=
  (∀ (l : Fin 8) (m : TillMsg) (rest : List TillMsg) (n : NotedTill) (site card : Nat) (p : Program) (r : CardRecord) (stay : Nat)
     (x : Debit) (s : State),
     s.Trading l m rest n → m.kind = .hold → fieldsGood m → 1 ≤ m.amount.toNat → m.amount.toNat ≤ 9999999 → n.site = some site →
     cardOfBcd m.card = some card → s.programOf card = some p → s.Hit card r stay → s.NothingToForfeit r → r.data.status = .active →
     limitReached p.limits.dailyUseLimit s.date r.data = false → s.holdByKey site m.holdRef = none →
     (s.holdsOf card).length < 8 → s.siteHoldCount site < 512 → s.holds.length < 32768 →
     debitFor m.amount.toNat p.limits.bonusCap (s.freeBonus r.data) (s.freeCore r.data) (decide (m.allowPartial = 1#8)) = some x →
     let h : Hold :=
       { id := s.nextHold, site := site, ref := m.holdRef, card := card, bonus := x.bonus, core := x.core, tip := p.limits.tipTolerance
         expiry := Reading.ofMs (s.now.ms + p.limits.holdLifetime * 60000), state := .new }
     (s.journal.records.length + s.journal.reserved + 2 ≤ 4096 → ∃ t : State, exec (.hold l) s = .next t ∧
       t = { s with
         dir := t.dir, links := t.links, nextSlot := s.nextSlot + 1, holds := s.holds ++ [h], nextHold := s.nextHold + 1
         notes := s.notes.filter (fun y => decide (¬ (y.site = site ∧ y.ref = m.holdRef))), siteHolds := t.siteHolds
         renoted := s.renoted ++ (s.notes.filter (fun y => decide (y.site = site ∧ y.ref = m.holdRef))).map (fun y => y.hold)
         journal := { s.journal with refusing := false } } ∧
       t.siteHoldCount site = s.siteHoldCount site + 1 ∧ (∀ k, k ≠ site → t.siteHoldCount k = s.siteHoldCount k) ∧
       s.otherLinks t l ∧ s.otherSets t (setOf card) ∧ s.otherCards t card ∧ t.mostRecent card ∧
       t.recordOf card = some (sealRecord { r.data with
         uses := min ((if r.data.stamp = s.date then r.data.uses else 0) + 1) 255, stamp := s.date } r.unposted, stay) ∧
       t.link l = s.takenLink l m rest (some n) .free (.ready
         { lane := m.lane, kind := 5#8, outcome := if x.partly then .partly else .approved, reason := none, training := false
           standIn := false, hostDecided := false, free := some (t.freeBonus r.data + t.freeCore r.data), approved := x.amount
           bonus := x.bonus, core := x.core, ref := m.holdRef, report := ShiftReport.zero }
         (some { card := card, effect := .hold s.nextHold, stay := some stay, sequence := none, origin := none }) none)) ∧
     (4096 < s.journal.records.length + s.journal.reserved + 2 → ∃ t : State, exec (.hold l) s = .next t ∧
       t = { s.full 5#16 with dir := t.dir, links := t.links, nextSlot := s.nextSlot + 1 } ∧
       s.otherLinks t l ∧ s.otherSets t (setOf card) ∧ s.otherCards t card ∧ t.mostRecent card ∧ t.recordOf card = some (r, stay) ∧
       t.link l = s.takenLink l m rest (some n) .free
         (.ready (declinedReply m .systemBusy (some (s.freeBonus r.data + s.freeCore r.data))) none none))) ∧
  (∀ (l : Fin 8) (m : TillMsg) (rest : List TillMsg) (n : NotedTill) (site card : Nat) (s : State),
    s.Trading l m rest n → m.kind = .hold → fieldsGood m → 1 ≤ m.amount.toNat → m.amount.toNat ≤ 9999999 → n.site = some site →
    cardOfBcd m.card = some card →
    ((s.holdByKey site m.holdRef).isSome = true → s.declines l m rest n .free .duplicate) ∧
    (s.holdByKey site m.holdRef = none → s.programOf card = none → s.declines l m rest n .free .noProgram) ∧
    ∀ p r stay, s.holdByKey site m.holdRef = none → s.programOf card = some p → s.Hit card r stay → s.NothingToForfeit r →
      let declined (reason : Reason) : Prop := s.declinesAgainst l m rest n .free card r stay reason
      let limit : Prop := 8 ≤ (s.holdsOf card).length ∨ 512 ≤ s.siteHoldCount site ∨ 32768 ≤ s.holds.length
      (r.data.status = .blocked → declined .cardBlocked) ∧
      (r.data.status = .active → limitReached p.limits.dailyUseLimit s.date r.data = true → declined .limitReached) ∧
      (r.data.status = .active → limitReached p.limits.dailyUseLimit s.date r.data = false →
        (limit → declined .holdLimit) ∧
        (¬ limit →
          debitFor m.amount.toNat p.limits.bonusCap (s.freeBonus r.data) (s.freeCore r.data) (decide (m.allowPartial = 1#8)) = none →
          declined .insufficient))) ∧
  ∀ (l : Nat) (e : ReplyEntry) (n : NotedTill) (site card : Nat) (p : Program) (r : CardRecord) (stay : Nat) (s : State),
    e.msg.kind = .hold → e.bound = .free → e.noted = some n → n.site = some site → s.programOf card = some p → s.Found card r stay →
    s.NothingToForfeit r → r.data.status = .active → limitReached p.limits.dailyUseLimit s.date r.data = false →
    (s.holdByKey site e.msg.holdRef).isSome = true → s.declinesWaiting l e card r stay .duplicate

/-- R88, R89, R50, R51: an approved COMPLETE of an OPEN hold. The capture leaves the purses at once, the hold is CAPTURING with parts of
0, and a CAPTURE record and its undo slot are admitted. Where the Journal Queue has no room for both, the COMPLETE is declined
SYSTEM-BUSY, the hold stays, and the refusing condition is set (R126, R138). R91: in FROZEN a COMPLETE bound to a hold whose card is not
resident, and in NORMAL one whose card's set has no victim, is declined UNAVAILABLE, and the hold stays; that the first holds for a card
in a RESERVED way too is deduced (notes/assumptions/27). R88, R94: NOT-FOUND for a hold that is not OPEN, TOO-LATE for a noted key, the
referral for an unknown one; R89: OVER-TOLERANCE; and TOO-LATE and NOT-FOUND for a COMPLETE that waited for its card's fetch while its
hold expired or went. That a hold whose note a later HOLD of its key removed is still too late is deduced (notes/assumptions/12). -/
def Obligations.CompleteCapturesTheHold : Prop :=
  (∀ (l : Fin 8) (m : TillMsg) (rest : List TillMsg) (n : NotedTill) (site : Nat) (h : Hold) (r : CardRecord) (stay : Nat) (x : Capture)
     (s : State),
     s.Trading l m rest n → m.kind = .complete → fieldsGood m → 1 ≤ m.amount.toNat → m.amount.toNat ≤ 9999999 → n.site = some site →
     s.holdByKey site m.holdRef = some h → s.holdById h.id = some h → h.state = .opened → s.Hit h.card r stay → s.NothingToForfeit r →
     captureFor h.bonus h.core h.tip m.amount.toNat (s.freeCore r.data) = some x →
     let paid : CardData := { r.data with bonus := r.data.bonus - x.bonus, core := r.data.core - (x.core + x.extra) }
     let joined : JournalRecord :=
       { sequence := s.journal.nextSeq, kind := .capture, card := h.card, origin := some (s.tillFields n m), bonusDelta := -(x.bonus : Int)
         coreDelta := -((x.core + x.extra : Nat) : Int), forfeited := none, undone := none, date := s.date, instant := s.now }
     let undo : UndoRecord :=
       { card := h.card, effect := .capture h.id x.bonus x.core x.extra, stay := some stay, sequence := some s.journal.nextSeq
         origin := some (s.tillFields n m) }
     (s.journal.records.length + s.journal.reserved + 2 ≤ 4096 → ∃ t : State, exec (.complete l) s = .next t ∧
       t = { s with
         dir := t.dir, links := t.links, nextSlot := s.nextSlot + 1, journal := s.journal.withUndoable joined, events := t.events
         out := t.out
         holds := s.holds.map (fun y => if y.id = h.id then { y with bonus := 0, core := 0, state := .capturing x.bonus x.core x.extra }
           else y) } ∧
       s.otherLinks t l ∧ s.otherSets t (setOf h.card) ∧ s.otherCards t h.card ∧ t.mostRecent h.card ∧
       t.recordOf h.card = some (sealRecord paid (r.unposted + 1), stay) ∧
       t.link l = s.takenLink l m rest (some n) (.hold h.id h.card) (gatedBy (s.gatingOf h.card) s.limits.gate s.journal.nextSeq
         { lane := m.lane, kind := 6#8, outcome := if x.partly then .partly else .approved, reason := none, training := false
           standIn := false, hostDecided := false, free := some (t.freeBonus paid + t.freeCore paid)
           approved := x.bonus + x.core + x.extra, bonus := x.bonus, core := x.core + x.extra, ref := m.tillRef
           report := ShiftReport.zero } undo) ∧
       (s.journal.records.length ≠ 3072 → t.events = s.events ∧ t.out = s.out ++ [.journal joined 0])) ∧
     (4096 < s.journal.records.length + s.journal.reserved + 2 → ∃ t : State, exec (.complete l) s = .next t ∧
       t = { s.full 6#16 with dir := t.dir, links := t.links, nextSlot := s.nextSlot + 1 } ∧
       s.otherLinks t l ∧ s.otherSets t (setOf h.card) ∧ s.otherCards t h.card ∧ t.mostRecent h.card ∧
       t.recordOf h.card = some (r, stay) ∧
       t.link l = s.takenLink l m rest (some n) (.hold h.id h.card)
         (.ready (declinedReply m .systemBusy (some (s.freeBonus r.data + s.freeCore r.data))) none none))) ∧
  (∀ (l : Fin 8) (m : TillMsg) (rest : List TillMsg) (n : NotedTill) (site : Nat) (h : Hold) (s : State),
     s.Trading l m rest n → m.kind = .complete → fieldsGood m → 1 ≤ m.amount.toNat → m.amount.toNat ≤ 9999999 → n.site = some site →
     s.holdByKey site m.holdRef = some h → h.state = .opened → s.passThrough h.card = false →
     (s.dirMode = .frozen ∧ s.recordOf h.card = none ∨
       s.dirMode = .normal ∧ s.findWay h.card = none ∧ s.victim h.card = none) →
     ∃ t : State, exec (.complete l) s = .next t ∧ t = { s with links := t.links, nextSlot := s.nextSlot + 1 } ∧ s.otherLinks t l ∧
       t.link l = s.takenLink l m rest (some n) (.hold h.id h.card) (.ready (declinedReply m .unavailable none) none none)) ∧
  (∀ (l : Fin 8) (m : TillMsg) (rest : List TillMsg) (n : NotedTill) (site : Nat) (s : State),
     s.Trading l m rest n → m.kind = .complete → fieldsGood m → 1 ≤ m.amount.toNat → m.amount.toNat ≤ 9999999 → n.site = some site →
     let known : Prop := ∃ y ∈ s.notes, y.site = site ∧ y.ref = m.holdRef
     (∀ h, s.holdByKey site m.holdRef = some h →
       (h.state ≠ .opened → s.declines l m rest n .free .notFound) ∧
       ∀ r stay, h.state = .opened → s.holdById h.id = some h → s.Hit h.card r stay → s.NothingToForfeit r →
         captureFor h.bonus h.core h.tip m.amount.toNat (s.freeCore r.data) = none →
         s.declinesAgainst l m rest n (.hold h.id h.card) h.card r stay .overTolerance) ∧
     (s.holdByKey site m.holdRef = none →
       (known → s.declines l m rest n .free .tooLate) ∧ (¬ known → s.refers l m rest n .free))) ∧
  ∀ (l : Nat) (e : ReplyEntry) (id card : Nat) (r : CardRecord) (stay : Nat) (s : State), e.msg.kind = .complete →
    e.bound = .hold id card → s.Found card r stay → s.NothingToForfeit r →
    let expired : Prop := (∃ y ∈ s.notes, y.hold = id) ∨ id ∈ s.renoted
    (s.holdById id = none → expired → s.declinesWaiting l e card r stay .tooLate) ∧
    (s.holdById id = none → ¬ expired → s.declinesWaiting l e card r stay .notFound) ∧
    ∀ h, s.holdById id = some h → h.state ≠ .opened → s.declinesWaiting l e card r stay .notFound

/-- R92: an approved RELEASE of an OPEN hold on a card whose bonus is in date. The hold is freed and its parts are free again. R93: in
FROZEN a RELEASE bound to a hold whose card is not resident, and in NORMAL one whose card's set has no victim, is taken without its card;
that the first holds for a card in a RESERVED way too is deduced (notes/assumptions/27). R92, R94: NOT-FOUND for a hold that is not OPEN,
TOO-LATE for a noted key, the referral for an unknown one; and TOO-LATE and NOT-FOUND for a RELEASE that waited for its card's fetch while
its hold expired or went. That a hold whose note a later HOLD of its key removed is still too late is deduced (notes/assumptions/12). -/
def Obligations.ReleaseFreesTheHold : Prop :=
  (∀ (l : Fin 8) (m : TillMsg) (rest : List TillMsg) (n : NotedTill) (site : Nat) (h : Hold) (r : CardRecord) (stay : Nat) (s : State),
     s.Trading l m rest n → m.kind = .release → m.holdRef ≠ 0#32 → n.site = some site → s.holdByKey site m.holdRef = some h →
     s.holdById h.id = some h → h.state = .opened → s.Hit h.card r stay → (inDate r.data s.date = true ∨ r.data.bonus = 0) →
     ∃ t : State, exec (.release l) s = .next t ∧
       t = { s with
         dir := t.dir, links := t.links, nextSlot := s.nextSlot + 1, holds := s.holds.filter (fun y => decide (y.id ≠ h.id))
         siteHolds := t.siteHolds } ∧
       t.siteHoldCount site = s.siteHoldCount site - 1 ∧ (∀ k, k ≠ site → t.siteHoldCount k = s.siteHoldCount k) ∧
       s.otherLinks t l ∧ s.otherSets t (setOf h.card) ∧ s.otherCards t h.card ∧ t.mostRecent h.card ∧
       t.recordOf h.card = some (r, stay) ∧
       t.link l = s.takenLink l m rest (some n) (.hold h.id h.card) (.ready
         { lane := m.lane, kind := 7#8, outcome := .approved, reason := none, training := false, standIn := false, hostDecided := false
           free := some (t.freeBonus r.data + t.freeCore r.data), approved := h.bonus + h.core, bonus := h.bonus, core := h.core
           ref := m.holdRef, report := ShiftReport.zero } none none)) ∧
  (∀ (l : Fin 8) (m : TillMsg) (rest : List TillMsg) (n : NotedTill) (site : Nat) (h : Hold) (s : State),
     s.Trading l m rest n → m.kind = .release → m.holdRef ≠ 0#32 → n.site = some site → s.holdByKey site m.holdRef = some h →
     s.holdById h.id = some h → h.state = .opened → s.passThrough h.card = false →
     (s.dirMode = .frozen ∧ s.recordOf h.card = none ∨
       s.dirMode = .normal ∧ s.findWay h.card = none ∧ s.victim h.card = none) →
     ∃ t : State, exec (.release l) s = .next t ∧
       t = { s with
         links := t.links, nextSlot := s.nextSlot + 1, holds := s.holds.filter (fun y => decide (y.id ≠ h.id)), siteHolds := t.siteHolds } ∧
       t.siteHoldCount h.site = s.siteHoldCount h.site - 1 ∧ (∀ k, k ≠ h.site → t.siteHoldCount k = s.siteHoldCount k) ∧
       s.otherLinks t l ∧
       t.link l = s.takenLink l m rest (some n) (.hold h.id h.card) (.ready
         { lane := m.lane, kind := 7#8, outcome := .approved, reason := none, training := false, standIn := false, hostDecided := false
           free := none, approved := h.bonus + h.core, bonus := h.bonus, core := h.core, ref := m.holdRef, report := ShiftReport.zero }
         none none)) ∧
  (∀ (l : Fin 8) (m : TillMsg) (rest : List TillMsg) (n : NotedTill) (site : Nat) (s : State),
     s.Trading l m rest n → m.kind = .release → m.holdRef ≠ 0#32 → n.site = some site →
     let known : Prop := ∃ y ∈ s.notes, y.site = site ∧ y.ref = m.holdRef
     (∀ h, s.holdByKey site m.holdRef = some h → h.state ≠ .opened → s.declines l m rest n .free .notFound) ∧
     (s.holdByKey site m.holdRef = none →
       (known → s.declines l m rest n .free .tooLate) ∧ (¬ known → s.refers l m rest n .free))) ∧
  ∀ (l : Nat) (e : ReplyEntry) (id card : Nat) (r : CardRecord) (stay : Nat) (s : State), e.msg.kind = .release →
    e.bound = .hold id card → s.Found card r stay → s.NothingToForfeit r →
    let expired : Prop := (∃ y ∈ s.notes, y.hold = id) ∨ id ∈ s.renoted
    (s.holdById id = none → expired → s.declinesWaiting l e card r stay .tooLate) ∧
    (s.holdById id = none → ¬ expired → s.declinesWaiting l e card r stay .notFound) ∧
    ∀ h, s.holdById id = some h → h.state ≠ .opened → s.declinesWaiting l e card r stay .notFound

/-- R75, R76, R54, R78: an approved REVERSE against the card's record: of a DEBIT or CAPTURE entry, and of a STAND-IN entry whatever
pass-through range its card lies in. The entry is marked REVERSING, the balances stay until delivery, an expired bonus part is forfeited,
and a REVERSAL record and its undo slot are admitted. R78: the REVERSE of a STAND-IN entry whose card is in no way is journal-only, in
every directory mode. Where the Journal Queue has no room for record and slot, either is declined SYSTEM-BUSY with its entry's mark
cleared, and the refusing condition is set (R126, R138, R79). A REVERSE that a purse has no room for is declined OVER-MAXIMUM. R75: the
stack check finds the topmost entry of the reference; NOT-FOUND when there is none or it is REVERSING, OUT-OF-ORDER when a STANDING entry
is above. -/
def Obligations.ReverseMarksItsEntry : Prop :=
  (∀ (l : Fin 8) (m : TillMsg) (rest : List TillMsg) (n : NotedTill) (e : StackEntry) (s : State),
     s.Trading l m rest n → m.kind = .reverse → m.tillRef ≠ 0#32 → stackCheck m.tillRef false (s.till n.till).stack = .found e →
     let room : Prop := s.journal.records.length + s.journal.reserved + 2 ≤ 4096
     let marked (t : State) (on : Bool) : Prop :=
       (∀ k, k ≠ n.till → t.till k = s.till k) ∧
       t.till n.till = { s.till n.till with
         stack := (s.till n.till).stack.map (fun y => if y.id = e.id then { y with reversing := on } else y) }
     let joined (back : Nat) (forfeited : Option Nat) : JournalRecord :=
       { sequence := s.journal.nextSeq, kind := .reversal, card := e.card, origin := some (s.tillFields n m), bonusDelta := (back : Int)
         coreDelta := (e.core : Int), forfeited := forfeited, undone := none, date := s.date, instant := s.now }
     let undo (back : Nat) (stay : Option Nat) : UndoRecord :=
       { card := e.card, effect := .reverse back e.core, stay := stay, sequence := some s.journal.nextSeq
         origin := some (s.tillFields n m) }
     let reply (back : Nat) (standIn : Bool) (free : Option Nat) : TillReply :=
       { lane := m.lane, kind := 8#8, outcome := .approved, reason := none, training := false, standIn := standIn, hostDecided := false
         free := free, approved := e.core + back, bonus := back, core := e.core, ref := m.tillRef, report := ShiftReport.zero }
     let taken (t : State) (st : ReplyState) : Prop := s.otherLinks t l ∧ t.link l = s.takenLink l m rest (some n) (.entry e) st
     let gated (reply : TillReply) (undo : UndoRecord) : ReplyState :=
       gatedBy (s.gatingOf e.card) s.limits.gate s.journal.nextSeq reply undo
     let said (t : State) (j : JournalRecord) : Prop :=
       s.journal.records.length ≠ 3072 → t.events = s.events ∧ t.out = s.out ++ [.journal j 0]
     (∀ (r : CardRecord) (stay : Nat),
       s.Found e.card r stay → (e.kind = .standIn ∨ s.passThrough e.card = false) → s.NothingToForfeit r →
       let inTime : Bool := inDate r.data s.date
       let back : Nat := if inTime then e.bonus else 0
       let free : Nat := s.freeBonus r.data + s.freeCore r.data
       let j := joined back (if inTime ∨ e.bonus = 0 then none else some e.bonus)
       let stays (t : State) (now : CardRecord) : Prop :=
         s.otherSets t (setOf e.card) ∧ s.otherCards t e.card ∧ t.mostRecent e.card ∧ t.recordOf e.card = some (now, stay)
       let fits : Prop :=
         r.data.core + s.pendingSum e.card Effect.coreCredit + e.core + s.pendingSum e.card Effect.coreDebit ≤ 9999999 ∧
         (back = 0 ∨ r.data.bonus + s.pendingSum e.card Effect.bonusCredit + back + s.pendingSum e.card Effect.bonusDebit ≤ 9999999)
       (¬ fits → s.declinesAgainst l m rest n (.entry e) e.card r stay .overMaximum) ∧
       (fits → room → ∃ t : State, exec (.reverse l) s = .next t ∧
         t = { s with
           dir := t.dir, links := t.links, tills := t.tills, nextSlot := s.nextSlot + 1, journal := s.journal.withUndoable j
           events := t.events, out := t.out } ∧
         marked t true ∧ stays t (sealRecord r.data (r.unposted + 1)) ∧
         taken t (gated (reply back false (some (free + back + e.core))) (undo back (some stay))) ∧ said t j) ∧
       (fits → ¬ room → ∃ t : State, exec (.reverse l) s = .next t ∧
         t = { s.full 8#16 with dir := t.dir, links := t.links, tills := t.tills, nextSlot := s.nextSlot + 1 } ∧
         marked t false ∧ stays t r ∧ taken t (.ready (declinedReply m .systemBusy (some free)) none none))) ∧
     (e.kind = .standIn → s.findWay e.card = none → s.fetchFor e.card = none →
       (room → ∃ t : State, exec (.reverse l) s = .next t ∧
         t = { s with
           links := t.links, tills := t.tills, nextSlot := s.nextSlot + 1, journal := s.journal.withUndoable (joined 0 none)
           dirMode := t.dirMode, events := t.events, out := t.out } ∧
         marked t true ∧ taken t (gated (reply 0 true none) (undo 0 none)) ∧
         (s.dirMode.isFlushing = false → t.dirMode = s.dirMode ∧ said t (joined 0 none))) ∧
       (¬ room → ∃ t : State, exec (.reverse l) s = .next t ∧
         t = { s.full 8#16 with
           links := t.links, tills := t.tills, nextSlot := s.nextSlot + 1, dirMode := t.dirMode, events := t.events, out := t.out } ∧
         marked t false ∧ taken t (.ready (declinedReply m .systemBusy none) none none) ∧
         (s.dirMode.isFlushing = false →
           t.dirMode = s.dirMode ∧ t.events = (s.full 8#16).events ∧ t.out = (s.full 8#16).out)))) ∧
  ∀ (l : Fin 8) (m : TillMsg) (rest : List TillMsg) (n : NotedTill) (s : State),
    s.Trading l m rest n → m.kind = .reverse → m.tillRef ≠ 0#32 →
    let stack := (s.till n.till).stack
    ((∀ x ∈ stack, x.ref ≠ m.tillRef) → s.declines l m rest n .free .notFound) ∧
    ∀ above x below, stack = above ++ x :: below → (∀ y ∈ above, y.ref ≠ m.tillRef) → x.ref = m.tillRef →
      (x.reversing = true → s.declines l m rest n .free .notFound) ∧
      (x.reversing = false → (∃ y ∈ above, y.reversing = false) → s.declines l m rest n .free .outOfOrder) ∧
      (x.reversing = false → (∀ y ∈ above, y.reversing = true) → stackCheck m.tillRef false stack = .found x)

/-! ### The arithmetic of the Purse Unit -/

/-- R42, R48, R49: the debit of an amount `a` under a bonus cap of `c` percent, and the capture of a final amount `f` on a hold of parts
`b` and `k` with tolerance `tip` (R50). No part passes what its purse has free. -/
def Obligations.DebitsAndCapturesStayWithinFreeFunds : Prop :=
  (∀ (a c freeBonus freeCore : Nat) (allowPartial : Bool),
    let allowance := min freeBonus (a * c / 100)
    ((allowance + freeCore = 0 ∨ allowance + freeCore < a ∧ allowPartial = false) →
      debitFor a c freeBonus freeCore allowPartial = none) ∧
    (0 < allowance + freeCore → (a ≤ allowance + freeCore ∨ allowPartial = true) →
      ∃ x, debitFor a c freeBonus freeCore allowPartial = some x ∧ x.amount = min a (allowance + freeCore) ∧
        x.bonus = min x.amount allowance ∧ x.bonus + x.core = x.amount ∧ (x.partly = true ↔ allowance + freeCore < a) ∧
        x.bonus ≤ freeBonus ∧ x.core ≤ freeCore ∧ x.bonus * 100 ≤ a * c)) ∧
  (∀ b k tip f freeCore : Nat,
    (f ≤ b + k → ∃ x, captureFor b k tip f freeCore = some x ∧ x.bonus = min f b ∧ x.bonus + x.core = f ∧ x.extra = 0 ∧
      x.partly = false ∧ x.core ≤ k) ∧
    ((b + k) * tip / 100 < f - (b + k) → captureFor b k tip f freeCore = none) ∧
    (b + k < f → f - (b + k) ≤ (b + k) * tip / 100 → ∃ x, captureFor b k tip f freeCore = some x ∧ x.bonus = b ∧ x.core = k ∧
      x.extra = min (f - (b + k)) freeCore ∧ (x.partly = true ↔ b + k + freeCore < f) ∧ x.bonus + x.core + x.extra ≤ f))

/-! ### Misses, referrals and the ends of a fetch -/

/-- R6, R7, R8, R15, R91, R93, R102, R110, R115, R78: a request of any kind that reaches the directory and is not a hit. A card in no way
issues a fetch in NORMAL, with the victim way RESERVED for it and the other cards of the set as they were; it is referred where no way of
its set can be the victim, and in FROZEN, but for a request bound to a hold. OFF, WARMING and a pass-through range refer every request,
and FLUSHING one for a card in no way; FLUSHING declines one for a card in a VALID way. A card in a RESERVED way has the request on the
wait list of its fetch. With no free tag, or 16 requests on the list, the request is declined BUSY. The REVERSE of a STAND-IN entry passes
over the pass-through ranges and is referred for a VALID way in OFF and WARMING alone. -/
def Obligations.MissesFetchOrRefer : Prop :=
  ∀ (l : Fin 8) (m : TillMsg) (rest : List TillMsg) (n : NotedTill) (b : Binding) (card : Nat) (s : State), s.Asks l m rest n b card →
    let standIn : Prop := ∃ x, b = .entry x ∧ x.kind = .standIn
    let held : Prop := ∃ id, b = .hold id card
    let direct : Prop := standIn ∨ s.passThrough card = false
    (∀ no, ¬ standIn → s.dirMode = .normal → s.passThrough card = false → s.findWay card = none → s.victim card = some no →
      (s.dirSet (setOf card)).inOrder (setOf card) →
      (∀ tag, s.lowestFree tag → ∃ t : State, exec (takeOffOf m.kind l) s = .next t ∧
        t = { s with
          dir := t.dir, links := t.links, tills := t.tills, nextSlot := s.nextSlot + 1, requests := t.requests
          generations := t.generations
          out := if s.names card then s.out else s.out ++ [.cardFetch tag ((s.generation tag + 1) % 65536) card] } ∧
        s.marked t n b true ∧ s.takenOff t l m rest n b .reserved ∧
        s.entered t tag (if s.names card then s.limits.gate else s.limits.hostAnswer)
          (.fetch ⟨card, card % 16384, no, !s.names card, [⟨l, s.nextSlot⟩]⟩) ∧
        t.findWay card = some ⟨no, .reserved card⟩ ∧ t.mostRecent card ∧ s.otherSets t (setOf card) ∧
        ∀ c x, c ≠ card → s.findWay c = some x → x.no ≠ no → t.findWay c = some x) ∧
      ((∀ k, k < 256 → (s.request k).isSome = true) → s.declines l m rest n b .busy)) ∧
    (¬ standIn → (s.passThrough card = true ∨ s.dirMode = .off ∨ s.dirMode = .warming ∨
        s.findWay card = none ∧ (s.dirMode.isFlushing = true ∨
          ¬ held ∧ (s.dirMode = .frozen ∨ s.dirMode = .normal ∧ s.victim card = none))) → s.refers l m rest n b) ∧
    (standIn → (s.dirMode = .off ∨ s.dirMode = .warming) → (∃ no r stay, s.findWay card = some ⟨no, .valid r stay⟩) →
      s.refers l m rest n b) ∧
    (direct → s.dirMode.isFlushing = true → (∃ no r stay, s.findWay card = some ⟨no, .valid r stay⟩) →
      s.declines l m rest n b .unavailable) ∧
    ∀ no tag x f, s.findWay card = some ⟨no, .reserved card⟩ → s.request tag = some x → x.kind = .fetch f → f.card = card →
      (∀ a g, s.fetchAt a = some g → g.card = card → a = tag) →
      (standIn ∨ s.passThrough card = false ∧ (s.dirMode = .normal ∨ s.dirMode.isFlushing = true ∨ s.dirMode = .frozen ∧ ¬ held)) →
      (f.waiters.length < 16 → ∃ u : State, exec (takeOffOf m.kind l) s = .next u.settle ∧
        (s.dirMode.isFlushing = false → u.settle = u) ∧
        u = { s with links := u.links, tills := u.tills, nextSlot := s.nextSlot + 1, requests := u.requests } ∧
        s.marked u n b true ∧ s.takenOff u l m rest n b .reserved ∧
        u.request tag = some { x with kind := .fetch { f with waiters := f.waiters ++ [⟨l, s.nextSlot⟩] } } ∧
        ∀ k, k ≠ tag → u.request k = s.request k) ∧
      (16 ≤ f.waiters.length → s.declines l m rest n b .busy)

/-- R105, R107, R113, R10: the answer timer of a SENT fetch and the gate timer of a WAITING-POST fetch, outside a flush. The entry leaves
the table, its way is INVALID and least recently used, and a request that waited alone, neither a REDEEM nor a request bound to a hold or
a stack entry, is declined UNAVAILABLE. R117, R118, R79: the answer timer of a REFERRAL. -/
def Obligations.TimersEndTheQuestionsToTheHost : Prop :=
  (∀ (tag : Fin 256) (f : Fetch) (s : State), s.fetchAt tag.val = some f → s.reservedFor f → (s.dirSet f.set).inOrder f.set →
     s.dirMode.isFlushing = false →
     ∃ u : State, exec (if f.sent then .fetchAnswerTimeout tag else .fetchGateTimeout tag) s =
         .next (u.serveWaiters f.waiters (serveTimedOut f.card)).settle ∧
       exec (if f.sent then .fetchGateTimeout tag else .fetchAnswerTimeout tag) s = .next s ∧
       u = { s with requests := u.requests, dir := u.dir, events := u.events, out := u.out } ∧
       u.request tag.val = none ∧ (∀ k, k ≠ tag.val → u.request k = s.request k) ∧ s.otherSets u f.set ∧ u.findWay f.card = none ∧
       (u.dirSet f.set).ways = ⟨f.way, .invalid⟩ :: (s.dirSet f.set).ways.filter (fun w => decide (w.no ≠ f.way)) ∧
       u.events.pending.getLsbD 8 = true ∧
       (f.waiters = [] → exec (if f.sent then .fetchAnswerTimeout tag else .fetchGateTimeout tag) s = .next u) ∧
       ∀ l slot e, f.waiters = [⟨l, slot⟩] → s.entry l slot = some e → e.bound = .free → e.msg.kind ≠ .redeem → ∃ t : State,
         exec (if f.sent then .fetchAnswerTimeout tag else .fetchGateTimeout tag) s = .next t ∧ t = { u with links := t.links } ∧
         s.otherLinks t l ∧ t.link l = { s.link l with replies := (s.link l).replies.map (fun y =>
           if y.slot = slot then { y with state := .ready (declinedReply e.msg .unavailable none) none none } else y) }) ∧
  (∀ (tag : Fin 256) (x : HostEntry) (r : Referral) (s : State), s.request tag.val = some x → x.kind = .referral r →
     ∃ t : State, exec (.referralTimeout tag) s = .next t ∧
       t = { s with requests := t.requests, links := t.links, tills := t.tills, events := t.events, out := t.out } ∧
       t.request tag.val = none ∧ (∀ k, k ≠ tag.val → t.request k = s.request k) ∧ t.events.pending.getLsbD 8 = true ∧
       (r.abandoned = true → t.links = s.links ∧ t.tills = s.tills) ∧
       ∀ e, r.abandoned = false → s.entry r.link r.slot = some e →
         t.tills = (s.clearMark e).tills ∧ s.otherLinks t r.link ∧
         t.link r.link = { s.link r.link with replies := (s.link r.link).replies.map (fun y =>
           if y.slot = e.slot then { y with state := .ready (declinedReply e.msg .unavailable none) none none } else y) })

/-- R59, R120, R121: the stand-in decision for a REDEEM whose fetch has timed out, as it is taken for each of the wait list's REDEEMs. -/
def Obligations.StandInTakesTheRoomThatIsLeft : Prop :=
  ∀ (l card : Nat) (e : ReplyEntry) (n : NotedTill) (p : Program) (s : State), e.noted = some n → e.bound = .free → e.msg.kind = .redeem →
    s.programOf card = some p → s.findWay card = none → s.fetchFor card = none →
    (s.exposure card ≠ ⟨0, 0⟩ ∨ s.exposures.cells.length < 2048) → s.journal.records.length + s.journal.reserved + 2 ≤ 4096 →
    let left : Nat := p.limits.standInLimit - (s.exposure card).amount
    let may : Bool := decide (e.msg.allowPartial = 1#8)
    ((left = 0 ∨ left < e.msg.amount.toNat ∧ may = false) →
      serveTimedOut card l e s = s.finish l e.slot (.ready (declinedReply e.msg .unavailable none) none none)) ∧
    (0 < left → (e.msg.amount.toNat ≤ left ∨ may = true) →
      let x : Nat := min e.msg.amount.toNat left
      let joined : JournalRecord :=
        { sequence := s.journal.nextSeq, kind := .standIn, card := card, origin := some (s.tillFields n e.msg), bonusDelta := 0
          coreDelta := -(x : Int), forfeited := none, undone := none, date := s.date, instant := s.now }
      let undo : UndoRecord :=
        { card := card, effect := .standIn x s.date, stay := none, sequence := some s.journal.nextSeq
          origin := some (s.tillFields n e.msg) }
      let reply : TillReply :=
        { lane := e.msg.lane, kind := 4#8, outcome := if left < e.msg.amount.toNat then .partly else .approved, reason := none
          training := false, standIn := true, hostDecided := false, free := none, approved := x, bonus := 0, core := x
          ref := e.msg.tillRef, report := ShiftReport.zero }
      let t := serveTimedOut card l e s
      t = { s with
        exposures := t.exposures, links := t.links, journal := s.journal.withUndoable joined, events := t.events, out := t.out
        counters := { s.counters with standIn := s.counters.standIn.bump } } ∧
      t.exposure card = ⟨(s.exposure card).amount + x, min ((s.exposure card).count + 1) 65535⟩ ∧
      (∀ c, c ≠ card → t.exposure c = s.exposure c) ∧ s.otherLinks t l ∧ t.events.pending.getLsbD 9 = true ∧
      t.link l = { s.link l with replies := (s.link l).replies.map (fun y => if y.slot = e.slot
        then { y with state := gatedBy p.limits.gating s.limits.gate s.journal.nextSeq reply undo } else y) })

/-! ### Delivery and withdrawal -/

/-- R164, R63, R64, R69, R73, R80, R94, R99, R151, R132: the delivery of an approved REDEEM or COMPLETE to its till, in the noted shift or
not: a REDEEM of the part, decided against a record or by stand-in, whose undo slot is released; one that the host decided, which has no
undo record and pushes an entry with no sequence; a training answer, which pushes none. No card record changes. The card of the entry that
a host-decided COMPLETE of an unknown key pushes is left open (notes/assumptions/3). -/
def Obligations.DeliveryOfADebitReachesTheTill : Prop :=
  ∀ (l : Fin 8) (e : ReplyEntry) (reply : TillReply) (undo : Option UndoRecord) (n : NotedTill) (s : State),
    (s.link l).state = .up → oldestReady (s.link l).replies = some (e, reply, undo) → e.noted = some n →
    (reply.outcome = .approved ∨ reply.outcome = .partly) →
    let debits (t : State) (push : Till → Till) : Prop :=
      exec (.delivery l) s = .next t.settle ∧ (s.dirMode.isFlushing = false → t.settle = t) ∧ s.handedOver t l e reply ∧
      s.atNotedTill t n (fun y => push (y.debited reply.approved))
    let entry (card : Nat) (kind : StackKind) (sequence approvedOn : Option Nat) : StackEntry :=
      { id := s.nextEntry, ref := e.msg.tillRef, card := card, kind := kind, bonus := reply.bonus, core := reply.core
        sequence := sequence, approvalDate := approvedOn, reversing := false }
    (∀ u q approvedOn, undo = some u → e.msg.kind = .redeem → e.bound = .free → u.sequence = some q → reply.training = false →
      ((∃ b c, u.effect = .redeem b c) ∧ reply.standIn = false ∧ approvedOn = none ∨
        ∃ x date, u.effect = .standIn x date ∧ reply.standIn = true ∧ approvedOn = some date) →
      ∃ t : State, debits t (Till.pushed (entry u.card (if reply.standIn then .standIn else .debit) (some q) approvedOn)) ∧
        t = { s with
          links := t.links, tills := t.tills, journal := { s.journal with reserved := s.journal.reserved - 1 }
          nextEntry := t.nextEntry }) ∧
    (undo = none → reply.training = true → e.bound = .free → (e.msg.kind = .redeem ∨ e.msg.kind = .complete) →
      ∃ t : State, debits t id ∧ t = { s with links := t.links, tills := t.tills }) ∧
    (undo = none → reply.training = false → reply.standIn = false →
      (∀ card, e.msg.kind = .redeem → e.bound = .free → cardOfBcd e.msg.card = some card →
        ∃ t : State, debits t (Till.pushed (entry card .debit none none)) ∧
          t = { s with links := t.links, tills := t.tills, nextEntry := t.nextEntry }) ∧
      (∀ id card, e.msg.kind = .complete → e.bound = .hold id card →
        ∃ t : State, debits t (Till.pushed (entry card .capture none none)) ∧
          t = { s with links := t.links, tills := t.tills, nextEntry := t.nextEntry }) ∧
      (e.msg.kind = .complete → e.bound = .free →
        ∃ (t : State) (card : Nat), debits t (Till.pushed (entry card .capture none none)) ∧
          t = { s with links := t.links, tills := t.tills, nextEntry := t.nextEntry }))

/-- R164, R63, R64, R71, R55, R80, R151: the delivery of an approved RELOAD. The credit reaches the record in the stay of its approval; a
card that is resident no more gets none. An answer of the host or of a training till has no undo record and changes no card record. The
till's credit total and count rise. -/
def Obligations.DeliveryOfACreditReachesTheCard : Prop :=
  ∀ (l : Fin 8) (e : ReplyEntry) (reply : TillReply) (undo : Option UndoRecord) (n : NotedTill) (s : State),
    (s.link l).state = .up → oldestReady (s.link l).replies = some (e, reply, undo) → e.msg.kind = .reload → e.noted = some n →
    e.bound = .free → reply.outcome = .approved →
    let credits (t : State) : Prop :=
      exec (.delivery l) s = .next t.settle ∧ (s.dirMode.isFlushing = false → t.settle = t) ∧ s.handedOver t l e reply ∧
      s.atNotedTill t n (Till.credited reply.approved)
    (∀ u q amount, undo = some u → u.sequence = some q → u.effect = .reload amount →
      (∀ r stay, s.recordOf u.card = some (r, stay) → r.verifies = true → (s.dirSet (setOf u.card)).inOrder (setOf u.card) →
        ∃ t : State, credits t ∧
          t = { s with
            links := t.links, tills := t.tills, dir := t.dir, journal := { s.journal with reserved := s.journal.reserved - 1 } } ∧
          s.otherSets t (setOf u.card) ∧ s.otherCards t u.card ∧ t.recordOf u.card = some (if u.stay = some stay
            then sealRecord { r.data with core := r.data.core + amount } r.unposted else r, stay)) ∧
      (s.recordOf u.card = none → ∃ t : State, credits t ∧
        t = { s with links := t.links, tills := t.tills, journal := { s.journal with reserved := s.journal.reserved - 1 } })) ∧
    (undo = none → ∃ t : State, credits t ∧ t = { s with links := t.links, tills := t.tills })

/-- R164, R79, R63, R64, R71, R55, R78, R80, R121: the delivery of an approved REVERSE. The credit of one of the part reaches the record
in the stay of its approval; one taken journal-only, or whose card is resident no more, changes no record, and neither does one that the
host decided. The entry leaves the stack wherever it stands, and the till's credit total and count rise. The REVERSE of a STAND-IN entry
lowers the card's exposure on the business date of its approval, and the stand-in count stays, whoever decided it. A training answer
raises the credit count, its amount being 0. -/
def Obligations.DeliveryOfAReverseReturnsTheMoney : Prop :=
  ∀ (l : Fin 8) (e : ReplyEntry) (reply : TillReply) (undo : Option UndoRecord) (n : NotedTill) (s : State),
    (s.link l).state = .up → oldestReady (s.link l).replies = some (e, reply, undo) → e.msg.kind = .reverse → e.noted = some n →
    reply.outcome = .approved →
    let credits (t : State) (take : Till → Till) : Prop :=
      exec (.delivery l) s = .next t.settle ∧ (s.dirMode.isFlushing = false → t.settle = t) ∧ s.handedOver t l e reply ∧
      s.atNotedTill t n (fun y => take (y.credited reply.approved))
    let without (x : StackEntry) (y : Till) : Till := { y with stack := y.stack.filter (fun z => decide (z.id ≠ x.id)) }
    let lowered (t : State) (x : StackEntry) : Prop :=
      (∀ card, card ≠ x.card → t.exposure card = s.exposure card) ∧
      t.exposure x.card = if x.kind = .standIn ∧ x.approvalDate = some s.date
        then ⟨(s.exposure x.card).amount - x.core, (s.exposure x.card).count⟩ else s.exposure x.card
    (∀ x u q b c, e.bound = .entry x → undo = some u → u.sequence = some q → u.effect = .reverse b c →
      (∀ r stay, s.recordOf u.card = some (r, stay) → r.verifies = true → (s.dirSet (setOf u.card)).inOrder (setOf u.card) →
        ∃ t : State, credits t (without x) ∧ lowered t x ∧
          t = { s with
            links := t.links, tills := t.tills, dir := t.dir, exposures := t.exposures
            journal := { s.journal with reserved := s.journal.reserved - 1 } } ∧
          s.otherSets t (setOf u.card) ∧ s.otherCards t u.card ∧ t.recordOf u.card = some (if u.stay = some stay
            then sealRecord { r.data with bonus := r.data.bonus + b, core := r.data.core + c } r.unposted else r, stay)) ∧
      (s.recordOf u.card = none ∨ u.stay = none → ∃ t : State, credits t (without x) ∧ lowered t x ∧
        t = { s with
          links := t.links, tills := t.tills, exposures := t.exposures
          journal := { s.journal with reserved := s.journal.reserved - 1 } })) ∧
    (undo = none →
      (∀ x, e.bound = .entry x → ∃ t : State, credits t (without x) ∧ lowered t x ∧
        t = { s with links := t.links, tills := t.tills, exposures := t.exposures }) ∧
      (e.bound = .free → ∃ t : State, credits t id ∧ t = { s with links := t.links, tills := t.tills }))

/-- R164, R87, R90, R83, R95, R132: the delivery of an approved HOLD and of an approved COMPLETE of the part. The NEW hold becomes OPEN,
and is freed at once by expiry, with a note, when its instant has passed; nothing else moves. The captured hold is freed, its undo slot is
released, and the till in the noted shift gets the debit and a CAPTURE entry; no card record changes. R62, R64, R80, R94, R99: the
delivery of a reply without an undo record that moves no money, a DECLINED one of any kind and one to an ENQUIRY, HOLD, RELEASE, OPEN-TILL
or CLOSE-TILL, hands it over and does nothing else; that a host's PARTIAL reply to a RELOAD or a REVERSE is such a one is deduced
(notes/assumptions/15). -/
def Obligations.DeliveryOfAHoldAndACompleteSettleTheHold : Prop :=
  (∀ (l : Fin 8) (e : ReplyEntry) (reply : TillReply) (u : UndoRecord) (n : NotedTill) (h : Hold) (s : State),
     (s.link l).state = .up → oldestReady (s.link l).replies = some (e, reply, some u) → e.noted = some n →
     (reply.outcome = .approved ∨ reply.outcome = .partly) → s.holdById h.id = some h →
     let delivered (t : State) : Prop :=
       exec (.delivery l) s = .next t.settle ∧ (s.dirMode.isFlushing = false → t.settle = t) ∧ s.handedOver t l e reply
     let freed (t : State) : Prop :=
       t.holds = s.holds.filter (fun y => decide (y.id ≠ h.id)) ∧ t.siteHoldCount h.site = s.siteHoldCount h.site - 1 ∧
       ∀ k, k ≠ h.site → t.siteHoldCount k = s.siteHoldCount k
     (e.msg.kind = .hold → e.bound = .free → u.effect = .hold h.id → u.sequence = none →
       (s.clock.notSet = true ∨ s.now.ms < h.expiry.ms → ∃ t : State, delivered t ∧
         t = { s with
           links := t.links, holds := s.holds.map (fun y => if y.id = h.id then { y with state := .opened } else y) }) ∧
       (s.clock.notSet = false → h.expiry.ms ≤ s.now.ms → ∃ t : State, delivered t ∧ freed t ∧
         t.notes.getLast? = some ⟨h.site, h.ref, h.id⟩ ∧
         t = { s with
           links := t.links, holds := t.holds, siteHolds := t.siteHolds, notes := t.notes, dir := t.dir, fault := t.fault
           counters := t.counters, events := t.events, journal := t.journal, requests := t.requests, generations := t.generations
           out := t.out })) ∧
     ∀ q card b c x, e.msg.kind = .complete → e.bound = .hold h.id card → u.effect = .capture h.id b c x → u.sequence = some q →
       reply.training = false → ∃ t : State, delivered t ∧ freed t ∧
         t = { s with
           links := t.links, tills := t.tills, holds := t.holds, siteHolds := t.siteHolds
           journal := { s.journal with reserved := s.journal.reserved - 1 }, nextEntry := t.nextEntry } ∧
         s.atNotedTill t n (fun y => (y.debited reply.approved).pushed
           { id := s.nextEntry, ref := e.msg.tillRef, card := u.card, kind := .capture, bonus := reply.bonus, core := reply.core
             sequence := some q, approvalDate := none, reversing := false })) ∧
  ∀ (l : Fin 8) (e : ReplyEntry) (reply : TillReply) (s : State),
    (s.link l).state = .up → oldestReady (s.link l).replies = some (e, reply, none) →
    (∀ x, e.bound = .entry x → e.msg.kind = .reverse) →
    (reply.outcome = .declined ∨
      (e.msg.kind ≠ .redeem ∧ e.msg.kind ≠ .complete ∧ e.msg.kind ≠ .reload ∧ e.msg.kind ≠ .reverse) ∨
      reply.outcome = .partly ∧ (e.msg.kind = .reload ∨ e.msg.kind = .reverse)) →
    ∃ t : State, exec (.delivery l) s = .next t.settle ∧ (s.dirMode.isFlushing = false → t.settle = t) ∧
      t = { s with links := t.links } ∧ s.handedOver t l e reply

/-- R135, R136, R56, R57, R47, R90, R121, R127, R79: the gate timeout of a GATED reply, of a REDEEM, a COMPLETE, a RELOAD, a REVERSE or a
stand-in approval: in the stay of its effect, in a later stay, and with its card not resident. The effect is undone as `State.Undone`
says: a debit returns to the purses, a credit was never applied or is taken back, the use of a REDEEM is uncounted, the hold of a COMPLETE
is OPEN again with its captured parts, a stand-in approval of the business date gives its exposure back, and the UNDO record takes the
reserved slot and re-gates a SENT fetch of its card (R109). A REVERSE's mark is cleared, and the entry is READY with DECLINED UNAVAILABLE.
-/
def Obligations.GateTimeoutUndoesTheDebit : Prop :=
  ∀ (l : Fin 8) (q : Nat) (e : ReplyEntry) (reply : TillReply) (u : UndoRecord) (s : State),
    gatedOn q (s.link l).replies = some (e, reply, u) → u.sequence = some q → s.Undoable u → s.dirMode.isFlushing = false →
    ∃ t : State, exec (.gateTimeout l q) s = .next t ∧
      t = { s with
        links := t.links, tills := t.tills, dir := t.dir, holds := t.holds, exposures := t.exposures, journal := t.journal
        requests := t.requests, generations := t.generations, events := t.events, out := t.out } ∧
      s.Undone t u q ∧ s.otherLinks t l ∧
      t.link l = { s.link l with replies := (s.link l).replies.map (fun y => if y.slot = e.slot then
        { y with state := .ready { declinedReply e.msg .unavailable none with
          training := reply.training, standIn := reply.standIn, hostDecided := reply.hostDecided } none none } else y) } ∧
      (∀ n, t.till n = { s.till n with stack := (s.till n).stack.map (fun x =>
        if e.holdsMark n x.id then { x with reversing := false } else x) }) ∧
      (s.journal.records.length ≠ 3072 → t.events = s.events ∧ t.out = s.out ++ [.journal (s.undoRecord u q) 0])

/-! ### Invariants -/

/-- The machine after reset meets every invariant below. -/
def Obligations.ResetMeetsEveryInvariant : Prop :=
  TablesCanonical State.reset ∧ ProgramsInOrder State.reset ∧ ActiveProgramsApart State.reset ∧ SitesDistinct State.reset ∧
  CommissioningUnassigned State.reset ∧ LimitsInBounds State.reset ∧ ExposuresBounded State.reset ∧ StandbyLinksDisabled State.reset ∧
  LinksInOrder State.reset ∧ TillsInOrder State.reset ∧ JournalInOrder State.reset ∧ TimesValid State.reset ∧
  DirectoryInOrder State.reset ∧ HoldsInOrder State.reset ∧ WaitersInOrder State.reset ∧ SlotsInOrder State.reset ∧
  JournalWithinBounds State.reset ∧ UnpostedCounted State.reset

/-- Every step keeps every sparse table in its canonical form (the model's form of the tables, notes/assumptions/1). -/
def Obligations.EveryStepKeepsTheTablesCanonical : Prop :=
  ∀ s t : State, TablesCanonical s → step s = .next t → TablesCanonical t

/-- R27, R28, R34, R144, R143, R183, R31: every step keeps the layout in order, and no card's exposure passes 50,000 pence. -/
def Obligations.EveryStepKeepsTheLayoutInOrder : Prop :=
  ∀ s t : State, TablesCanonical s → ProgramsInOrder s → ActiveProgramsApart s → SitesDistinct s → CommissioningUnassigned s →
    LimitsInBounds s → ExposuresBounded s → step s = .next t →
    ProgramsInOrder t ∧ ActiveProgramsApart t ∧ SitesDistinct t ∧ CommissioningUnassigned t ∧ LimitsInBounds t ∧ ExposuresBounded t

/-- R37, R38: no step but a power-on reset changes the record of a locked program, which is ACTIVE. -/
def Obligations.LockedProgramsNeverChange : Prop :=
  ∀ (n : Nat) (s t : State), (s.program n).locked = true → (s.program n).state = .active → s.pending.head? ≠ some .powerOnReset →
    step s = .next t → t.program n = s.program n

/-- R180, R155, R156, R160, R148, R72: every step keeps the links and the tills in order. -/
def Obligations.EveryStepKeepsLinksAndTillsInOrder : Prop :=
  ∀ s t : State, TablesCanonical s → StandbyLinksDisabled s → LinksInOrder s → TillsInOrder s → step s = .next t →
    StandbyLinksDisabled t ∧ LinksInOrder t ∧ TillsInOrder t

/-- R123: every step keeps the sequence numbers of the journal queue consecutive. -/
def Obligations.EveryStepKeepsTheJournalInOrder : Prop :=
  ∀ s t : State, JournalInOrder s → step s = .next t → JournalInOrder t

/-- R123, R126, R132, R110: every step keeps the records and the reserved undo slots of the journal within its 4,096 places, with one slot
for each undo record of a reply queue but a HOLD's, and each request that waits on the host waiting in one place. -/
def Obligations.EveryStepKeepsTheJournalWithinBounds : Prop :=
  ∀ s t : State, TablesCanonical s → LinksInOrder s → WaitersInOrder s → SlotsInOrder s → JournalWithinBounds s → step s = .next t →
    WaitersInOrder t ∧ SlotsInOrder t ∧ JournalWithinBounds t

/-- R5, R2, R106, R109: every step keeps the unposted count of each resident record that matches its check code equal to the number of
records in the queue that name its card, and no SENT fetch for a card that a record names. -/
def Obligations.EveryStepKeepsTheUnpostedCounts : Prop :=
  ∀ s t : State, TablesCanonical s → DirectoryInOrder s → UnpostedCounted s → step s = .next t → UnpostedCounted t

/-- R170, R171: every step keeps the times valid, and no step but a power-on reset lowers the business date. -/
def Obligations.TheBusinessDateNeverDecreases : Prop :=
  ∀ s t : State, TimesValid s → step s = .next t → TimesValid t ∧ (s.pending.head? ≠ some .powerOnReset → s.date ≤ t.date)

/-- R3, R101: every step keeps the directory in order: a card in one way at most, every FETCH entry with its RESERVED way. An alteration
of stored content that changes a card number is no step of the part's own, and is left out. -/
def Obligations.EveryStepKeepsTheDirectoryInOrder : Prop :=
  ∀ s t : State, TablesCanonical s → DirectoryInOrder s →
    (∀ set way x r stay, s.pending.head? = some (.storedContentAltered set way x) →
      (⟨way.val, .valid r stay⟩ : Way) ∈ (s.dirSet set.val).ways → x.data.card = r.data.card) → step s = .next t → DirectoryInOrder t

/-- R81, R82, R84: every step keeps the Hold Table in order: keys not shared, the counts and the three limits, and no noted key live. -/
def Obligations.EveryStepKeepsTheHoldTableInOrder : Prop :=
  ∀ s t : State, TablesCanonical s → HoldsInOrder s → step s = .next t → HoldsInOrder t

/-! ### Frames -/

/-- R190, R191, R192: the frame that a command, an answer or a site-link message is encoded to decodes to it, on the service link and on
each site link, and a stream that begins with it is cut behind it by its length field. A length below 6 is the extent of a frame that
fails its check. A malformed optional field and a card-record presence byte are encoded as the model chose, notes/assumptions/9. -/
def Obligations.FramesDecodeToWhatTheyEncode : Prop :=
  (∀ (i : Instr) (bs rest : List Byte), wellFormed i = true → encodeServiceFrame i = some bs → decodeServiceFrame bs = i ∧
    serviceCommands (bs ++ rest) = (i :: (serviceCommands rest).1, (serviceCommands rest).2)) ∧
  (∀ (i : Instr) (l : Fin 8) (bs rest : List Byte), wellFormed i = true → encodeSiteFrame i = some (l, bs) → decodeSiteFrame l bs = i ∧
    siteMessages l (bs ++ rest) = (i :: (siteMessages l rest).1, (siteMessages l rest).2)) ∧
  (∀ (n : Nat) (bs rest : List Byte) (l : Fin 8), n < 6 → bs.length = n →
    serviceCommands (toBytes 2 n ++ bs ++ rest) = (.unknownCommand .badCheck :: (serviceCommands rest).1, (serviceCommands rest).2) ∧
    siteMessages l (toBytes 2 n ++ bs ++ rest) =
      (.tillMessageArrival l .damaged :: (siteMessages l rest).1, (siteMessages l rest).2))
end

