-- ==== Sys2Proof/Laws/Table.lean ====
section
/-! SUPPORT. The laws of the sparse tables: reading after writing, and the canonical form kept by every operation. -/

namespace Sys2Proof.Table

variable {α : Type}

/-! ### Reading after writing: these need no canonical form -/

@[simp] theorem get_empty (d : α) (i : Nat) : (empty : Table α).get d i = d := rfl

theorem getFrom_dropKey (d : α) (i j : Nat) : ∀ l : List (Nat × α), getFrom d (dropKey i l) j = if j = i then d else getFrom d l j
  | [] => by simp [dropKey, getFrom]
  | (k, v) :: t => by
    have ih := getFrom_dropKey d i j t
    by_cases h : i = k
    · subst h; simp only [dropKey, if_pos, ih, getFrom]; split <;> simp_all
    · simp only [dropKey, if_neg h, getFrom, ih]; split <;> split <;> simp_all

theorem getFrom_insertKey (d : α) (i j : Nat) (v : α) :
    ∀ l : List (Nat × α), (∀ c ∈ l, c.1 ≠ i) → getFrom d (insertKey i v l) j = if j = i then v else getFrom d l j
  | [], _ => rfl
  | (k, w) :: t, h => by
    have hk : k ≠ i := h (k, w) (by simp)
    have ih := getFrom_insertKey d i j v t (fun c hc => h c (by simp [hc]))
    by_cases hi : i < k
    · simp only [insertKey, if_pos hi, getFrom]
    · simp only [insertKey, if_neg hi, getFrom, ih]; split <;> split <;> simp_all

theorem ne_of_mem_dropKey (i : Nat) : ∀ l : List (Nat × α), ∀ c ∈ dropKey i l, c.1 ≠ i
  | [], _, h => by cases h
  | (k, v) :: t, c, h => by
    by_cases hi : i = k
    · exact ne_of_mem_dropKey i t c (by simpa [dropKey, hi] using h)
    · rcases List.mem_cons.1 (by simpa only [dropKey, if_neg hi] using h) with rfl | h'
      · exact fun e => hi e.symm
      · exact ne_of_mem_dropKey i t c h'

/-- A read after a write gives the written entry at its key, and at every other key what was there. -/
theorem get_set [DecidableEq α] (d : α) (t : Table α) (i j : Nat) (v : α) :
    (t.set d i v).get d j = if j = i then v else t.get d j := by
  unfold get set
  by_cases hv : v = d
  · subst hv; simp only [if_pos, getFrom_dropKey]
  · simp only [if_neg hv]
    rw [getFrom_insertKey d i j v _ (ne_of_mem_dropKey i t.cells), getFrom_dropKey]
    split <;> rfl

@[simp] theorem get_set_same [DecidableEq α] (d : α) (t : Table α) (i : Nat) (v : α) : (t.set d i v).get d i = v := by
  simp [get_set]

theorem get_set_other [DecidableEq α] (d : α) (t : Table α) {i j : Nat} (v : α) (h : j ≠ i) : (t.set d i v).get d j = t.get d j := by
  simp [get_set, h]

/-! ### The canonical form -/

/-- Strictly rising keys above a bound, as a Prop. -/
theorem risesFrom_cons [DecidableEq α] (d : α) (lo : Option Nat) (k : Nat) (v : α) (t : List (Nat × α)) :
    risesFrom d lo ((k, v) :: t) = true ↔ (∀ b ∈ lo, b < k) ∧ v ≠ d ∧ risesFrom d (some k) t = true := by
  cases lo <;> simp [risesFrom, and_assoc]

theorem risesFrom_weaken [DecidableEq α] (d : α) {lo lo' : Option Nat} {l : List (Nat × α)} (h : risesFrom d lo l = true)
    (hlo : ∀ b ∈ lo', ∃ a ∈ lo, b ≤ a) : risesFrom d lo' l = true := by
  cases l with
  | nil => rfl
  | cons c t =>
    obtain ⟨k, v⟩ := c
    rw [risesFrom_cons] at h ⊢
    refine ⟨fun b hb => ?_, h.2⟩
    obtain ⟨a, ha, hba⟩ := hlo b hb
    exact Nat.lt_of_le_of_lt hba (h.1 a ha)

theorem risesFrom_dropKey [DecidableEq α] (d : α) (i : Nat) :
    ∀ (lo : Option Nat) (l : List (Nat × α)), risesFrom d lo l = true → risesFrom d lo (dropKey i l) = true
  | _, [], _ => rfl
  | lo, (k, v) :: t, h => by
    rw [risesFrom_cons] at h
    by_cases hi : i = k
    · simp only [dropKey, if_pos hi]
      refine risesFrom_weaken d (risesFrom_dropKey d i (some k) t h.2.2) (fun b hb => ⟨k, rfl, ?_⟩)
      exact Nat.le_of_lt (h.1 b hb)
    · simp only [dropKey, if_neg hi]
      rw [risesFrom_cons]
      exact ⟨h.1, h.2.1, risesFrom_dropKey d i (some k) t h.2.2⟩

theorem risesFrom_insertKey [DecidableEq α] (d : α) (i : Nat) (v : α) (hv : v ≠ d) :
    ∀ (lo : Option Nat) (l : List (Nat × α)), (∀ b ∈ lo, b < i) → (∀ c ∈ l, c.1 ≠ i) → risesFrom d lo l = true →
      risesFrom d lo (insertKey i v l) = true
  | lo, [], hlo, _, _ => by
    simp only [insertKey]; rw [risesFrom_cons]; exact ⟨hlo, hv, rfl⟩
  | lo, (k, w) :: t, hlo, hne, h => by
    rw [risesFrom_cons] at h
    by_cases hi : i < k
    · simp only [insertKey, if_pos hi]
      rw [risesFrom_cons, risesFrom_cons]
      exact ⟨hlo, hv, by intro b hb; cases hb; exact hi, h.2⟩
    · simp only [insertKey, if_neg hi]
      rw [risesFrom_cons]
      have hk : k < i := Nat.lt_of_le_of_ne (Nat.not_lt.1 hi) (hne (k, w) (by simp))
      exact ⟨h.1, h.2.1, risesFrom_insertKey d i v hv (some k) t (by intro b hb; cases hb; exact hk)
        (fun c hc => hne c (by simp [hc])) h.2.2⟩

@[simp] theorem wf_empty [DecidableEq α] (d : α) : (empty : Table α).wf d = true := rfl

/-- A write keeps the canonical form. -/
theorem wf_set [DecidableEq α] (d : α) {t : Table α} (i : Nat) (v : α) (h : t.wf d = true) : (t.set d i v).wf d = true := by
  unfold wf set at *
  by_cases hv : v = d
  · simp only [if_pos hv]; exact risesFrom_dropKey d i none _ h
  · simp only [if_neg hv]
    exact risesFrom_insertKey d i v hv none _ (by simp) (ne_of_mem_dropKey i _) (risesFrom_dropKey d i none _ h)

theorem risesFrom_map [DecidableEq α] (d : α) (f : α → α) :
    ∀ (lo : Option Nat) (l : List (Nat × α)), risesFrom d lo l = true →
      risesFrom d lo ((l.map (fun c => (c.1, f c.2))).filter (fun c => decide (c.2 ≠ d))) = true
  | _, [], _ => rfl
  | lo, (k, v) :: t, h => by
    rw [risesFrom_cons] at h
    have ih := risesFrom_map d f (some k) t h.2.2
    by_cases hf : f v = d
    · have hx : (((k, v) :: t).map (fun c => (c.1, f c.2))).filter (fun c => decide (c.2 ≠ d)) =
          (t.map (fun c => (c.1, f c.2))).filter (fun c => decide (c.2 ≠ d)) := by simp [hf]
      rw [hx]
      exact risesFrom_weaken d ih (fun b hb => ⟨k, rfl, Nat.le_of_lt (h.1 b hb)⟩)
    · have hx : (((k, v) :: t).map (fun c => (c.1, f c.2))).filter (fun c => decide (c.2 ≠ d)) =
          (k, f v) :: (t.map (fun c => (c.1, f c.2))).filter (fun c => decide (c.2 ≠ d)) := by simp [hf]
      rw [hx, risesFrom_cons]
      exact ⟨h.1, hf, ih⟩

/-- A change of every entry keeps the canonical form. -/
theorem wf_mapEntries [DecidableEq α] (d : α) (f : α → α) {t : Table α} (h : t.wf d = true) : (t.mapEntries d f).wf d = true :=
  risesFrom_map d f none t.cells h

theorem getFrom_of_below [DecidableEq α] (d : α) (i : Nat) :
    ∀ (k : Nat) (l : List (Nat × α)), i ≤ k → risesFrom d (some k) l = true → getFrom d l i = d
  | _, [], _, _ => rfl
  | k, (j, v) :: t, hi, h => by
    rw [risesFrom_cons] at h
    have hj : k < j := h.1 k rfl
    simp only [getFrom, if_neg (show i ≠ j by omega)]
    exact getFrom_of_below d i j t (by omega) h.2.2

theorem getFrom_map [DecidableEq α] (d : α) (f : α → α) (hf : f d = d) (i : Nat) :
    ∀ (lo : Option Nat) (l : List (Nat × α)), risesFrom d lo l = true →
      getFrom d ((l.map (fun c => (c.1, f c.2))).filter (fun c => decide (c.2 ≠ d))) i = f (getFrom d l i)
  | _, [], _ => by simp [getFrom, hf]
  | lo, (k, v) :: t, h => by
    rw [risesFrom_cons] at h
    have ih := getFrom_map d f hf i (some k) t h.2.2
    by_cases hv : f v = d
    · have hx : (((k, v) :: t).map (fun c => (c.1, f c.2))).filter (fun c => decide (c.2 ≠ d)) =
          (t.map (fun c => (c.1, f c.2))).filter (fun c => decide (c.2 ≠ d)) := by simp [hv]
      rw [hx, ih]
      by_cases hi : i = k
      · subst hi; simp only [getFrom, if_pos]
        rw [getFrom_of_below d i i t (Nat.le_refl _) h.2.2, hf, hv]
      · simp only [getFrom, if_neg hi]
    · have hx : (((k, v) :: t).map (fun c => (c.1, f c.2))).filter (fun c => decide (c.2 ≠ d)) =
          (k, f v) :: (t.map (fun c => (c.1, f c.2))).filter (fun c => decide (c.2 ≠ d)) := by simp [hv]
      rw [hx]
      simp only [getFrom]; split
      · rfl
      · exact ih

/-- A read after a change of every entry, of a canonical table and a change that keeps the power-on value. -/
theorem get_mapEntries [DecidableEq α] (d : α) (f : α → α) (hf : f d = d) {t : Table α} (h : t.wf d = true) (i : Nat) :
    (t.mapEntries d f).get d i = f (t.get d i) := getFrom_map d f hf i none t.cells h

/-! ### Cells and keys -/

/-- The cells of a canonical table are what it reads as. -/
theorem getFrom_of_mem [DecidableEq α] (d : α) :
    ∀ (lo : Option Nat) (l : List (Nat × α)), risesFrom d lo l = true → ∀ c ∈ l, getFrom d l c.1 = c.2 ∧ c.2 ≠ d ∧ ∀ b ∈ lo, b < c.1
  | _, [], _, _, hc => by cases hc
  | lo, (k, v) :: t, h, c, hc => by
    rw [risesFrom_cons] at h
    rcases List.mem_cons.1 hc with rfl | hc
    · exact ⟨by simp [getFrom], h.2.1, h.1⟩
    · obtain ⟨h1, h2, h3⟩ := getFrom_of_mem d (some k) t h.2.2 c hc
      have hk : k < c.1 := h3 k rfl
      exact ⟨by simp only [getFrom, if_neg (show c.1 ≠ k by omega)]; exact h1, h2, fun b hb => Nat.lt_trans (h.1 b hb) hk⟩

theorem mem_cells_iff [DecidableEq α] (d : α) {t : Table α} (h : t.wf d = true) (i : Nat) (v : α) :
    (i, v) ∈ t.cells ↔ t.get d i = v ∧ v ≠ d := by
  constructor
  · intro hc
    obtain ⟨h1, h2, -⟩ := getFrom_of_mem d none t.cells h (i, v) hc
    exact ⟨h1, h2⟩
  · rintro ⟨h1, h2⟩
    have key : ∀ l : List (Nat × α), getFrom d l i = v → (i, v) ∈ l := by
      intro l
      induction l with
      | nil => intro he; exact absurd he.symm (by simpa [getFrom] using h2)
      | cons c t ih =>
        obtain ⟨k, w⟩ := c
        intro he
        simp only [getFrom] at he
        split at he
        · next hk => subst hk; subst he; simp
        · exact List.mem_cons_of_mem _ (ih he)
    exact key t.cells h1

/-- A key with an entry away from the power-on value is listed. -/
theorem mem_keys_of_get_ne (d : α) (t : Table α) (i : Nat) (h : t.get d i ≠ d) : i ∈ t.keys := by
  unfold get at h; unfold keys
  generalize t.cells = l at h
  induction l with
  | nil => exact absurd rfl h
  | cons c l ih =>
    obtain ⟨k, w⟩ := c
    by_cases hk : i = k
    · simp [hk]
    · simp only [getFrom, if_neg hk] at h
      simpa using Or.inr (by simpa using ih h)

/-- The keys of a canonical table are its entries away from the power-on value. -/
theorem mem_keys_iff [DecidableEq α] (d : α) {t : Table α} (h : t.wf d = true) (i : Nat) : i ∈ t.keys ↔ t.get d i ≠ d := by
  refine ⟨fun hi => ?_, mem_keys_of_get_ne d t i⟩
  obtain ⟨⟨k, v⟩, hc, rfl⟩ := List.mem_map.1 hi
  obtain ⟨h1, h2⟩ := (mem_cells_iff d h k v).1 hc
  simpa [h1] using h2

/-- Canonical tables that read alike are equal data. -/
theorem ext_of_get [DecidableEq α] (d : α) {t u : Table α} (ht : t.wf d = true) (hu : u.wf d = true)
    (h : ∀ i, t.get d i = u.get d i) : t = u := by
  have key : ∀ (l m : List (Nat × α)) (lo : Option Nat), risesFrom d lo l = true → risesFrom d lo m = true →
      (∀ i, getFrom d l i = getFrom d m i) → l = m := by
    intro l
    induction l with
    | nil =>
      intro m lo _ hm hg
      cases m with
      | nil => rfl
      | cons c m =>
        obtain ⟨k, v⟩ := c
        have hv := ((risesFrom_cons d lo k v m).1 hm).2.1
        have := hg k
        simp only [getFrom, if_pos] at this
        exact absurd this.symm hv
    | cons c l ih =>
      obtain ⟨k, v⟩ := c
      intro m lo hl hm hg
      have hl' := (risesFrom_cons d lo k v l).1 hl
      cases m with
      | nil =>
        have := hg k
        simp only [getFrom, if_pos] at this
        exact absurd this hl'.2.1
      | cons c' m =>
        obtain ⟨k', v'⟩ := c'
        have hm' := (risesFrom_cons d lo k' v' m).1 hm
        have hk : k = k' := by
          rcases Nat.lt_trichotomy k k' with hlt | he | hgt
          · have := hg k
            simp only [getFrom, if_pos, if_neg (show k ≠ k' by omega)] at this
            rw [getFrom_of_below d k k' m (by omega) hm'.2.2] at this
            exact absurd this hl'.2.1
          · exact he
          · have := hg k'
            simp only [getFrom, if_pos, if_neg (show k' ≠ k by omega)] at this
            rw [getFrom_of_below d k' k l (by omega) hl'.2.2] at this
            exact absurd this.symm hm'.2.1
        subst hk
        have hvv : v = v' := by simpa [getFrom] using hg k
        subst hvv
        refine congrArg _ (ih m (some k) hl'.2.2 hm'.2.2 (fun i => ?_))
        by_cases hi : i = k
        · subst hi
          rw [getFrom_of_below d i i l (Nat.le_refl _) hl'.2.2, getFrom_of_below d i i m (Nat.le_refl _) hm'.2.2]
        · simpa [getFrom, hi] using hg i
  cases t; cases u
  exact congrArg Table.mk (key _ _ none ht hu h)

end Sys2Proof.Table
end

