-- ==== Sys2Proof/Laws/State.lean ====
section
/-! SUPPORT. What each named update of the state leaves in each field, and what each reader reads after it. -/

namespace Sys2Proof.Machine

variable (s : State)

/-! ### State.setLink -/

@[simp] theorem State.setLink_pending (l : Nat) (x : Link) : (s.setLink l x).pending = s.pending := rfl
@[simp] theorem State.setLink_part (l : Nat) (x : Link) : (s.setLink l x).part = s.part := rfl
@[simp] theorem State.setLink_limits (l : Nat) (x : Link) : (s.setLink l x).limits = s.limits := rfl
@[simp] theorem State.setLink_clock (l : Nat) (x : Link) : (s.setLink l x).clock = s.clock := rfl
@[simp] theorem State.setLink_events (l : Nat) (x : Link) : (s.setLink l x).events = s.events := rfl
@[simp] theorem State.setLink_counters (l : Nat) (x : Link) : (s.setLink l x).counters = s.counters := rfl
@[simp] theorem State.setLink_out (l : Nat) (x : Link) : (s.setLink l x).out = s.out := rfl
@[simp] theorem State.setLink_programs (l : Nat) (x : Link) : (s.setLink l x).programs = s.programs := rfl
@[simp] theorem State.setLink_dirMode (l : Nat) (x : Link) : (s.setLink l x).dirMode = s.dirMode := rfl
@[simp] theorem State.setLink_passRanges (l : Nat) (x : Link) : (s.setLink l x).passRanges = s.passRanges := rfl
@[simp] theorem State.setLink_fault (l : Nat) (x : Link) : (s.setLink l x).fault = s.fault := rfl
@[simp] theorem State.setLink_dir (l : Nat) (x : Link) : (s.setLink l x).dir = s.dir := rfl
@[simp] theorem State.setLink_holds (l : Nat) (x : Link) : (s.setLink l x).holds = s.holds := rfl
@[simp] theorem State.setLink_notes (l : Nat) (x : Link) : (s.setLink l x).notes = s.notes := rfl
@[simp] theorem State.setLink_renoted (l : Nat) (x : Link) : (s.setLink l x).renoted = s.renoted := rfl
@[simp] theorem State.setLink_generations (l : Nat) (x : Link) : (s.setLink l x).generations = s.generations := rfl
@[simp] theorem State.setLink_requests (l : Nat) (x : Link) : (s.setLink l x).requests = s.requests := rfl
@[simp] theorem State.setLink_exposures (l : Nat) (x : Link) : (s.setLink l x).exposures = s.exposures := rfl
@[simp] theorem State.setLink_journal (l : Nat) (x : Link) : (s.setLink l x).journal = s.journal := rfl
@[simp] theorem State.setLink_siteIds (l : Nat) (x : Link) : (s.setLink l x).siteIds = s.siteIds := rfl
@[simp] theorem State.setLink_siteHolds (l : Nat) (x : Link) : (s.setLink l x).siteHolds = s.siteHolds := rfl
@[simp] theorem State.setLink_slices (l : Nat) (x : Link) : (s.setLink l x).slices = s.slices := rfl
@[simp] theorem State.setLink_tills (l : Nat) (x : Link) : (s.setLink l x).tills = s.tills := rfl
@[simp] theorem State.setLink_links (l : Nat) (x : Link) : (s.setLink l x).links = s.links.set Link.default l x := rfl
@[simp] theorem State.setLink_nextStay (l : Nat) (x : Link) : (s.setLink l x).nextStay = s.nextStay := rfl
@[simp] theorem State.setLink_nextHold (l : Nat) (x : Link) : (s.setLink l x).nextHold = s.nextHold := rfl
@[simp] theorem State.setLink_nextEntry (l : Nat) (x : Link) : (s.setLink l x).nextEntry = s.nextEntry := rfl
@[simp] theorem State.setLink_nextSlot (l : Nat) (x : Link) : (s.setLink l x).nextSlot = s.nextSlot := rfl
@[simp] theorem State.setLink_sentToHost (l : Nat) (x : Link) : (s.setLink l x).sentToHost = s.sentToHost := rfl
theorem State.setLink_link (l : Nat) (x : Link) (k : Nat) : (s.setLink l x).link k = if k = l then x else s.link k := Table.get_set _ _ _ _ _
@[simp] theorem State.setLink_link_same (l : Nat) (x : Link) : (s.setLink l x).link l = x := Table.get_set_same _ _ _ _
@[simp] theorem State.setLink_till (l : Nat) (x : Link) (k : Nat) : (s.setLink l x).till k = s.till k := rfl
@[simp] theorem State.setLink_program (l : Nat) (x : Link) (k : Nat) : (s.setLink l x).program k = s.program k := rfl
@[simp] theorem State.setLink_passRange (l : Nat) (x : Link) (k : Nat) : (s.setLink l x).passRange k = s.passRange k := rfl
@[simp] theorem State.setLink_dirSet (l : Nat) (x : Link) (k : Nat) : (s.setLink l x).dirSet k = s.dirSet k := rfl
@[simp] theorem State.setLink_generation (l : Nat) (x : Link) (k : Nat) : (s.setLink l x).generation k = s.generation k := rfl
@[simp] theorem State.setLink_request (l : Nat) (x : Link) (k : Nat) : (s.setLink l x).request k = s.request k := rfl
@[simp] theorem State.setLink_exposure (l : Nat) (x : Link) (k : Nat) : (s.setLink l x).exposure k = s.exposure k := rfl
@[simp] theorem State.setLink_siteId (l : Nat) (x : Link) (k : Nat) : (s.setLink l x).siteId k = s.siteId k := rfl
@[simp] theorem State.setLink_siteHoldCount (l : Nat) (x : Link) (k : Nat) : (s.setLink l x).siteHoldCount k = s.siteHoldCount k := rfl
@[simp] theorem State.setLink_slice (l : Nat) (x : Link) (k : Nat) : (s.setLink l x).slice k = s.slice k := rfl
@[simp] theorem State.setLink_now (l : Nat) (x : Link) : (s.setLink l x).now = s.now := rfl
@[simp] theorem State.setLink_date (l : Nat) (x : Link) : (s.setLink l x).date = s.date := rfl
@[simp] theorem State.setLink_findWay (l : Nat) (x : Link) (card : Nat) : (s.setLink l x).findWay card = s.findWay card := rfl
@[simp] theorem State.setLink_recordOf (l : Nat) (x : Link) (card : Nat) : (s.setLink l x).recordOf card = s.recordOf card := rfl

/-! ### State.setTill -/

@[simp] theorem State.setTill_pending (n : Nat) (x : Till) : (s.setTill n x).pending = s.pending := rfl
@[simp] theorem State.setTill_part (n : Nat) (x : Till) : (s.setTill n x).part = s.part := rfl
@[simp] theorem State.setTill_limits (n : Nat) (x : Till) : (s.setTill n x).limits = s.limits := rfl
@[simp] theorem State.setTill_clock (n : Nat) (x : Till) : (s.setTill n x).clock = s.clock := rfl
@[simp] theorem State.setTill_events (n : Nat) (x : Till) : (s.setTill n x).events = s.events := rfl
@[simp] theorem State.setTill_counters (n : Nat) (x : Till) : (s.setTill n x).counters = s.counters := rfl
@[simp] theorem State.setTill_out (n : Nat) (x : Till) : (s.setTill n x).out = s.out := rfl
@[simp] theorem State.setTill_programs (n : Nat) (x : Till) : (s.setTill n x).programs = s.programs := rfl
@[simp] theorem State.setTill_dirMode (n : Nat) (x : Till) : (s.setTill n x).dirMode = s.dirMode := rfl
@[simp] theorem State.setTill_passRanges (n : Nat) (x : Till) : (s.setTill n x).passRanges = s.passRanges := rfl
@[simp] theorem State.setTill_fault (n : Nat) (x : Till) : (s.setTill n x).fault = s.fault := rfl
@[simp] theorem State.setTill_dir (n : Nat) (x : Till) : (s.setTill n x).dir = s.dir := rfl
@[simp] theorem State.setTill_holds (n : Nat) (x : Till) : (s.setTill n x).holds = s.holds := rfl
@[simp] theorem State.setTill_notes (n : Nat) (x : Till) : (s.setTill n x).notes = s.notes := rfl
@[simp] theorem State.setTill_renoted (n : Nat) (x : Till) : (s.setTill n x).renoted = s.renoted := rfl
@[simp] theorem State.setTill_generations (n : Nat) (x : Till) : (s.setTill n x).generations = s.generations := rfl
@[simp] theorem State.setTill_requests (n : Nat) (x : Till) : (s.setTill n x).requests = s.requests := rfl
@[simp] theorem State.setTill_exposures (n : Nat) (x : Till) : (s.setTill n x).exposures = s.exposures := rfl
@[simp] theorem State.setTill_journal (n : Nat) (x : Till) : (s.setTill n x).journal = s.journal := rfl
@[simp] theorem State.setTill_siteIds (n : Nat) (x : Till) : (s.setTill n x).siteIds = s.siteIds := rfl
@[simp] theorem State.setTill_siteHolds (n : Nat) (x : Till) : (s.setTill n x).siteHolds = s.siteHolds := rfl
@[simp] theorem State.setTill_slices (n : Nat) (x : Till) : (s.setTill n x).slices = s.slices := rfl
@[simp] theorem State.setTill_tills (n : Nat) (x : Till) : (s.setTill n x).tills = s.tills.set Till.default n x := rfl
@[simp] theorem State.setTill_links (n : Nat) (x : Till) : (s.setTill n x).links = s.links := rfl
@[simp] theorem State.setTill_nextStay (n : Nat) (x : Till) : (s.setTill n x).nextStay = s.nextStay := rfl
@[simp] theorem State.setTill_nextHold (n : Nat) (x : Till) : (s.setTill n x).nextHold = s.nextHold := rfl
@[simp] theorem State.setTill_nextEntry (n : Nat) (x : Till) : (s.setTill n x).nextEntry = s.nextEntry := rfl
@[simp] theorem State.setTill_nextSlot (n : Nat) (x : Till) : (s.setTill n x).nextSlot = s.nextSlot := rfl
@[simp] theorem State.setTill_sentToHost (n : Nat) (x : Till) : (s.setTill n x).sentToHost = s.sentToHost := rfl
@[simp] theorem State.setTill_link (n : Nat) (x : Till) (k : Nat) : (s.setTill n x).link k = s.link k := rfl
theorem State.setTill_till (n : Nat) (x : Till) (k : Nat) : (s.setTill n x).till k = if k = n then x else s.till k := Table.get_set _ _ _ _ _
@[simp] theorem State.setTill_till_same (n : Nat) (x : Till) : (s.setTill n x).till n = x := Table.get_set_same _ _ _ _
@[simp] theorem State.setTill_program (n : Nat) (x : Till) (k : Nat) : (s.setTill n x).program k = s.program k := rfl
@[simp] theorem State.setTill_passRange (n : Nat) (x : Till) (k : Nat) : (s.setTill n x).passRange k = s.passRange k := rfl
@[simp] theorem State.setTill_dirSet (n : Nat) (x : Till) (k : Nat) : (s.setTill n x).dirSet k = s.dirSet k := rfl
@[simp] theorem State.setTill_generation (n : Nat) (x : Till) (k : Nat) : (s.setTill n x).generation k = s.generation k := rfl
@[simp] theorem State.setTill_request (n : Nat) (x : Till) (k : Nat) : (s.setTill n x).request k = s.request k := rfl
@[simp] theorem State.setTill_exposure (n : Nat) (x : Till) (k : Nat) : (s.setTill n x).exposure k = s.exposure k := rfl
@[simp] theorem State.setTill_siteId (n : Nat) (x : Till) (k : Nat) : (s.setTill n x).siteId k = s.siteId k := rfl
@[simp] theorem State.setTill_siteHoldCount (n : Nat) (x : Till) (k : Nat) : (s.setTill n x).siteHoldCount k = s.siteHoldCount k := rfl
@[simp] theorem State.setTill_slice (n : Nat) (x : Till) (k : Nat) : (s.setTill n x).slice k = s.slice k := rfl
@[simp] theorem State.setTill_now (n : Nat) (x : Till) : (s.setTill n x).now = s.now := rfl
@[simp] theorem State.setTill_date (n : Nat) (x : Till) : (s.setTill n x).date = s.date := rfl
@[simp] theorem State.setTill_findWay (n : Nat) (x : Till) (card : Nat) : (s.setTill n x).findWay card = s.findWay card := rfl
@[simp] theorem State.setTill_recordOf (n : Nat) (x : Till) (card : Nat) : (s.setTill n x).recordOf card = s.recordOf card := rfl

/-! ### State.setProgram -/

@[simp] theorem State.setProgram_pending (n : Nat) (x : Program) : (s.setProgram n x).pending = s.pending := rfl
@[simp] theorem State.setProgram_part (n : Nat) (x : Program) : (s.setProgram n x).part = s.part := rfl
@[simp] theorem State.setProgram_limits (n : Nat) (x : Program) : (s.setProgram n x).limits = s.limits := rfl
@[simp] theorem State.setProgram_clock (n : Nat) (x : Program) : (s.setProgram n x).clock = s.clock := rfl
@[simp] theorem State.setProgram_events (n : Nat) (x : Program) : (s.setProgram n x).events = s.events := rfl
@[simp] theorem State.setProgram_counters (n : Nat) (x : Program) : (s.setProgram n x).counters = s.counters := rfl
@[simp] theorem State.setProgram_out (n : Nat) (x : Program) : (s.setProgram n x).out = s.out := rfl
@[simp] theorem State.setProgram_programs (n : Nat) (x : Program) : (s.setProgram n x).programs = s.programs.set Program.default n x := rfl
@[simp] theorem State.setProgram_dirMode (n : Nat) (x : Program) : (s.setProgram n x).dirMode = s.dirMode := rfl
@[simp] theorem State.setProgram_passRanges (n : Nat) (x : Program) : (s.setProgram n x).passRanges = s.passRanges := rfl
@[simp] theorem State.setProgram_fault (n : Nat) (x : Program) : (s.setProgram n x).fault = s.fault := rfl
@[simp] theorem State.setProgram_dir (n : Nat) (x : Program) : (s.setProgram n x).dir = s.dir := rfl
@[simp] theorem State.setProgram_holds (n : Nat) (x : Program) : (s.setProgram n x).holds = s.holds := rfl
@[simp] theorem State.setProgram_notes (n : Nat) (x : Program) : (s.setProgram n x).notes = s.notes := rfl
@[simp] theorem State.setProgram_renoted (n : Nat) (x : Program) : (s.setProgram n x).renoted = s.renoted := rfl
@[simp] theorem State.setProgram_generations (n : Nat) (x : Program) : (s.setProgram n x).generations = s.generations := rfl
@[simp] theorem State.setProgram_requests (n : Nat) (x : Program) : (s.setProgram n x).requests = s.requests := rfl
@[simp] theorem State.setProgram_exposures (n : Nat) (x : Program) : (s.setProgram n x).exposures = s.exposures := rfl
@[simp] theorem State.setProgram_journal (n : Nat) (x : Program) : (s.setProgram n x).journal = s.journal := rfl
@[simp] theorem State.setProgram_siteIds (n : Nat) (x : Program) : (s.setProgram n x).siteIds = s.siteIds := rfl
@[simp] theorem State.setProgram_siteHolds (n : Nat) (x : Program) : (s.setProgram n x).siteHolds = s.siteHolds := rfl
@[simp] theorem State.setProgram_slices (n : Nat) (x : Program) : (s.setProgram n x).slices = s.slices := rfl
@[simp] theorem State.setProgram_tills (n : Nat) (x : Program) : (s.setProgram n x).tills = s.tills := rfl
@[simp] theorem State.setProgram_links (n : Nat) (x : Program) : (s.setProgram n x).links = s.links := rfl
@[simp] theorem State.setProgram_nextStay (n : Nat) (x : Program) : (s.setProgram n x).nextStay = s.nextStay := rfl
@[simp] theorem State.setProgram_nextHold (n : Nat) (x : Program) : (s.setProgram n x).nextHold = s.nextHold := rfl
@[simp] theorem State.setProgram_nextEntry (n : Nat) (x : Program) : (s.setProgram n x).nextEntry = s.nextEntry := rfl
@[simp] theorem State.setProgram_nextSlot (n : Nat) (x : Program) : (s.setProgram n x).nextSlot = s.nextSlot := rfl
@[simp] theorem State.setProgram_sentToHost (n : Nat) (x : Program) : (s.setProgram n x).sentToHost = s.sentToHost := rfl
@[simp] theorem State.setProgram_link (n : Nat) (x : Program) (k : Nat) : (s.setProgram n x).link k = s.link k := rfl
@[simp] theorem State.setProgram_till (n : Nat) (x : Program) (k : Nat) : (s.setProgram n x).till k = s.till k := rfl
theorem State.setProgram_program (n : Nat) (x : Program) (k : Nat) : (s.setProgram n x).program k = if k = n then x else s.program k := Table.get_set _ _ _ _ _
@[simp] theorem State.setProgram_program_same (n : Nat) (x : Program) : (s.setProgram n x).program n = x := Table.get_set_same _ _ _ _
@[simp] theorem State.setProgram_passRange (n : Nat) (x : Program) (k : Nat) : (s.setProgram n x).passRange k = s.passRange k := rfl
@[simp] theorem State.setProgram_dirSet (n : Nat) (x : Program) (k : Nat) : (s.setProgram n x).dirSet k = s.dirSet k := rfl
@[simp] theorem State.setProgram_generation (n : Nat) (x : Program) (k : Nat) : (s.setProgram n x).generation k = s.generation k := rfl
@[simp] theorem State.setProgram_request (n : Nat) (x : Program) (k : Nat) : (s.setProgram n x).request k = s.request k := rfl
@[simp] theorem State.setProgram_exposure (n : Nat) (x : Program) (k : Nat) : (s.setProgram n x).exposure k = s.exposure k := rfl
@[simp] theorem State.setProgram_siteId (n : Nat) (x : Program) (k : Nat) : (s.setProgram n x).siteId k = s.siteId k := rfl
@[simp] theorem State.setProgram_siteHoldCount (n : Nat) (x : Program) (k : Nat) : (s.setProgram n x).siteHoldCount k = s.siteHoldCount k := rfl
@[simp] theorem State.setProgram_slice (n : Nat) (x : Program) (k : Nat) : (s.setProgram n x).slice k = s.slice k := rfl
@[simp] theorem State.setProgram_now (n : Nat) (x : Program) : (s.setProgram n x).now = s.now := rfl
@[simp] theorem State.setProgram_date (n : Nat) (x : Program) : (s.setProgram n x).date = s.date := rfl
@[simp] theorem State.setProgram_findWay (n : Nat) (x : Program) (card : Nat) : (s.setProgram n x).findWay card = s.findWay card := rfl
@[simp] theorem State.setProgram_recordOf (n : Nat) (x : Program) (card : Nat) : (s.setProgram n x).recordOf card = s.recordOf card := rfl

/-! ### State.setDirSet -/

@[simp] theorem State.setDirSet_pending (n : Nat) (x : DirSet) : (s.setDirSet n x).pending = s.pending := rfl
@[simp] theorem State.setDirSet_part (n : Nat) (x : DirSet) : (s.setDirSet n x).part = s.part := rfl
@[simp] theorem State.setDirSet_limits (n : Nat) (x : DirSet) : (s.setDirSet n x).limits = s.limits := rfl
@[simp] theorem State.setDirSet_clock (n : Nat) (x : DirSet) : (s.setDirSet n x).clock = s.clock := rfl
@[simp] theorem State.setDirSet_events (n : Nat) (x : DirSet) : (s.setDirSet n x).events = s.events := rfl
@[simp] theorem State.setDirSet_counters (n : Nat) (x : DirSet) : (s.setDirSet n x).counters = s.counters := rfl
@[simp] theorem State.setDirSet_out (n : Nat) (x : DirSet) : (s.setDirSet n x).out = s.out := rfl
@[simp] theorem State.setDirSet_programs (n : Nat) (x : DirSet) : (s.setDirSet n x).programs = s.programs := rfl
@[simp] theorem State.setDirSet_dirMode (n : Nat) (x : DirSet) : (s.setDirSet n x).dirMode = s.dirMode := rfl
@[simp] theorem State.setDirSet_passRanges (n : Nat) (x : DirSet) : (s.setDirSet n x).passRanges = s.passRanges := rfl
@[simp] theorem State.setDirSet_fault (n : Nat) (x : DirSet) : (s.setDirSet n x).fault = s.fault := rfl
@[simp] theorem State.setDirSet_dir (n : Nat) (x : DirSet) : (s.setDirSet n x).dir = s.dir.set DirSet.default n x := rfl
@[simp] theorem State.setDirSet_holds (n : Nat) (x : DirSet) : (s.setDirSet n x).holds = s.holds := rfl
@[simp] theorem State.setDirSet_notes (n : Nat) (x : DirSet) : (s.setDirSet n x).notes = s.notes := rfl
@[simp] theorem State.setDirSet_renoted (n : Nat) (x : DirSet) : (s.setDirSet n x).renoted = s.renoted := rfl
@[simp] theorem State.setDirSet_generations (n : Nat) (x : DirSet) : (s.setDirSet n x).generations = s.generations := rfl
@[simp] theorem State.setDirSet_requests (n : Nat) (x : DirSet) : (s.setDirSet n x).requests = s.requests := rfl
@[simp] theorem State.setDirSet_exposures (n : Nat) (x : DirSet) : (s.setDirSet n x).exposures = s.exposures := rfl
@[simp] theorem State.setDirSet_journal (n : Nat) (x : DirSet) : (s.setDirSet n x).journal = s.journal := rfl
@[simp] theorem State.setDirSet_siteIds (n : Nat) (x : DirSet) : (s.setDirSet n x).siteIds = s.siteIds := rfl
@[simp] theorem State.setDirSet_siteHolds (n : Nat) (x : DirSet) : (s.setDirSet n x).siteHolds = s.siteHolds := rfl
@[simp] theorem State.setDirSet_slices (n : Nat) (x : DirSet) : (s.setDirSet n x).slices = s.slices := rfl
@[simp] theorem State.setDirSet_tills (n : Nat) (x : DirSet) : (s.setDirSet n x).tills = s.tills := rfl
@[simp] theorem State.setDirSet_links (n : Nat) (x : DirSet) : (s.setDirSet n x).links = s.links := rfl
@[simp] theorem State.setDirSet_nextStay (n : Nat) (x : DirSet) : (s.setDirSet n x).nextStay = s.nextStay := rfl
@[simp] theorem State.setDirSet_nextHold (n : Nat) (x : DirSet) : (s.setDirSet n x).nextHold = s.nextHold := rfl
@[simp] theorem State.setDirSet_nextEntry (n : Nat) (x : DirSet) : (s.setDirSet n x).nextEntry = s.nextEntry := rfl
@[simp] theorem State.setDirSet_nextSlot (n : Nat) (x : DirSet) : (s.setDirSet n x).nextSlot = s.nextSlot := rfl
@[simp] theorem State.setDirSet_sentToHost (n : Nat) (x : DirSet) : (s.setDirSet n x).sentToHost = s.sentToHost := rfl
@[simp] theorem State.setDirSet_link (n : Nat) (x : DirSet) (k : Nat) : (s.setDirSet n x).link k = s.link k := rfl
@[simp] theorem State.setDirSet_till (n : Nat) (x : DirSet) (k : Nat) : (s.setDirSet n x).till k = s.till k := rfl
@[simp] theorem State.setDirSet_program (n : Nat) (x : DirSet) (k : Nat) : (s.setDirSet n x).program k = s.program k := rfl
@[simp] theorem State.setDirSet_passRange (n : Nat) (x : DirSet) (k : Nat) : (s.setDirSet n x).passRange k = s.passRange k := rfl
theorem State.setDirSet_dirSet (n : Nat) (x : DirSet) (k : Nat) : (s.setDirSet n x).dirSet k = if k = n then x else s.dirSet k := Table.get_set _ _ _ _ _
@[simp] theorem State.setDirSet_dirSet_same (n : Nat) (x : DirSet) : (s.setDirSet n x).dirSet n = x := Table.get_set_same _ _ _ _
@[simp] theorem State.setDirSet_generation (n : Nat) (x : DirSet) (k : Nat) : (s.setDirSet n x).generation k = s.generation k := rfl
@[simp] theorem State.setDirSet_request (n : Nat) (x : DirSet) (k : Nat) : (s.setDirSet n x).request k = s.request k := rfl
@[simp] theorem State.setDirSet_exposure (n : Nat) (x : DirSet) (k : Nat) : (s.setDirSet n x).exposure k = s.exposure k := rfl
@[simp] theorem State.setDirSet_siteId (n : Nat) (x : DirSet) (k : Nat) : (s.setDirSet n x).siteId k = s.siteId k := rfl
@[simp] theorem State.setDirSet_siteHoldCount (n : Nat) (x : DirSet) (k : Nat) : (s.setDirSet n x).siteHoldCount k = s.siteHoldCount k := rfl
@[simp] theorem State.setDirSet_slice (n : Nat) (x : DirSet) (k : Nat) : (s.setDirSet n x).slice k = s.slice k := rfl
@[simp] theorem State.setDirSet_now (n : Nat) (x : DirSet) : (s.setDirSet n x).now = s.now := rfl
@[simp] theorem State.setDirSet_date (n : Nat) (x : DirSet) : (s.setDirSet n x).date = s.date := rfl

/-! ### State.setRequest -/

@[simp] theorem State.setRequest_pending (n : Nat) (x : Option HostEntry) : (s.setRequest n x).pending = s.pending := rfl
@[simp] theorem State.setRequest_part (n : Nat) (x : Option HostEntry) : (s.setRequest n x).part = s.part := rfl
@[simp] theorem State.setRequest_limits (n : Nat) (x : Option HostEntry) : (s.setRequest n x).limits = s.limits := rfl
@[simp] theorem State.setRequest_clock (n : Nat) (x : Option HostEntry) : (s.setRequest n x).clock = s.clock := rfl
@[simp] theorem State.setRequest_events (n : Nat) (x : Option HostEntry) : (s.setRequest n x).events = s.events := rfl
@[simp] theorem State.setRequest_counters (n : Nat) (x : Option HostEntry) : (s.setRequest n x).counters = s.counters := rfl
@[simp] theorem State.setRequest_out (n : Nat) (x : Option HostEntry) : (s.setRequest n x).out = s.out := rfl
@[simp] theorem State.setRequest_programs (n : Nat) (x : Option HostEntry) : (s.setRequest n x).programs = s.programs := rfl
@[simp] theorem State.setRequest_dirMode (n : Nat) (x : Option HostEntry) : (s.setRequest n x).dirMode = s.dirMode := rfl
@[simp] theorem State.setRequest_passRanges (n : Nat) (x : Option HostEntry) : (s.setRequest n x).passRanges = s.passRanges := rfl
@[simp] theorem State.setRequest_fault (n : Nat) (x : Option HostEntry) : (s.setRequest n x).fault = s.fault := rfl
@[simp] theorem State.setRequest_dir (n : Nat) (x : Option HostEntry) : (s.setRequest n x).dir = s.dir := rfl
@[simp] theorem State.setRequest_holds (n : Nat) (x : Option HostEntry) : (s.setRequest n x).holds = s.holds := rfl
@[simp] theorem State.setRequest_notes (n : Nat) (x : Option HostEntry) : (s.setRequest n x).notes = s.notes := rfl
@[simp] theorem State.setRequest_renoted (n : Nat) (x : Option HostEntry) : (s.setRequest n x).renoted = s.renoted := rfl
@[simp] theorem State.setRequest_generations (n : Nat) (x : Option HostEntry) : (s.setRequest n x).generations = s.generations := rfl
@[simp] theorem State.setRequest_requests (n : Nat) (x : Option HostEntry) : (s.setRequest n x).requests = s.requests.set none n x := rfl
@[simp] theorem State.setRequest_exposures (n : Nat) (x : Option HostEntry) : (s.setRequest n x).exposures = s.exposures := rfl
@[simp] theorem State.setRequest_journal (n : Nat) (x : Option HostEntry) : (s.setRequest n x).journal = s.journal := rfl
@[simp] theorem State.setRequest_siteIds (n : Nat) (x : Option HostEntry) : (s.setRequest n x).siteIds = s.siteIds := rfl
@[simp] theorem State.setRequest_siteHolds (n : Nat) (x : Option HostEntry) : (s.setRequest n x).siteHolds = s.siteHolds := rfl
@[simp] theorem State.setRequest_slices (n : Nat) (x : Option HostEntry) : (s.setRequest n x).slices = s.slices := rfl
@[simp] theorem State.setRequest_tills (n : Nat) (x : Option HostEntry) : (s.setRequest n x).tills = s.tills := rfl
@[simp] theorem State.setRequest_links (n : Nat) (x : Option HostEntry) : (s.setRequest n x).links = s.links := rfl
@[simp] theorem State.setRequest_nextStay (n : Nat) (x : Option HostEntry) : (s.setRequest n x).nextStay = s.nextStay := rfl
@[simp] theorem State.setRequest_nextHold (n : Nat) (x : Option HostEntry) : (s.setRequest n x).nextHold = s.nextHold := rfl
@[simp] theorem State.setRequest_nextEntry (n : Nat) (x : Option HostEntry) : (s.setRequest n x).nextEntry = s.nextEntry := rfl
@[simp] theorem State.setRequest_nextSlot (n : Nat) (x : Option HostEntry) : (s.setRequest n x).nextSlot = s.nextSlot := rfl
@[simp] theorem State.setRequest_sentToHost (n : Nat) (x : Option HostEntry) : (s.setRequest n x).sentToHost = s.sentToHost := rfl
@[simp] theorem State.setRequest_link (n : Nat) (x : Option HostEntry) (k : Nat) : (s.setRequest n x).link k = s.link k := rfl
@[simp] theorem State.setRequest_till (n : Nat) (x : Option HostEntry) (k : Nat) : (s.setRequest n x).till k = s.till k := rfl
@[simp] theorem State.setRequest_program (n : Nat) (x : Option HostEntry) (k : Nat) : (s.setRequest n x).program k = s.program k := rfl
@[simp] theorem State.setRequest_passRange (n : Nat) (x : Option HostEntry) (k : Nat) : (s.setRequest n x).passRange k = s.passRange k := rfl
@[simp] theorem State.setRequest_dirSet (n : Nat) (x : Option HostEntry) (k : Nat) : (s.setRequest n x).dirSet k = s.dirSet k := rfl
@[simp] theorem State.setRequest_generation (n : Nat) (x : Option HostEntry) (k : Nat) : (s.setRequest n x).generation k = s.generation k := rfl
theorem State.setRequest_request (n : Nat) (x : Option HostEntry) (k : Nat) : (s.setRequest n x).request k = if k = n then x else s.request k := Table.get_set _ _ _ _ _
@[simp] theorem State.setRequest_request_same (n : Nat) (x : Option HostEntry) : (s.setRequest n x).request n = x := Table.get_set_same _ _ _ _
@[simp] theorem State.setRequest_exposure (n : Nat) (x : Option HostEntry) (k : Nat) : (s.setRequest n x).exposure k = s.exposure k := rfl
@[simp] theorem State.setRequest_siteId (n : Nat) (x : Option HostEntry) (k : Nat) : (s.setRequest n x).siteId k = s.siteId k := rfl
@[simp] theorem State.setRequest_siteHoldCount (n : Nat) (x : Option HostEntry) (k : Nat) : (s.setRequest n x).siteHoldCount k = s.siteHoldCount k := rfl
@[simp] theorem State.setRequest_slice (n : Nat) (x : Option HostEntry) (k : Nat) : (s.setRequest n x).slice k = s.slice k := rfl
@[simp] theorem State.setRequest_now (n : Nat) (x : Option HostEntry) : (s.setRequest n x).now = s.now := rfl
@[simp] theorem State.setRequest_date (n : Nat) (x : Option HostEntry) : (s.setRequest n x).date = s.date := rfl
@[simp] theorem State.setRequest_findWay (n : Nat) (x : Option HostEntry) (card : Nat) : (s.setRequest n x).findWay card = s.findWay card := rfl
@[simp] theorem State.setRequest_recordOf (n : Nat) (x : Option HostEntry) (card : Nat) : (s.setRequest n x).recordOf card = s.recordOf card := rfl

/-! ### State.setExposure -/

@[simp] theorem State.setExposure_pending (n : Nat) (x : Exposure) : (s.setExposure n x).pending = s.pending := rfl
@[simp] theorem State.setExposure_part (n : Nat) (x : Exposure) : (s.setExposure n x).part = s.part := rfl
@[simp] theorem State.setExposure_limits (n : Nat) (x : Exposure) : (s.setExposure n x).limits = s.limits := rfl
@[simp] theorem State.setExposure_clock (n : Nat) (x : Exposure) : (s.setExposure n x).clock = s.clock := rfl
@[simp] theorem State.setExposure_events (n : Nat) (x : Exposure) : (s.setExposure n x).events = s.events := rfl
@[simp] theorem State.setExposure_counters (n : Nat) (x : Exposure) : (s.setExposure n x).counters = s.counters := rfl
@[simp] theorem State.setExposure_out (n : Nat) (x : Exposure) : (s.setExposure n x).out = s.out := rfl
@[simp] theorem State.setExposure_programs (n : Nat) (x : Exposure) : (s.setExposure n x).programs = s.programs := rfl
@[simp] theorem State.setExposure_dirMode (n : Nat) (x : Exposure) : (s.setExposure n x).dirMode = s.dirMode := rfl
@[simp] theorem State.setExposure_passRanges (n : Nat) (x : Exposure) : (s.setExposure n x).passRanges = s.passRanges := rfl
@[simp] theorem State.setExposure_fault (n : Nat) (x : Exposure) : (s.setExposure n x).fault = s.fault := rfl
@[simp] theorem State.setExposure_dir (n : Nat) (x : Exposure) : (s.setExposure n x).dir = s.dir := rfl
@[simp] theorem State.setExposure_holds (n : Nat) (x : Exposure) : (s.setExposure n x).holds = s.holds := rfl
@[simp] theorem State.setExposure_notes (n : Nat) (x : Exposure) : (s.setExposure n x).notes = s.notes := rfl
@[simp] theorem State.setExposure_renoted (n : Nat) (x : Exposure) : (s.setExposure n x).renoted = s.renoted := rfl
@[simp] theorem State.setExposure_generations (n : Nat) (x : Exposure) : (s.setExposure n x).generations = s.generations := rfl
@[simp] theorem State.setExposure_requests (n : Nat) (x : Exposure) : (s.setExposure n x).requests = s.requests := rfl
@[simp] theorem State.setExposure_exposures (n : Nat) (x : Exposure) : (s.setExposure n x).exposures = s.exposures.set Exposure.none n x := rfl
@[simp] theorem State.setExposure_journal (n : Nat) (x : Exposure) : (s.setExposure n x).journal = s.journal := rfl
@[simp] theorem State.setExposure_siteIds (n : Nat) (x : Exposure) : (s.setExposure n x).siteIds = s.siteIds := rfl
@[simp] theorem State.setExposure_siteHolds (n : Nat) (x : Exposure) : (s.setExposure n x).siteHolds = s.siteHolds := rfl
@[simp] theorem State.setExposure_slices (n : Nat) (x : Exposure) : (s.setExposure n x).slices = s.slices := rfl
@[simp] theorem State.setExposure_tills (n : Nat) (x : Exposure) : (s.setExposure n x).tills = s.tills := rfl
@[simp] theorem State.setExposure_links (n : Nat) (x : Exposure) : (s.setExposure n x).links = s.links := rfl
@[simp] theorem State.setExposure_nextStay (n : Nat) (x : Exposure) : (s.setExposure n x).nextStay = s.nextStay := rfl
@[simp] theorem State.setExposure_nextHold (n : Nat) (x : Exposure) : (s.setExposure n x).nextHold = s.nextHold := rfl
@[simp] theorem State.setExposure_nextEntry (n : Nat) (x : Exposure) : (s.setExposure n x).nextEntry = s.nextEntry := rfl
@[simp] theorem State.setExposure_nextSlot (n : Nat) (x : Exposure) : (s.setExposure n x).nextSlot = s.nextSlot := rfl
@[simp] theorem State.setExposure_sentToHost (n : Nat) (x : Exposure) : (s.setExposure n x).sentToHost = s.sentToHost := rfl
@[simp] theorem State.setExposure_link (n : Nat) (x : Exposure) (k : Nat) : (s.setExposure n x).link k = s.link k := rfl
@[simp] theorem State.setExposure_till (n : Nat) (x : Exposure) (k : Nat) : (s.setExposure n x).till k = s.till k := rfl
@[simp] theorem State.setExposure_program (n : Nat) (x : Exposure) (k : Nat) : (s.setExposure n x).program k = s.program k := rfl
@[simp] theorem State.setExposure_passRange (n : Nat) (x : Exposure) (k : Nat) : (s.setExposure n x).passRange k = s.passRange k := rfl
@[simp] theorem State.setExposure_dirSet (n : Nat) (x : Exposure) (k : Nat) : (s.setExposure n x).dirSet k = s.dirSet k := rfl
@[simp] theorem State.setExposure_generation (n : Nat) (x : Exposure) (k : Nat) : (s.setExposure n x).generation k = s.generation k := rfl
@[simp] theorem State.setExposure_request (n : Nat) (x : Exposure) (k : Nat) : (s.setExposure n x).request k = s.request k := rfl
theorem State.setExposure_exposure (n : Nat) (x : Exposure) (k : Nat) : (s.setExposure n x).exposure k = if k = n then x else s.exposure k := Table.get_set _ _ _ _ _
@[simp] theorem State.setExposure_exposure_same (n : Nat) (x : Exposure) : (s.setExposure n x).exposure n = x := Table.get_set_same _ _ _ _
@[simp] theorem State.setExposure_siteId (n : Nat) (x : Exposure) (k : Nat) : (s.setExposure n x).siteId k = s.siteId k := rfl
@[simp] theorem State.setExposure_siteHoldCount (n : Nat) (x : Exposure) (k : Nat) : (s.setExposure n x).siteHoldCount k = s.siteHoldCount k := rfl
@[simp] theorem State.setExposure_slice (n : Nat) (x : Exposure) (k : Nat) : (s.setExposure n x).slice k = s.slice k := rfl
@[simp] theorem State.setExposure_now (n : Nat) (x : Exposure) : (s.setExposure n x).now = s.now := rfl
@[simp] theorem State.setExposure_date (n : Nat) (x : Exposure) : (s.setExposure n x).date = s.date := rfl
@[simp] theorem State.setExposure_findWay (n : Nat) (x : Exposure) (card : Nat) : (s.setExposure n x).findWay card = s.findWay card := rfl
@[simp] theorem State.setExposure_recordOf (n : Nat) (x : Exposure) (card : Nat) : (s.setExposure n x).recordOf card = s.recordOf card := rfl

/-! ### State.queue -/

@[simp] theorem State.queue_pending (m : HostMsg) : (s.queue m).pending = s.pending := rfl
@[simp] theorem State.queue_part (m : HostMsg) : (s.queue m).part = s.part := rfl
@[simp] theorem State.queue_limits (m : HostMsg) : (s.queue m).limits = s.limits := rfl
@[simp] theorem State.queue_clock (m : HostMsg) : (s.queue m).clock = s.clock := rfl
@[simp] theorem State.queue_events (m : HostMsg) : (s.queue m).events = s.events := rfl
@[simp] theorem State.queue_counters (m : HostMsg) : (s.queue m).counters = s.counters := rfl
@[simp] theorem State.queue_out (m : HostMsg) : (s.queue m).out = s.out ++ [m] := rfl
@[simp] theorem State.queue_programs (m : HostMsg) : (s.queue m).programs = s.programs := rfl
@[simp] theorem State.queue_dirMode (m : HostMsg) : (s.queue m).dirMode = s.dirMode := rfl
@[simp] theorem State.queue_passRanges (m : HostMsg) : (s.queue m).passRanges = s.passRanges := rfl
@[simp] theorem State.queue_fault (m : HostMsg) : (s.queue m).fault = s.fault := rfl
@[simp] theorem State.queue_dir (m : HostMsg) : (s.queue m).dir = s.dir := rfl
@[simp] theorem State.queue_holds (m : HostMsg) : (s.queue m).holds = s.holds := rfl
@[simp] theorem State.queue_notes (m : HostMsg) : (s.queue m).notes = s.notes := rfl
@[simp] theorem State.queue_renoted (m : HostMsg) : (s.queue m).renoted = s.renoted := rfl
@[simp] theorem State.queue_generations (m : HostMsg) : (s.queue m).generations = s.generations := rfl
@[simp] theorem State.queue_requests (m : HostMsg) : (s.queue m).requests = s.requests := rfl
@[simp] theorem State.queue_exposures (m : HostMsg) : (s.queue m).exposures = s.exposures := rfl
@[simp] theorem State.queue_journal (m : HostMsg) : (s.queue m).journal = s.journal := rfl
@[simp] theorem State.queue_siteIds (m : HostMsg) : (s.queue m).siteIds = s.siteIds := rfl
@[simp] theorem State.queue_siteHolds (m : HostMsg) : (s.queue m).siteHolds = s.siteHolds := rfl
@[simp] theorem State.queue_slices (m : HostMsg) : (s.queue m).slices = s.slices := rfl
@[simp] theorem State.queue_tills (m : HostMsg) : (s.queue m).tills = s.tills := rfl
@[simp] theorem State.queue_links (m : HostMsg) : (s.queue m).links = s.links := rfl
@[simp] theorem State.queue_nextStay (m : HostMsg) : (s.queue m).nextStay = s.nextStay := rfl
@[simp] theorem State.queue_nextHold (m : HostMsg) : (s.queue m).nextHold = s.nextHold := rfl
@[simp] theorem State.queue_nextEntry (m : HostMsg) : (s.queue m).nextEntry = s.nextEntry := rfl
@[simp] theorem State.queue_nextSlot (m : HostMsg) : (s.queue m).nextSlot = s.nextSlot := rfl
@[simp] theorem State.queue_sentToHost (m : HostMsg) : (s.queue m).sentToHost = s.sentToHost := rfl
@[simp] theorem State.queue_link (m : HostMsg) (k : Nat) : (s.queue m).link k = s.link k := rfl
@[simp] theorem State.queue_till (m : HostMsg) (k : Nat) : (s.queue m).till k = s.till k := rfl
@[simp] theorem State.queue_program (m : HostMsg) (k : Nat) : (s.queue m).program k = s.program k := rfl
@[simp] theorem State.queue_passRange (m : HostMsg) (k : Nat) : (s.queue m).passRange k = s.passRange k := rfl
@[simp] theorem State.queue_dirSet (m : HostMsg) (k : Nat) : (s.queue m).dirSet k = s.dirSet k := rfl
@[simp] theorem State.queue_generation (m : HostMsg) (k : Nat) : (s.queue m).generation k = s.generation k := rfl
@[simp] theorem State.queue_request (m : HostMsg) (k : Nat) : (s.queue m).request k = s.request k := rfl
@[simp] theorem State.queue_exposure (m : HostMsg) (k : Nat) : (s.queue m).exposure k = s.exposure k := rfl
@[simp] theorem State.queue_siteId (m : HostMsg) (k : Nat) : (s.queue m).siteId k = s.siteId k := rfl
@[simp] theorem State.queue_siteHoldCount (m : HostMsg) (k : Nat) : (s.queue m).siteHoldCount k = s.siteHoldCount k := rfl
@[simp] theorem State.queue_slice (m : HostMsg) (k : Nat) : (s.queue m).slice k = s.slice k := rfl
@[simp] theorem State.queue_now (m : HostMsg) : (s.queue m).now = s.now := rfl
@[simp] theorem State.queue_date (m : HostMsg) : (s.queue m).date = s.date := rfl
@[simp] theorem State.queue_findWay (m : HostMsg) (card : Nat) : (s.queue m).findWay card = s.findWay card := rfl
@[simp] theorem State.queue_recordOf (m : HostMsg) (card : Nat) : (s.queue m).recordOf card = s.recordOf card := rfl

/-! ### State.raise -/

@[simp] theorem State.raise_pending (e : Event) (d : NoticeData) : (s.raise e d).pending = s.pending := rfl
@[simp] theorem State.raise_part (e : Event) (d : NoticeData) : (s.raise e d).part = s.part := rfl
@[simp] theorem State.raise_limits (e : Event) (d : NoticeData) : (s.raise e d).limits = s.limits := rfl
@[simp] theorem State.raise_clock (e : Event) (d : NoticeData) : (s.raise e d).clock = s.clock := rfl
@[simp] theorem State.raise_events (e : Event) (d : NoticeData) : (s.raise e d).events = { s.events with pending := s.events.pending ||| e.bit } := rfl
@[simp] theorem State.raise_counters (e : Event) (d : NoticeData) : (s.raise e d).counters = s.counters := rfl
@[simp] theorem State.raise_out (e : Event) (d : NoticeData) : (s.raise e d).out = if s.events.notices e then s.out ++ [.notice e s.now d] else s.out := rfl
@[simp] theorem State.raise_programs (e : Event) (d : NoticeData) : (s.raise e d).programs = s.programs := rfl
@[simp] theorem State.raise_dirMode (e : Event) (d : NoticeData) : (s.raise e d).dirMode = s.dirMode := rfl
@[simp] theorem State.raise_passRanges (e : Event) (d : NoticeData) : (s.raise e d).passRanges = s.passRanges := rfl
@[simp] theorem State.raise_fault (e : Event) (d : NoticeData) : (s.raise e d).fault = s.fault := rfl
@[simp] theorem State.raise_dir (e : Event) (d : NoticeData) : (s.raise e d).dir = s.dir := rfl
@[simp] theorem State.raise_holds (e : Event) (d : NoticeData) : (s.raise e d).holds = s.holds := rfl
@[simp] theorem State.raise_notes (e : Event) (d : NoticeData) : (s.raise e d).notes = s.notes := rfl
@[simp] theorem State.raise_renoted (e : Event) (d : NoticeData) : (s.raise e d).renoted = s.renoted := rfl
@[simp] theorem State.raise_generations (e : Event) (d : NoticeData) : (s.raise e d).generations = s.generations := rfl
@[simp] theorem State.raise_requests (e : Event) (d : NoticeData) : (s.raise e d).requests = s.requests := rfl
@[simp] theorem State.raise_exposures (e : Event) (d : NoticeData) : (s.raise e d).exposures = s.exposures := rfl
@[simp] theorem State.raise_journal (e : Event) (d : NoticeData) : (s.raise e d).journal = s.journal := rfl
@[simp] theorem State.raise_siteIds (e : Event) (d : NoticeData) : (s.raise e d).siteIds = s.siteIds := rfl
@[simp] theorem State.raise_siteHolds (e : Event) (d : NoticeData) : (s.raise e d).siteHolds = s.siteHolds := rfl
@[simp] theorem State.raise_slices (e : Event) (d : NoticeData) : (s.raise e d).slices = s.slices := rfl
@[simp] theorem State.raise_tills (e : Event) (d : NoticeData) : (s.raise e d).tills = s.tills := rfl
@[simp] theorem State.raise_links (e : Event) (d : NoticeData) : (s.raise e d).links = s.links := rfl
@[simp] theorem State.raise_nextStay (e : Event) (d : NoticeData) : (s.raise e d).nextStay = s.nextStay := rfl
@[simp] theorem State.raise_nextHold (e : Event) (d : NoticeData) : (s.raise e d).nextHold = s.nextHold := rfl
@[simp] theorem State.raise_nextEntry (e : Event) (d : NoticeData) : (s.raise e d).nextEntry = s.nextEntry := rfl
@[simp] theorem State.raise_nextSlot (e : Event) (d : NoticeData) : (s.raise e d).nextSlot = s.nextSlot := rfl
@[simp] theorem State.raise_sentToHost (e : Event) (d : NoticeData) : (s.raise e d).sentToHost = s.sentToHost := rfl
@[simp] theorem State.raise_link (e : Event) (d : NoticeData) (k : Nat) : (s.raise e d).link k = s.link k := rfl
@[simp] theorem State.raise_till (e : Event) (d : NoticeData) (k : Nat) : (s.raise e d).till k = s.till k := rfl
@[simp] theorem State.raise_program (e : Event) (d : NoticeData) (k : Nat) : (s.raise e d).program k = s.program k := rfl
@[simp] theorem State.raise_passRange (e : Event) (d : NoticeData) (k : Nat) : (s.raise e d).passRange k = s.passRange k := rfl
@[simp] theorem State.raise_dirSet (e : Event) (d : NoticeData) (k : Nat) : (s.raise e d).dirSet k = s.dirSet k := rfl
@[simp] theorem State.raise_generation (e : Event) (d : NoticeData) (k : Nat) : (s.raise e d).generation k = s.generation k := rfl
@[simp] theorem State.raise_request (e : Event) (d : NoticeData) (k : Nat) : (s.raise e d).request k = s.request k := rfl
@[simp] theorem State.raise_exposure (e : Event) (d : NoticeData) (k : Nat) : (s.raise e d).exposure k = s.exposure k := rfl
@[simp] theorem State.raise_siteId (e : Event) (d : NoticeData) (k : Nat) : (s.raise e d).siteId k = s.siteId k := rfl
@[simp] theorem State.raise_siteHoldCount (e : Event) (d : NoticeData) (k : Nat) : (s.raise e d).siteHoldCount k = s.siteHoldCount k := rfl
@[simp] theorem State.raise_slice (e : Event) (d : NoticeData) (k : Nat) : (s.raise e d).slice k = s.slice k := rfl
@[simp] theorem State.raise_now (e : Event) (d : NoticeData) : (s.raise e d).now = s.now := rfl
@[simp] theorem State.raise_date (e : Event) (d : NoticeData) : (s.raise e d).date = s.date := rfl
@[simp] theorem State.raise_findWay (e : Event) (d : NoticeData) (card : Nat) : (s.raise e d).findWay card = s.findWay card := rfl
@[simp] theorem State.raise_recordOf (e : Event) (d : NoticeData) (card : Nat) : (s.raise e d).recordOf card = s.recordOf card := rfl

/-! ### State.bumpGeneration -/

@[simp] theorem State.bumpGeneration_pending (n : Nat) : (s.bumpGeneration n).pending = s.pending := rfl
@[simp] theorem State.bumpGeneration_part (n : Nat) : (s.bumpGeneration n).part = s.part := rfl
@[simp] theorem State.bumpGeneration_limits (n : Nat) : (s.bumpGeneration n).limits = s.limits := rfl
@[simp] theorem State.bumpGeneration_clock (n : Nat) : (s.bumpGeneration n).clock = s.clock := rfl
@[simp] theorem State.bumpGeneration_events (n : Nat) : (s.bumpGeneration n).events = s.events := rfl
@[simp] theorem State.bumpGeneration_counters (n : Nat) : (s.bumpGeneration n).counters = s.counters := rfl
@[simp] theorem State.bumpGeneration_out (n : Nat) : (s.bumpGeneration n).out = s.out := rfl
@[simp] theorem State.bumpGeneration_programs (n : Nat) : (s.bumpGeneration n).programs = s.programs := rfl
@[simp] theorem State.bumpGeneration_dirMode (n : Nat) : (s.bumpGeneration n).dirMode = s.dirMode := rfl
@[simp] theorem State.bumpGeneration_passRanges (n : Nat) : (s.bumpGeneration n).passRanges = s.passRanges := rfl
@[simp] theorem State.bumpGeneration_fault (n : Nat) : (s.bumpGeneration n).fault = s.fault := rfl
@[simp] theorem State.bumpGeneration_dir (n : Nat) : (s.bumpGeneration n).dir = s.dir := rfl
@[simp] theorem State.bumpGeneration_holds (n : Nat) : (s.bumpGeneration n).holds = s.holds := rfl
@[simp] theorem State.bumpGeneration_notes (n : Nat) : (s.bumpGeneration n).notes = s.notes := rfl
@[simp] theorem State.bumpGeneration_renoted (n : Nat) : (s.bumpGeneration n).renoted = s.renoted := rfl
@[simp] theorem State.bumpGeneration_generations (n : Nat) : (s.bumpGeneration n).generations = s.generations.set 0 n (nextGeneration (s.generation n)) := rfl
@[simp] theorem State.bumpGeneration_requests (n : Nat) : (s.bumpGeneration n).requests = s.requests := rfl
@[simp] theorem State.bumpGeneration_exposures (n : Nat) : (s.bumpGeneration n).exposures = s.exposures := rfl
@[simp] theorem State.bumpGeneration_journal (n : Nat) : (s.bumpGeneration n).journal = s.journal := rfl
@[simp] theorem State.bumpGeneration_siteIds (n : Nat) : (s.bumpGeneration n).siteIds = s.siteIds := rfl
@[simp] theorem State.bumpGeneration_siteHolds (n : Nat) : (s.bumpGeneration n).siteHolds = s.siteHolds := rfl
@[simp] theorem State.bumpGeneration_slices (n : Nat) : (s.bumpGeneration n).slices = s.slices := rfl
@[simp] theorem State.bumpGeneration_tills (n : Nat) : (s.bumpGeneration n).tills = s.tills := rfl
@[simp] theorem State.bumpGeneration_links (n : Nat) : (s.bumpGeneration n).links = s.links := rfl
@[simp] theorem State.bumpGeneration_nextStay (n : Nat) : (s.bumpGeneration n).nextStay = s.nextStay := rfl
@[simp] theorem State.bumpGeneration_nextHold (n : Nat) : (s.bumpGeneration n).nextHold = s.nextHold := rfl
@[simp] theorem State.bumpGeneration_nextEntry (n : Nat) : (s.bumpGeneration n).nextEntry = s.nextEntry := rfl
@[simp] theorem State.bumpGeneration_nextSlot (n : Nat) : (s.bumpGeneration n).nextSlot = s.nextSlot := rfl
@[simp] theorem State.bumpGeneration_sentToHost (n : Nat) : (s.bumpGeneration n).sentToHost = s.sentToHost := rfl
@[simp] theorem State.bumpGeneration_link (n : Nat) (k : Nat) : (s.bumpGeneration n).link k = s.link k := rfl
@[simp] theorem State.bumpGeneration_till (n : Nat) (k : Nat) : (s.bumpGeneration n).till k = s.till k := rfl
@[simp] theorem State.bumpGeneration_program (n : Nat) (k : Nat) : (s.bumpGeneration n).program k = s.program k := rfl
@[simp] theorem State.bumpGeneration_passRange (n : Nat) (k : Nat) : (s.bumpGeneration n).passRange k = s.passRange k := rfl
@[simp] theorem State.bumpGeneration_dirSet (n : Nat) (k : Nat) : (s.bumpGeneration n).dirSet k = s.dirSet k := rfl
theorem State.bumpGeneration_generation (n : Nat) (k : Nat) : (s.bumpGeneration n).generation k = if k = n then (nextGeneration (s.generation n)) else s.generation k := Table.get_set _ _ _ _ _
@[simp] theorem State.bumpGeneration_generation_same (n : Nat) : (s.bumpGeneration n).generation n = (nextGeneration (s.generation n)) := Table.get_set_same _ _ _ _
@[simp] theorem State.bumpGeneration_request (n : Nat) (k : Nat) : (s.bumpGeneration n).request k = s.request k := rfl
@[simp] theorem State.bumpGeneration_exposure (n : Nat) (k : Nat) : (s.bumpGeneration n).exposure k = s.exposure k := rfl
@[simp] theorem State.bumpGeneration_siteId (n : Nat) (k : Nat) : (s.bumpGeneration n).siteId k = s.siteId k := rfl
@[simp] theorem State.bumpGeneration_siteHoldCount (n : Nat) (k : Nat) : (s.bumpGeneration n).siteHoldCount k = s.siteHoldCount k := rfl
@[simp] theorem State.bumpGeneration_slice (n : Nat) (k : Nat) : (s.bumpGeneration n).slice k = s.slice k := rfl
@[simp] theorem State.bumpGeneration_now (n : Nat) : (s.bumpGeneration n).now = s.now := rfl
@[simp] theorem State.bumpGeneration_date (n : Nat) : (s.bumpGeneration n).date = s.date := rfl
@[simp] theorem State.bumpGeneration_findWay (n : Nat) (card : Nat) : (s.bumpGeneration n).findWay card = s.findWay card := rfl
@[simp] theorem State.bumpGeneration_recordOf (n : Nat) (card : Nat) : (s.bumpGeneration n).recordOf card = s.recordOf card := rfl

/-! ### State.countSite -/

@[simp] theorem State.countSite_pending (n : Nat) (f : Nat → Nat) : (s.countSite n f).pending = s.pending := rfl
@[simp] theorem State.countSite_part (n : Nat) (f : Nat → Nat) : (s.countSite n f).part = s.part := rfl
@[simp] theorem State.countSite_limits (n : Nat) (f : Nat → Nat) : (s.countSite n f).limits = s.limits := rfl
@[simp] theorem State.countSite_clock (n : Nat) (f : Nat → Nat) : (s.countSite n f).clock = s.clock := rfl
@[simp] theorem State.countSite_events (n : Nat) (f : Nat → Nat) : (s.countSite n f).events = s.events := rfl
@[simp] theorem State.countSite_counters (n : Nat) (f : Nat → Nat) : (s.countSite n f).counters = s.counters := rfl
@[simp] theorem State.countSite_out (n : Nat) (f : Nat → Nat) : (s.countSite n f).out = s.out := rfl
@[simp] theorem State.countSite_programs (n : Nat) (f : Nat → Nat) : (s.countSite n f).programs = s.programs := rfl
@[simp] theorem State.countSite_dirMode (n : Nat) (f : Nat → Nat) : (s.countSite n f).dirMode = s.dirMode := rfl
@[simp] theorem State.countSite_passRanges (n : Nat) (f : Nat → Nat) : (s.countSite n f).passRanges = s.passRanges := rfl
@[simp] theorem State.countSite_fault (n : Nat) (f : Nat → Nat) : (s.countSite n f).fault = s.fault := rfl
@[simp] theorem State.countSite_dir (n : Nat) (f : Nat → Nat) : (s.countSite n f).dir = s.dir := rfl
@[simp] theorem State.countSite_holds (n : Nat) (f : Nat → Nat) : (s.countSite n f).holds = s.holds := rfl
@[simp] theorem State.countSite_notes (n : Nat) (f : Nat → Nat) : (s.countSite n f).notes = s.notes := rfl
@[simp] theorem State.countSite_renoted (n : Nat) (f : Nat → Nat) : (s.countSite n f).renoted = s.renoted := rfl
@[simp] theorem State.countSite_generations (n : Nat) (f : Nat → Nat) : (s.countSite n f).generations = s.generations := rfl
@[simp] theorem State.countSite_requests (n : Nat) (f : Nat → Nat) : (s.countSite n f).requests = s.requests := rfl
@[simp] theorem State.countSite_exposures (n : Nat) (f : Nat → Nat) : (s.countSite n f).exposures = s.exposures := rfl
@[simp] theorem State.countSite_journal (n : Nat) (f : Nat → Nat) : (s.countSite n f).journal = s.journal := rfl
@[simp] theorem State.countSite_siteIds (n : Nat) (f : Nat → Nat) : (s.countSite n f).siteIds = s.siteIds := rfl
@[simp] theorem State.countSite_siteHolds (n : Nat) (f : Nat → Nat) : (s.countSite n f).siteHolds = s.siteHolds.set 0 n (f (s.siteHoldCount n)) := rfl
@[simp] theorem State.countSite_slices (n : Nat) (f : Nat → Nat) : (s.countSite n f).slices = s.slices := rfl
@[simp] theorem State.countSite_tills (n : Nat) (f : Nat → Nat) : (s.countSite n f).tills = s.tills := rfl
@[simp] theorem State.countSite_links (n : Nat) (f : Nat → Nat) : (s.countSite n f).links = s.links := rfl
@[simp] theorem State.countSite_nextStay (n : Nat) (f : Nat → Nat) : (s.countSite n f).nextStay = s.nextStay := rfl
@[simp] theorem State.countSite_nextHold (n : Nat) (f : Nat → Nat) : (s.countSite n f).nextHold = s.nextHold := rfl
@[simp] theorem State.countSite_nextEntry (n : Nat) (f : Nat → Nat) : (s.countSite n f).nextEntry = s.nextEntry := rfl
@[simp] theorem State.countSite_nextSlot (n : Nat) (f : Nat → Nat) : (s.countSite n f).nextSlot = s.nextSlot := rfl
@[simp] theorem State.countSite_sentToHost (n : Nat) (f : Nat → Nat) : (s.countSite n f).sentToHost = s.sentToHost := rfl
@[simp] theorem State.countSite_link (n : Nat) (f : Nat → Nat) (k : Nat) : (s.countSite n f).link k = s.link k := rfl
@[simp] theorem State.countSite_till (n : Nat) (f : Nat → Nat) (k : Nat) : (s.countSite n f).till k = s.till k := rfl
@[simp] theorem State.countSite_program (n : Nat) (f : Nat → Nat) (k : Nat) : (s.countSite n f).program k = s.program k := rfl
@[simp] theorem State.countSite_passRange (n : Nat) (f : Nat → Nat) (k : Nat) : (s.countSite n f).passRange k = s.passRange k := rfl
@[simp] theorem State.countSite_dirSet (n : Nat) (f : Nat → Nat) (k : Nat) : (s.countSite n f).dirSet k = s.dirSet k := rfl
@[simp] theorem State.countSite_generation (n : Nat) (f : Nat → Nat) (k : Nat) : (s.countSite n f).generation k = s.generation k := rfl
@[simp] theorem State.countSite_request (n : Nat) (f : Nat → Nat) (k : Nat) : (s.countSite n f).request k = s.request k := rfl
@[simp] theorem State.countSite_exposure (n : Nat) (f : Nat → Nat) (k : Nat) : (s.countSite n f).exposure k = s.exposure k := rfl
@[simp] theorem State.countSite_siteId (n : Nat) (f : Nat → Nat) (k : Nat) : (s.countSite n f).siteId k = s.siteId k := rfl
theorem State.countSite_siteHoldCount (n : Nat) (f : Nat → Nat) (k : Nat) : (s.countSite n f).siteHoldCount k = if k = n then (f (s.siteHoldCount n)) else s.siteHoldCount k := Table.get_set _ _ _ _ _
@[simp] theorem State.countSite_siteHoldCount_same (n : Nat) (f : Nat → Nat) : (s.countSite n f).siteHoldCount n = (f (s.siteHoldCount n)) := Table.get_set_same _ _ _ _
@[simp] theorem State.countSite_slice (n : Nat) (f : Nat → Nat) (k : Nat) : (s.countSite n f).slice k = s.slice k := rfl
@[simp] theorem State.countSite_now (n : Nat) (f : Nat → Nat) : (s.countSite n f).now = s.now := rfl
@[simp] theorem State.countSite_date (n : Nat) (f : Nat → Nat) : (s.countSite n f).date = s.date := rfl
@[simp] theorem State.countSite_findWay (n : Nat) (f : Nat → Nat) (card : Nat) : (s.countSite n f).findWay card = s.findWay card := rfl
@[simp] theorem State.countSite_recordOf (n : Nat) (f : Nat → Nat) (card : Nat) : (s.countSite n f).recordOf card = s.recordOf card := rfl

/-! ### State.modHold -/

@[simp] theorem State.modHold_pending (n : Nat) (f : Hold → Hold) : (s.modHold n f).pending = s.pending := rfl
@[simp] theorem State.modHold_part (n : Nat) (f : Hold → Hold) : (s.modHold n f).part = s.part := rfl
@[simp] theorem State.modHold_limits (n : Nat) (f : Hold → Hold) : (s.modHold n f).limits = s.limits := rfl
@[simp] theorem State.modHold_clock (n : Nat) (f : Hold → Hold) : (s.modHold n f).clock = s.clock := rfl
@[simp] theorem State.modHold_events (n : Nat) (f : Hold → Hold) : (s.modHold n f).events = s.events := rfl
@[simp] theorem State.modHold_counters (n : Nat) (f : Hold → Hold) : (s.modHold n f).counters = s.counters := rfl
@[simp] theorem State.modHold_out (n : Nat) (f : Hold → Hold) : (s.modHold n f).out = s.out := rfl
@[simp] theorem State.modHold_programs (n : Nat) (f : Hold → Hold) : (s.modHold n f).programs = s.programs := rfl
@[simp] theorem State.modHold_dirMode (n : Nat) (f : Hold → Hold) : (s.modHold n f).dirMode = s.dirMode := rfl
@[simp] theorem State.modHold_passRanges (n : Nat) (f : Hold → Hold) : (s.modHold n f).passRanges = s.passRanges := rfl
@[simp] theorem State.modHold_fault (n : Nat) (f : Hold → Hold) : (s.modHold n f).fault = s.fault := rfl
@[simp] theorem State.modHold_dir (n : Nat) (f : Hold → Hold) : (s.modHold n f).dir = s.dir := rfl
@[simp] theorem State.modHold_holds (n : Nat) (f : Hold → Hold) : (s.modHold n f).holds = s.holds.map (fun h => if h.id = n then f h else h) := rfl
@[simp] theorem State.modHold_notes (n : Nat) (f : Hold → Hold) : (s.modHold n f).notes = s.notes := rfl
@[simp] theorem State.modHold_renoted (n : Nat) (f : Hold → Hold) : (s.modHold n f).renoted = s.renoted := rfl
@[simp] theorem State.modHold_generations (n : Nat) (f : Hold → Hold) : (s.modHold n f).generations = s.generations := rfl
@[simp] theorem State.modHold_requests (n : Nat) (f : Hold → Hold) : (s.modHold n f).requests = s.requests := rfl
@[simp] theorem State.modHold_exposures (n : Nat) (f : Hold → Hold) : (s.modHold n f).exposures = s.exposures := rfl
@[simp] theorem State.modHold_journal (n : Nat) (f : Hold → Hold) : (s.modHold n f).journal = s.journal := rfl
@[simp] theorem State.modHold_siteIds (n : Nat) (f : Hold → Hold) : (s.modHold n f).siteIds = s.siteIds := rfl
@[simp] theorem State.modHold_siteHolds (n : Nat) (f : Hold → Hold) : (s.modHold n f).siteHolds = s.siteHolds := rfl
@[simp] theorem State.modHold_slices (n : Nat) (f : Hold → Hold) : (s.modHold n f).slices = s.slices := rfl
@[simp] theorem State.modHold_tills (n : Nat) (f : Hold → Hold) : (s.modHold n f).tills = s.tills := rfl
@[simp] theorem State.modHold_links (n : Nat) (f : Hold → Hold) : (s.modHold n f).links = s.links := rfl
@[simp] theorem State.modHold_nextStay (n : Nat) (f : Hold → Hold) : (s.modHold n f).nextStay = s.nextStay := rfl
@[simp] theorem State.modHold_nextHold (n : Nat) (f : Hold → Hold) : (s.modHold n f).nextHold = s.nextHold := rfl
@[simp] theorem State.modHold_nextEntry (n : Nat) (f : Hold → Hold) : (s.modHold n f).nextEntry = s.nextEntry := rfl
@[simp] theorem State.modHold_nextSlot (n : Nat) (f : Hold → Hold) : (s.modHold n f).nextSlot = s.nextSlot := rfl
@[simp] theorem State.modHold_sentToHost (n : Nat) (f : Hold → Hold) : (s.modHold n f).sentToHost = s.sentToHost := rfl
@[simp] theorem State.modHold_link (n : Nat) (f : Hold → Hold) (k : Nat) : (s.modHold n f).link k = s.link k := rfl
@[simp] theorem State.modHold_till (n : Nat) (f : Hold → Hold) (k : Nat) : (s.modHold n f).till k = s.till k := rfl
@[simp] theorem State.modHold_program (n : Nat) (f : Hold → Hold) (k : Nat) : (s.modHold n f).program k = s.program k := rfl
@[simp] theorem State.modHold_passRange (n : Nat) (f : Hold → Hold) (k : Nat) : (s.modHold n f).passRange k = s.passRange k := rfl
@[simp] theorem State.modHold_dirSet (n : Nat) (f : Hold → Hold) (k : Nat) : (s.modHold n f).dirSet k = s.dirSet k := rfl
@[simp] theorem State.modHold_generation (n : Nat) (f : Hold → Hold) (k : Nat) : (s.modHold n f).generation k = s.generation k := rfl
@[simp] theorem State.modHold_request (n : Nat) (f : Hold → Hold) (k : Nat) : (s.modHold n f).request k = s.request k := rfl
@[simp] theorem State.modHold_exposure (n : Nat) (f : Hold → Hold) (k : Nat) : (s.modHold n f).exposure k = s.exposure k := rfl
@[simp] theorem State.modHold_siteId (n : Nat) (f : Hold → Hold) (k : Nat) : (s.modHold n f).siteId k = s.siteId k := rfl
@[simp] theorem State.modHold_siteHoldCount (n : Nat) (f : Hold → Hold) (k : Nat) : (s.modHold n f).siteHoldCount k = s.siteHoldCount k := rfl
@[simp] theorem State.modHold_slice (n : Nat) (f : Hold → Hold) (k : Nat) : (s.modHold n f).slice k = s.slice k := rfl
@[simp] theorem State.modHold_now (n : Nat) (f : Hold → Hold) : (s.modHold n f).now = s.now := rfl
@[simp] theorem State.modHold_date (n : Nat) (f : Hold → Hold) : (s.modHold n f).date = s.date := rfl
@[simp] theorem State.modHold_findWay (n : Nat) (f : Hold → Hold) (card : Nat) : (s.modHold n f).findWay card = s.findWay card := rfl
@[simp] theorem State.modHold_recordOf (n : Nat) (f : Hold → Hold) (card : Nat) : (s.modHold n f).recordOf card = s.recordOf card := rfl

/-! ### State.dropNotes -/

@[simp] theorem State.dropNotes_pending (n : Nat) (ref : Word32) : (s.dropNotes n ref).pending = s.pending := rfl
@[simp] theorem State.dropNotes_part (n : Nat) (ref : Word32) : (s.dropNotes n ref).part = s.part := rfl
@[simp] theorem State.dropNotes_limits (n : Nat) (ref : Word32) : (s.dropNotes n ref).limits = s.limits := rfl
@[simp] theorem State.dropNotes_clock (n : Nat) (ref : Word32) : (s.dropNotes n ref).clock = s.clock := rfl
@[simp] theorem State.dropNotes_events (n : Nat) (ref : Word32) : (s.dropNotes n ref).events = s.events := rfl
@[simp] theorem State.dropNotes_counters (n : Nat) (ref : Word32) : (s.dropNotes n ref).counters = s.counters := rfl
@[simp] theorem State.dropNotes_out (n : Nat) (ref : Word32) : (s.dropNotes n ref).out = s.out := rfl
@[simp] theorem State.dropNotes_programs (n : Nat) (ref : Word32) : (s.dropNotes n ref).programs = s.programs := rfl
@[simp] theorem State.dropNotes_dirMode (n : Nat) (ref : Word32) : (s.dropNotes n ref).dirMode = s.dirMode := rfl
@[simp] theorem State.dropNotes_passRanges (n : Nat) (ref : Word32) : (s.dropNotes n ref).passRanges = s.passRanges := rfl
@[simp] theorem State.dropNotes_fault (n : Nat) (ref : Word32) : (s.dropNotes n ref).fault = s.fault := rfl
@[simp] theorem State.dropNotes_dir (n : Nat) (ref : Word32) : (s.dropNotes n ref).dir = s.dir := rfl
@[simp] theorem State.dropNotes_holds (n : Nat) (ref : Word32) : (s.dropNotes n ref).holds = s.holds := rfl
@[simp] theorem State.dropNotes_notes (n : Nat) (ref : Word32) : (s.dropNotes n ref).notes = s.notes.filter (fun x => !x.hasKey n ref) := rfl
@[simp] theorem State.dropNotes_renoted (n : Nat) (ref : Word32) : (s.dropNotes n ref).renoted = s.renoted ++ (s.notes.filter (fun x => x.hasKey n ref)).map (fun x => x.hold) := rfl
@[simp] theorem State.dropNotes_generations (n : Nat) (ref : Word32) : (s.dropNotes n ref).generations = s.generations := rfl
@[simp] theorem State.dropNotes_requests (n : Nat) (ref : Word32) : (s.dropNotes n ref).requests = s.requests := rfl
@[simp] theorem State.dropNotes_exposures (n : Nat) (ref : Word32) : (s.dropNotes n ref).exposures = s.exposures := rfl
@[simp] theorem State.dropNotes_journal (n : Nat) (ref : Word32) : (s.dropNotes n ref).journal = s.journal := rfl
@[simp] theorem State.dropNotes_siteIds (n : Nat) (ref : Word32) : (s.dropNotes n ref).siteIds = s.siteIds := rfl
@[simp] theorem State.dropNotes_siteHolds (n : Nat) (ref : Word32) : (s.dropNotes n ref).siteHolds = s.siteHolds := rfl
@[simp] theorem State.dropNotes_slices (n : Nat) (ref : Word32) : (s.dropNotes n ref).slices = s.slices := rfl
@[simp] theorem State.dropNotes_tills (n : Nat) (ref : Word32) : (s.dropNotes n ref).tills = s.tills := rfl
@[simp] theorem State.dropNotes_links (n : Nat) (ref : Word32) : (s.dropNotes n ref).links = s.links := rfl
@[simp] theorem State.dropNotes_nextStay (n : Nat) (ref : Word32) : (s.dropNotes n ref).nextStay = s.nextStay := rfl
@[simp] theorem State.dropNotes_nextHold (n : Nat) (ref : Word32) : (s.dropNotes n ref).nextHold = s.nextHold := rfl
@[simp] theorem State.dropNotes_nextEntry (n : Nat) (ref : Word32) : (s.dropNotes n ref).nextEntry = s.nextEntry := rfl
@[simp] theorem State.dropNotes_nextSlot (n : Nat) (ref : Word32) : (s.dropNotes n ref).nextSlot = s.nextSlot := rfl
@[simp] theorem State.dropNotes_sentToHost (n : Nat) (ref : Word32) : (s.dropNotes n ref).sentToHost = s.sentToHost := rfl
@[simp] theorem State.dropNotes_link (n : Nat) (ref : Word32) (k : Nat) : (s.dropNotes n ref).link k = s.link k := rfl
@[simp] theorem State.dropNotes_till (n : Nat) (ref : Word32) (k : Nat) : (s.dropNotes n ref).till k = s.till k := rfl
@[simp] theorem State.dropNotes_program (n : Nat) (ref : Word32) (k : Nat) : (s.dropNotes n ref).program k = s.program k := rfl
@[simp] theorem State.dropNotes_passRange (n : Nat) (ref : Word32) (k : Nat) : (s.dropNotes n ref).passRange k = s.passRange k := rfl
@[simp] theorem State.dropNotes_dirSet (n : Nat) (ref : Word32) (k : Nat) : (s.dropNotes n ref).dirSet k = s.dirSet k := rfl
@[simp] theorem State.dropNotes_generation (n : Nat) (ref : Word32) (k : Nat) : (s.dropNotes n ref).generation k = s.generation k := rfl
@[simp] theorem State.dropNotes_request (n : Nat) (ref : Word32) (k : Nat) : (s.dropNotes n ref).request k = s.request k := rfl
@[simp] theorem State.dropNotes_exposure (n : Nat) (ref : Word32) (k : Nat) : (s.dropNotes n ref).exposure k = s.exposure k := rfl
@[simp] theorem State.dropNotes_siteId (n : Nat) (ref : Word32) (k : Nat) : (s.dropNotes n ref).siteId k = s.siteId k := rfl
@[simp] theorem State.dropNotes_siteHoldCount (n : Nat) (ref : Word32) (k : Nat) : (s.dropNotes n ref).siteHoldCount k = s.siteHoldCount k := rfl
@[simp] theorem State.dropNotes_slice (n : Nat) (ref : Word32) (k : Nat) : (s.dropNotes n ref).slice k = s.slice k := rfl
@[simp] theorem State.dropNotes_now (n : Nat) (ref : Word32) : (s.dropNotes n ref).now = s.now := rfl
@[simp] theorem State.dropNotes_date (n : Nat) (ref : Word32) : (s.dropNotes n ref).date = s.date := rfl
@[simp] theorem State.dropNotes_findWay (n : Nat) (ref : Word32) (card : Nat) : (s.dropNotes n ref).findWay card = s.findWay card := rfl
@[simp] theorem State.dropNotes_recordOf (n : Nat) (ref : Word32) (card : Nat) : (s.dropNotes n ref).recordOf card = s.recordOf card := rfl

/-! ### State.reserveSlot -/

@[simp] theorem State.reserveSlot_pending : (s.reserveSlot).pending = s.pending := rfl
@[simp] theorem State.reserveSlot_part : (s.reserveSlot).part = s.part := rfl
@[simp] theorem State.reserveSlot_limits : (s.reserveSlot).limits = s.limits := rfl
@[simp] theorem State.reserveSlot_clock : (s.reserveSlot).clock = s.clock := rfl
@[simp] theorem State.reserveSlot_events : (s.reserveSlot).events = s.events := rfl
@[simp] theorem State.reserveSlot_counters : (s.reserveSlot).counters = s.counters := rfl
@[simp] theorem State.reserveSlot_out : (s.reserveSlot).out = s.out := rfl
@[simp] theorem State.reserveSlot_programs : (s.reserveSlot).programs = s.programs := rfl
@[simp] theorem State.reserveSlot_dirMode : (s.reserveSlot).dirMode = s.dirMode := rfl
@[simp] theorem State.reserveSlot_passRanges : (s.reserveSlot).passRanges = s.passRanges := rfl
@[simp] theorem State.reserveSlot_fault : (s.reserveSlot).fault = s.fault := rfl
@[simp] theorem State.reserveSlot_dir : (s.reserveSlot).dir = s.dir := rfl
@[simp] theorem State.reserveSlot_holds : (s.reserveSlot).holds = s.holds := rfl
@[simp] theorem State.reserveSlot_notes : (s.reserveSlot).notes = s.notes := rfl
@[simp] theorem State.reserveSlot_renoted : (s.reserveSlot).renoted = s.renoted := rfl
@[simp] theorem State.reserveSlot_generations : (s.reserveSlot).generations = s.generations := rfl
@[simp] theorem State.reserveSlot_requests : (s.reserveSlot).requests = s.requests := rfl
@[simp] theorem State.reserveSlot_exposures : (s.reserveSlot).exposures = s.exposures := rfl
@[simp] theorem State.reserveSlot_journal : (s.reserveSlot).journal = { s.journal with reserved := s.journal.reserved + 1 } := rfl
@[simp] theorem State.reserveSlot_siteIds : (s.reserveSlot).siteIds = s.siteIds := rfl
@[simp] theorem State.reserveSlot_siteHolds : (s.reserveSlot).siteHolds = s.siteHolds := rfl
@[simp] theorem State.reserveSlot_slices : (s.reserveSlot).slices = s.slices := rfl
@[simp] theorem State.reserveSlot_tills : (s.reserveSlot).tills = s.tills := rfl
@[simp] theorem State.reserveSlot_links : (s.reserveSlot).links = s.links := rfl
@[simp] theorem State.reserveSlot_nextStay : (s.reserveSlot).nextStay = s.nextStay := rfl
@[simp] theorem State.reserveSlot_nextHold : (s.reserveSlot).nextHold = s.nextHold := rfl
@[simp] theorem State.reserveSlot_nextEntry : (s.reserveSlot).nextEntry = s.nextEntry := rfl
@[simp] theorem State.reserveSlot_nextSlot : (s.reserveSlot).nextSlot = s.nextSlot := rfl
@[simp] theorem State.reserveSlot_sentToHost : (s.reserveSlot).sentToHost = s.sentToHost := rfl
@[simp] theorem State.reserveSlot_link (k : Nat) : (s.reserveSlot).link k = s.link k := rfl
@[simp] theorem State.reserveSlot_till (k : Nat) : (s.reserveSlot).till k = s.till k := rfl
@[simp] theorem State.reserveSlot_program (k : Nat) : (s.reserveSlot).program k = s.program k := rfl
@[simp] theorem State.reserveSlot_passRange (k : Nat) : (s.reserveSlot).passRange k = s.passRange k := rfl
@[simp] theorem State.reserveSlot_dirSet (k : Nat) : (s.reserveSlot).dirSet k = s.dirSet k := rfl
@[simp] theorem State.reserveSlot_generation (k : Nat) : (s.reserveSlot).generation k = s.generation k := rfl
@[simp] theorem State.reserveSlot_request (k : Nat) : (s.reserveSlot).request k = s.request k := rfl
@[simp] theorem State.reserveSlot_exposure (k : Nat) : (s.reserveSlot).exposure k = s.exposure k := rfl
@[simp] theorem State.reserveSlot_siteId (k : Nat) : (s.reserveSlot).siteId k = s.siteId k := rfl
@[simp] theorem State.reserveSlot_siteHoldCount (k : Nat) : (s.reserveSlot).siteHoldCount k = s.siteHoldCount k := rfl
@[simp] theorem State.reserveSlot_slice (k : Nat) : (s.reserveSlot).slice k = s.slice k := rfl
@[simp] theorem State.reserveSlot_now : (s.reserveSlot).now = s.now := rfl
@[simp] theorem State.reserveSlot_date : (s.reserveSlot).date = s.date := rfl
@[simp] theorem State.reserveSlot_findWay (card : Nat) : (s.reserveSlot).findWay card = s.findWay card := rfl
@[simp] theorem State.reserveSlot_recordOf (card : Nat) : (s.reserveSlot).recordOf card = s.recordOf card := rfl

/-! ### State.releaseSlot -/

@[simp] theorem State.releaseSlot_pending : (s.releaseSlot).pending = s.pending := rfl
@[simp] theorem State.releaseSlot_part : (s.releaseSlot).part = s.part := rfl
@[simp] theorem State.releaseSlot_limits : (s.releaseSlot).limits = s.limits := rfl
@[simp] theorem State.releaseSlot_clock : (s.releaseSlot).clock = s.clock := rfl
@[simp] theorem State.releaseSlot_events : (s.releaseSlot).events = s.events := rfl
@[simp] theorem State.releaseSlot_counters : (s.releaseSlot).counters = s.counters := rfl
@[simp] theorem State.releaseSlot_out : (s.releaseSlot).out = s.out := rfl
@[simp] theorem State.releaseSlot_programs : (s.releaseSlot).programs = s.programs := rfl
@[simp] theorem State.releaseSlot_dirMode : (s.releaseSlot).dirMode = s.dirMode := rfl
@[simp] theorem State.releaseSlot_passRanges : (s.releaseSlot).passRanges = s.passRanges := rfl
@[simp] theorem State.releaseSlot_fault : (s.releaseSlot).fault = s.fault := rfl
@[simp] theorem State.releaseSlot_dir : (s.releaseSlot).dir = s.dir := rfl
@[simp] theorem State.releaseSlot_holds : (s.releaseSlot).holds = s.holds := rfl
@[simp] theorem State.releaseSlot_notes : (s.releaseSlot).notes = s.notes := rfl
@[simp] theorem State.releaseSlot_renoted : (s.releaseSlot).renoted = s.renoted := rfl
@[simp] theorem State.releaseSlot_generations : (s.releaseSlot).generations = s.generations := rfl
@[simp] theorem State.releaseSlot_requests : (s.releaseSlot).requests = s.requests := rfl
@[simp] theorem State.releaseSlot_exposures : (s.releaseSlot).exposures = s.exposures := rfl
@[simp] theorem State.releaseSlot_journal : (s.releaseSlot).journal = { s.journal with reserved := s.journal.reserved - 1 } := rfl
@[simp] theorem State.releaseSlot_siteIds : (s.releaseSlot).siteIds = s.siteIds := rfl
@[simp] theorem State.releaseSlot_siteHolds : (s.releaseSlot).siteHolds = s.siteHolds := rfl
@[simp] theorem State.releaseSlot_slices : (s.releaseSlot).slices = s.slices := rfl
@[simp] theorem State.releaseSlot_tills : (s.releaseSlot).tills = s.tills := rfl
@[simp] theorem State.releaseSlot_links : (s.releaseSlot).links = s.links := rfl
@[simp] theorem State.releaseSlot_nextStay : (s.releaseSlot).nextStay = s.nextStay := rfl
@[simp] theorem State.releaseSlot_nextHold : (s.releaseSlot).nextHold = s.nextHold := rfl
@[simp] theorem State.releaseSlot_nextEntry : (s.releaseSlot).nextEntry = s.nextEntry := rfl
@[simp] theorem State.releaseSlot_nextSlot : (s.releaseSlot).nextSlot = s.nextSlot := rfl
@[simp] theorem State.releaseSlot_sentToHost : (s.releaseSlot).sentToHost = s.sentToHost := rfl
@[simp] theorem State.releaseSlot_link (k : Nat) : (s.releaseSlot).link k = s.link k := rfl
@[simp] theorem State.releaseSlot_till (k : Nat) : (s.releaseSlot).till k = s.till k := rfl
@[simp] theorem State.releaseSlot_program (k : Nat) : (s.releaseSlot).program k = s.program k := rfl
@[simp] theorem State.releaseSlot_passRange (k : Nat) : (s.releaseSlot).passRange k = s.passRange k := rfl
@[simp] theorem State.releaseSlot_dirSet (k : Nat) : (s.releaseSlot).dirSet k = s.dirSet k := rfl
@[simp] theorem State.releaseSlot_generation (k : Nat) : (s.releaseSlot).generation k = s.generation k := rfl
@[simp] theorem State.releaseSlot_request (k : Nat) : (s.releaseSlot).request k = s.request k := rfl
@[simp] theorem State.releaseSlot_exposure (k : Nat) : (s.releaseSlot).exposure k = s.exposure k := rfl
@[simp] theorem State.releaseSlot_siteId (k : Nat) : (s.releaseSlot).siteId k = s.siteId k := rfl
@[simp] theorem State.releaseSlot_siteHoldCount (k : Nat) : (s.releaseSlot).siteHoldCount k = s.siteHoldCount k := rfl
@[simp] theorem State.releaseSlot_slice (k : Nat) : (s.releaseSlot).slice k = s.slice k := rfl
@[simp] theorem State.releaseSlot_now : (s.releaseSlot).now = s.now := rfl
@[simp] theorem State.releaseSlot_date : (s.releaseSlot).date = s.date := rfl
@[simp] theorem State.releaseSlot_findWay (card : Nat) : (s.releaseSlot).findWay card = s.findWay card := rfl
@[simp] theorem State.releaseSlot_recordOf (card : Nat) : (s.releaseSlot).recordOf card = s.recordOf card := rfl

/-! ### State.appendRecord -/

@[simp] theorem State.appendRecord_pending (r : JournalRecord) : (s.appendRecord r).pending = s.pending := rfl
@[simp] theorem State.appendRecord_part (r : JournalRecord) : (s.appendRecord r).part = s.part := rfl
@[simp] theorem State.appendRecord_limits (r : JournalRecord) : (s.appendRecord r).limits = s.limits := rfl
@[simp] theorem State.appendRecord_clock (r : JournalRecord) : (s.appendRecord r).clock = s.clock := rfl
@[simp] theorem State.appendRecord_events (r : JournalRecord) : (s.appendRecord r).events = s.events := rfl
@[simp] theorem State.appendRecord_counters (r : JournalRecord) : (s.appendRecord r).counters = s.counters := rfl
@[simp] theorem State.appendRecord_out (r : JournalRecord) : (s.appendRecord r).out = s.out := rfl
@[simp] theorem State.appendRecord_programs (r : JournalRecord) : (s.appendRecord r).programs = s.programs := rfl
@[simp] theorem State.appendRecord_dirMode (r : JournalRecord) : (s.appendRecord r).dirMode = s.dirMode := rfl
@[simp] theorem State.appendRecord_passRanges (r : JournalRecord) : (s.appendRecord r).passRanges = s.passRanges := rfl
@[simp] theorem State.appendRecord_fault (r : JournalRecord) : (s.appendRecord r).fault = s.fault := rfl
@[simp] theorem State.appendRecord_dir (r : JournalRecord) : (s.appendRecord r).dir = s.dir := rfl
@[simp] theorem State.appendRecord_holds (r : JournalRecord) : (s.appendRecord r).holds = s.holds := rfl
@[simp] theorem State.appendRecord_notes (r : JournalRecord) : (s.appendRecord r).notes = s.notes := rfl
@[simp] theorem State.appendRecord_renoted (r : JournalRecord) : (s.appendRecord r).renoted = s.renoted := rfl
@[simp] theorem State.appendRecord_generations (r : JournalRecord) : (s.appendRecord r).generations = s.generations := rfl
@[simp] theorem State.appendRecord_requests (r : JournalRecord) : (s.appendRecord r).requests = s.requests := rfl
@[simp] theorem State.appendRecord_exposures (r : JournalRecord) : (s.appendRecord r).exposures = s.exposures := rfl
@[simp] theorem State.appendRecord_journal (r : JournalRecord) : (s.appendRecord r).journal = { s.journal with records := s.journal.records ++ [r], nextSeq := nextSequence s.journal.nextSeq } := rfl
@[simp] theorem State.appendRecord_siteIds (r : JournalRecord) : (s.appendRecord r).siteIds = s.siteIds := rfl
@[simp] theorem State.appendRecord_siteHolds (r : JournalRecord) : (s.appendRecord r).siteHolds = s.siteHolds := rfl
@[simp] theorem State.appendRecord_slices (r : JournalRecord) : (s.appendRecord r).slices = s.slices := rfl
@[simp] theorem State.appendRecord_tills (r : JournalRecord) : (s.appendRecord r).tills = s.tills := rfl
@[simp] theorem State.appendRecord_links (r : JournalRecord) : (s.appendRecord r).links = s.links := rfl
@[simp] theorem State.appendRecord_nextStay (r : JournalRecord) : (s.appendRecord r).nextStay = s.nextStay := rfl
@[simp] theorem State.appendRecord_nextHold (r : JournalRecord) : (s.appendRecord r).nextHold = s.nextHold := rfl
@[simp] theorem State.appendRecord_nextEntry (r : JournalRecord) : (s.appendRecord r).nextEntry = s.nextEntry := rfl
@[simp] theorem State.appendRecord_nextSlot (r : JournalRecord) : (s.appendRecord r).nextSlot = s.nextSlot := rfl
@[simp] theorem State.appendRecord_sentToHost (r : JournalRecord) : (s.appendRecord r).sentToHost = s.sentToHost := rfl
@[simp] theorem State.appendRecord_link (r : JournalRecord) (k : Nat) : (s.appendRecord r).link k = s.link k := rfl
@[simp] theorem State.appendRecord_till (r : JournalRecord) (k : Nat) : (s.appendRecord r).till k = s.till k := rfl
@[simp] theorem State.appendRecord_program (r : JournalRecord) (k : Nat) : (s.appendRecord r).program k = s.program k := rfl
@[simp] theorem State.appendRecord_passRange (r : JournalRecord) (k : Nat) : (s.appendRecord r).passRange k = s.passRange k := rfl
@[simp] theorem State.appendRecord_dirSet (r : JournalRecord) (k : Nat) : (s.appendRecord r).dirSet k = s.dirSet k := rfl
@[simp] theorem State.appendRecord_generation (r : JournalRecord) (k : Nat) : (s.appendRecord r).generation k = s.generation k := rfl
@[simp] theorem State.appendRecord_request (r : JournalRecord) (k : Nat) : (s.appendRecord r).request k = s.request k := rfl
@[simp] theorem State.appendRecord_exposure (r : JournalRecord) (k : Nat) : (s.appendRecord r).exposure k = s.exposure k := rfl
@[simp] theorem State.appendRecord_siteId (r : JournalRecord) (k : Nat) : (s.appendRecord r).siteId k = s.siteId k := rfl
@[simp] theorem State.appendRecord_siteHoldCount (r : JournalRecord) (k : Nat) : (s.appendRecord r).siteHoldCount k = s.siteHoldCount k := rfl
@[simp] theorem State.appendRecord_slice (r : JournalRecord) (k : Nat) : (s.appendRecord r).slice k = s.slice k := rfl
@[simp] theorem State.appendRecord_now (r : JournalRecord) : (s.appendRecord r).now = s.now := rfl
@[simp] theorem State.appendRecord_date (r : JournalRecord) : (s.appendRecord r).date = s.date := rfl
@[simp] theorem State.appendRecord_findWay (r : JournalRecord) (card : Nat) : (s.appendRecord r).findWay card = s.findWay card := rfl
@[simp] theorem State.appendRecord_recordOf (r : JournalRecord) (card : Nat) : (s.appendRecord r).recordOf card = s.recordOf card := rfl

/-! ### State.setReading -/

@[simp] theorem State.setReading_pending (r : Reading) : (s.setReading r).pending = s.pending := rfl
@[simp] theorem State.setReading_part (r : Reading) : (s.setReading r).part = s.part := rfl
@[simp] theorem State.setReading_limits (r : Reading) : (s.setReading r).limits = s.limits := rfl
@[simp] theorem State.setReading_clock (r : Reading) : (s.setReading r).clock = { s.clock with reading := r } := rfl
@[simp] theorem State.setReading_events (r : Reading) : (s.setReading r).events = s.events := rfl
@[simp] theorem State.setReading_counters (r : Reading) : (s.setReading r).counters = s.counters := rfl
@[simp] theorem State.setReading_out (r : Reading) : (s.setReading r).out = s.out := rfl
@[simp] theorem State.setReading_programs (r : Reading) : (s.setReading r).programs = s.programs := rfl
@[simp] theorem State.setReading_dirMode (r : Reading) : (s.setReading r).dirMode = s.dirMode := rfl
@[simp] theorem State.setReading_passRanges (r : Reading) : (s.setReading r).passRanges = s.passRanges := rfl
@[simp] theorem State.setReading_fault (r : Reading) : (s.setReading r).fault = s.fault := rfl
@[simp] theorem State.setReading_dir (r : Reading) : (s.setReading r).dir = s.dir := rfl
@[simp] theorem State.setReading_holds (r : Reading) : (s.setReading r).holds = s.holds := rfl
@[simp] theorem State.setReading_notes (r : Reading) : (s.setReading r).notes = s.notes := rfl
@[simp] theorem State.setReading_renoted (r : Reading) : (s.setReading r).renoted = s.renoted := rfl
@[simp] theorem State.setReading_generations (r : Reading) : (s.setReading r).generations = s.generations := rfl
@[simp] theorem State.setReading_requests (r : Reading) : (s.setReading r).requests = s.requests := rfl
@[simp] theorem State.setReading_exposures (r : Reading) : (s.setReading r).exposures = s.exposures := rfl
@[simp] theorem State.setReading_journal (r : Reading) : (s.setReading r).journal = s.journal := rfl
@[simp] theorem State.setReading_siteIds (r : Reading) : (s.setReading r).siteIds = s.siteIds := rfl
@[simp] theorem State.setReading_siteHolds (r : Reading) : (s.setReading r).siteHolds = s.siteHolds := rfl
@[simp] theorem State.setReading_slices (r : Reading) : (s.setReading r).slices = s.slices := rfl
@[simp] theorem State.setReading_tills (r : Reading) : (s.setReading r).tills = s.tills := rfl
@[simp] theorem State.setReading_links (r : Reading) : (s.setReading r).links = s.links := rfl
@[simp] theorem State.setReading_nextStay (r : Reading) : (s.setReading r).nextStay = s.nextStay := rfl
@[simp] theorem State.setReading_nextHold (r : Reading) : (s.setReading r).nextHold = s.nextHold := rfl
@[simp] theorem State.setReading_nextEntry (r : Reading) : (s.setReading r).nextEntry = s.nextEntry := rfl
@[simp] theorem State.setReading_nextSlot (r : Reading) : (s.setReading r).nextSlot = s.nextSlot := rfl
@[simp] theorem State.setReading_sentToHost (r : Reading) : (s.setReading r).sentToHost = s.sentToHost := rfl
@[simp] theorem State.setReading_link (r : Reading) (k : Nat) : (s.setReading r).link k = s.link k := rfl
@[simp] theorem State.setReading_till (r : Reading) (k : Nat) : (s.setReading r).till k = s.till k := rfl
@[simp] theorem State.setReading_program (r : Reading) (k : Nat) : (s.setReading r).program k = s.program k := rfl
@[simp] theorem State.setReading_passRange (r : Reading) (k : Nat) : (s.setReading r).passRange k = s.passRange k := rfl
@[simp] theorem State.setReading_dirSet (r : Reading) (k : Nat) : (s.setReading r).dirSet k = s.dirSet k := rfl
@[simp] theorem State.setReading_generation (r : Reading) (k : Nat) : (s.setReading r).generation k = s.generation k := rfl
@[simp] theorem State.setReading_request (r : Reading) (k : Nat) : (s.setReading r).request k = s.request k := rfl
@[simp] theorem State.setReading_exposure (r : Reading) (k : Nat) : (s.setReading r).exposure k = s.exposure k := rfl
@[simp] theorem State.setReading_siteId (r : Reading) (k : Nat) : (s.setReading r).siteId k = s.siteId k := rfl
@[simp] theorem State.setReading_siteHoldCount (r : Reading) (k : Nat) : (s.setReading r).siteHoldCount k = s.siteHoldCount k := rfl
@[simp] theorem State.setReading_slice (r : Reading) (k : Nat) : (s.setReading r).slice k = s.slice k := rfl
@[simp] theorem State.setReading_findWay (r : Reading) (card : Nat) : (s.setReading r).findWay card = s.findWay card := rfl
@[simp] theorem State.setReading_recordOf (r : Reading) (card : Nat) : (s.setReading r).recordOf card = s.recordOf card := rfl

end Sys2Proof.Machine
end

