-- ==== Sys2Proof/Laws/Frames.lean ====
section
/-! SUPPORT. The frame of every shared operation: the pieces of the part it may change, every other piece as it was. -/

namespace Sys2Proof.Machine

/-- The pieces of the part, one for each field of State. -/
inductive Piece where
  | pending | part | limits | clock | events | counters | out | programs | dirMode | passRanges | fault | dir | holds | notes
  | renoted | generations | requests | exposures | journal | siteIds | siteHolds | slices | tills | links | nextStay | nextHold | nextEntry | nextSlot | sentToHost
deriving DecidableEq, Repr

/-- The piece stands in `t` as in `s`. -/
def Piece.same (s t : State) : Piece → Prop
  | .pending => t.pending = s.pending
  | .part => t.part = s.part
  | .limits => t.limits = s.limits
  | .clock => t.clock = s.clock
  | .events => t.events = s.events
  | .counters => t.counters = s.counters
  | .out => t.out = s.out
  | .programs => t.programs = s.programs
  | .dirMode => t.dirMode = s.dirMode
  | .passRanges => t.passRanges = s.passRanges
  | .fault => t.fault = s.fault
  | .dir => t.dir = s.dir
  | .holds => t.holds = s.holds
  | .notes => t.notes = s.notes
  | .renoted => t.renoted = s.renoted
  | .generations => t.generations = s.generations
  | .requests => t.requests = s.requests
  | .exposures => t.exposures = s.exposures
  | .journal => t.journal = s.journal
  | .siteIds => t.siteIds = s.siteIds
  | .siteHolds => t.siteHolds = s.siteHolds
  | .slices => t.slices = s.slices
  | .tills => t.tills = s.tills
  | .links => t.links = s.links
  | .nextStay => t.nextStay = s.nextStay
  | .nextHold => t.nextHold = s.nextHold
  | .nextEntry => t.nextEntry = s.nextEntry
  | .nextSlot => t.nextSlot = s.nextSlot
  | .sentToHost => t.sentToHost = s.sentToHost

/-- `t` differs from `s` in the pieces of `may` alone. -/
def Only (may : List Piece) (s t : State) : Prop := ∀ p, p ∉ may → p.same s t

theorem Piece.same_refl (s : State) (p : Piece) : p.same s s := by cases p <;> rfl

theorem Piece.same_trans {s t u : State} {p : Piece} (h : p.same s t) (k : p.same t u) : p.same s u := by
  cases p <;> exact Eq.trans k h

theorem Only.refl (may : List Piece) (s : State) : Only may s s := fun p _ => p.same_refl s

theorem Only.trans {may : List Piece} {s t u : State} (h : Only may s t) (k : Only may t u) : Only may s u :=
  fun p hp => Piece.same_trans (h p hp) (k p hp)

theorem Only.mono {a b : List Piece} {s t : State} (h : Only a s t) (hab : ∀ p ∈ a, p ∈ b) : Only b s t :=
  fun p hp => h p (fun hpa => hp (hab p hpa))

/-- A frame after one with pieces of its own. -/
theorem Only.andThen {a b may : List Piece} {s t u : State} (h : Only a s t) (k : Only b t u) (ha : ∀ p ∈ a, p ∈ may)
    (hb : ∀ p ∈ b, p ∈ may) : Only may s u := (h.mono ha).trans (k.mono hb)

theorem Only.foldl {α : Type} {may : List Piece} {f : State → α → State} (h : ∀ s x, Only may s (f s x)) :
    ∀ (xs : List α) (s : State), Only may s (xs.foldl f s)
  | [], s => Only.refl may s
  | x :: xs, s => (h s x).trans (Only.foldl h xs (f s x))

theorem Only.pending {may : List Piece} {s t : State} (h : Only may s t) (hp : Piece.pending ∉ may := by decide) : t.pending = s.pending := h _ hp
theorem Only.part {may : List Piece} {s t : State} (h : Only may s t) (hp : Piece.part ∉ may := by decide) : t.part = s.part := h _ hp
theorem Only.limits {may : List Piece} {s t : State} (h : Only may s t) (hp : Piece.limits ∉ may := by decide) : t.limits = s.limits := h _ hp
theorem Only.clock {may : List Piece} {s t : State} (h : Only may s t) (hp : Piece.clock ∉ may := by decide) : t.clock = s.clock := h _ hp
theorem Only.events {may : List Piece} {s t : State} (h : Only may s t) (hp : Piece.events ∉ may := by decide) : t.events = s.events := h _ hp
theorem Only.counters {may : List Piece} {s t : State} (h : Only may s t) (hp : Piece.counters ∉ may := by decide) : t.counters = s.counters := h _ hp
theorem Only.out {may : List Piece} {s t : State} (h : Only may s t) (hp : Piece.out ∉ may := by decide) : t.out = s.out := h _ hp
theorem Only.programs {may : List Piece} {s t : State} (h : Only may s t) (hp : Piece.programs ∉ may := by decide) : t.programs = s.programs := h _ hp
theorem Only.dirMode {may : List Piece} {s t : State} (h : Only may s t) (hp : Piece.dirMode ∉ may := by decide) : t.dirMode = s.dirMode := h _ hp
theorem Only.passRanges {may : List Piece} {s t : State} (h : Only may s t) (hp : Piece.passRanges ∉ may := by decide) : t.passRanges = s.passRanges := h _ hp
theorem Only.fault {may : List Piece} {s t : State} (h : Only may s t) (hp : Piece.fault ∉ may := by decide) : t.fault = s.fault := h _ hp
theorem Only.dir {may : List Piece} {s t : State} (h : Only may s t) (hp : Piece.dir ∉ may := by decide) : t.dir = s.dir := h _ hp
theorem Only.holds {may : List Piece} {s t : State} (h : Only may s t) (hp : Piece.holds ∉ may := by decide) : t.holds = s.holds := h _ hp
theorem Only.notes {may : List Piece} {s t : State} (h : Only may s t) (hp : Piece.notes ∉ may := by decide) : t.notes = s.notes := h _ hp
theorem Only.renoted {may : List Piece} {s t : State} (h : Only may s t) (hp : Piece.renoted ∉ may := by decide) : t.renoted = s.renoted := h _ hp
theorem Only.generations {may : List Piece} {s t : State} (h : Only may s t) (hp : Piece.generations ∉ may := by decide) : t.generations = s.generations := h _ hp
theorem Only.requests {may : List Piece} {s t : State} (h : Only may s t) (hp : Piece.requests ∉ may := by decide) : t.requests = s.requests := h _ hp
theorem Only.exposures {may : List Piece} {s t : State} (h : Only may s t) (hp : Piece.exposures ∉ may := by decide) : t.exposures = s.exposures := h _ hp
theorem Only.journal {may : List Piece} {s t : State} (h : Only may s t) (hp : Piece.journal ∉ may := by decide) : t.journal = s.journal := h _ hp
theorem Only.siteIds {may : List Piece} {s t : State} (h : Only may s t) (hp : Piece.siteIds ∉ may := by decide) : t.siteIds = s.siteIds := h _ hp
theorem Only.siteHolds {may : List Piece} {s t : State} (h : Only may s t) (hp : Piece.siteHolds ∉ may := by decide) : t.siteHolds = s.siteHolds := h _ hp
theorem Only.slices {may : List Piece} {s t : State} (h : Only may s t) (hp : Piece.slices ∉ may := by decide) : t.slices = s.slices := h _ hp
theorem Only.tills {may : List Piece} {s t : State} (h : Only may s t) (hp : Piece.tills ∉ may := by decide) : t.tills = s.tills := h _ hp
theorem Only.links {may : List Piece} {s t : State} (h : Only may s t) (hp : Piece.links ∉ may := by decide) : t.links = s.links := h _ hp
theorem Only.nextStay {may : List Piece} {s t : State} (h : Only may s t) (hp : Piece.nextStay ∉ may := by decide) : t.nextStay = s.nextStay := h _ hp
theorem Only.nextHold {may : List Piece} {s t : State} (h : Only may s t) (hp : Piece.nextHold ∉ may := by decide) : t.nextHold = s.nextHold := h _ hp
theorem Only.nextEntry {may : List Piece} {s t : State} (h : Only may s t) (hp : Piece.nextEntry ∉ may := by decide) : t.nextEntry = s.nextEntry := h _ hp
theorem Only.nextSlot {may : List Piece} {s t : State} (h : Only may s t) (hp : Piece.nextSlot ∉ may := by decide) : t.nextSlot = s.nextSlot := h _ hp
theorem Only.sentToHost {may : List Piece} {s t : State} (h : Only may s t) (hp : Piece.sentToHost ∉ may := by decide) : t.sentToHost = s.sentToHost := h _ hp

/-! ### The sets of pieces that the operations share -/

namespace Piece

/-- What a check fault touches (R11). -/
abbrev ofRecord : List Piece := [.dir, .fault, .counters, .events, .out]
/-- What a journal record's joining touches (R128). -/
abbrev ofJoin : List Piece := ofRecord ++ [.journal, .requests, .generations]
/-- What the freeing of a hold touches, the forfeit test with it (R58, R95). -/
abbrev ofHold : List Piece := ofJoin ++ [.holds, .siteHolds, .notes]
/-- What an undo touches (R136). -/
abbrev ofUndo : List Piece := ofHold ++ [.exposures]
/-- What the emptying of a link touches (R165, R166). -/
abbrev ofLoss : List Piece := ofUndo ++ [.links, .tills]
/-- What the evaluation of a request touches (R41). -/
abbrev ofRequest : List Piece := ofHold ++ [.links, .tills, .nextHold, .renoted]
/-- What the end of a fetch touches (R110 to R114). -/
abbrev ofFetch : List Piece := ofRequest ++ [.exposures, .nextStay]
/-- What the clock's advance touches (R172, R175). -/
abbrev ofClock : List Piece := ofUndo ++ [.clock, .tills]

end Piece
open Piece

/-! ### The single updates -/

theorem State.setLink_only (s : State) (l : Nat) (x : Link) : Only [.links] s (s.setLink l x) := by
  intro p hp; cases p <;> first | exact absurd (by decide) hp | rfl

theorem State.setTill_only (s : State) (n : Nat) (x : Till) : Only [.tills] s (s.setTill n x) := by
  intro p hp; cases p <;> first | exact absurd (by decide) hp | rfl

theorem State.setProgram_only (s : State) (n : Nat) (x : Program) : Only [.programs] s (s.setProgram n x) := by
  intro p hp; cases p <;> first | exact absurd (by decide) hp | rfl

theorem State.setDirSet_only (s : State) (n : Nat) (x : DirSet) : Only [.dir] s (s.setDirSet n x) := by
  intro p hp; cases p <;> first | exact absurd (by decide) hp | rfl

theorem State.setRequest_only (s : State) (tag : Nat) (x : Option HostEntry) : Only [.requests] s (s.setRequest tag x) := by
  intro p hp; cases p <;> first | exact absurd (by decide) hp | rfl

theorem State.setExposure_only (s : State) (card : Nat) (x : Exposure) : Only [.exposures] s (s.setExposure card x) := by
  intro p hp; cases p <;> first | exact absurd (by decide) hp | rfl

theorem State.queue_only (s : State) (m : HostMsg) : Only [.out] s (s.queue m) := by
  intro p hp; cases p <;> first | exact absurd (by decide) hp | rfl

theorem State.raise_only (s : State) (e : Event) (d : NoticeData) : Only [.events, .out] s (s.raise e d) := by
  intro p hp; cases p <;> first | exact absurd (by decide) hp | rfl

theorem State.bumpGeneration_only (s : State) (tag : Nat) : Only [.generations] s (s.bumpGeneration tag) := by
  intro p hp; cases p <;> first | exact absurd (by decide) hp | rfl

theorem State.countSite_only (s : State) (site : Nat) (f : Nat → Nat) : Only [.siteHolds] s (s.countSite site f) := by
  intro p hp; cases p <;> first | exact absurd (by decide) hp | rfl

theorem State.modHold_only (s : State) (id : Nat) (f : Hold → Hold) : Only [.holds] s (s.modHold id f) := by
  intro p hp; cases p <;> first | exact absurd (by decide) hp | rfl

theorem State.reopenHold_only (s : State) (id b c : Nat) : Only [.holds] s (s.reopenHold id b c) := by
  intro p hp; cases p <;> first | exact absurd (by decide) hp | rfl

theorem State.reserveSlot_only (s : State) : Only [.journal] s (s.reserveSlot) := by
  intro p hp; cases p <;> first | exact absurd (by decide) hp | rfl

theorem State.releaseSlot_only (s : State) : Only [.journal] s (s.releaseSlot) := by
  intro p hp; cases p <;> first | exact absurd (by decide) hp | rfl

theorem State.appendRecord_only (s : State) (r : JournalRecord) : Only [.journal] s (s.appendRecord r) := by
  intro p hp; cases p <;> first | exact absurd (by decide) hp | rfl

theorem State.setReading_only (s : State) (r : Reading) : Only [.clock] s (s.setReading r) := by
  intro p hp; cases p <;> first | exact absurd (by decide) hp | rfl

theorem State.dropWay_only (s : State) (set no : Nat) : Only [.dir] s (s.dropWay set no) := by
  intro p hp; cases p <;> first | exact absurd (by decide) hp | rfl

theorem State.reserveWay_only (s : State) (card no : Nat) : Only [.dir] s (s.reserveWay card no) := by
  intro p hp; cases p <;> first | exact absurd (by decide) hp | rfl

theorem State.install_only (s : State) (no : Nat) (d : CardData) : Only [.dir, .nextStay] s (s.install no d) := by
  intro p hp; cases p <;> first | exact absurd (by decide) hp | rfl

theorem State.freeHold_only (s : State) (h : Hold) : Only [.holds, .siteHolds] s (s.freeHold h) := by
  intro p hp; cases p <;> first | exact absurd (by decide) hp | rfl

theorem State.emptyStacks_only (s : State) : Only [.tills] s (s.emptyStacks) := by
  intro p hp; cases p <;> first | exact absurd (by decide) hp | rfl

theorem State.modEntry_only (s : State) (l slot : Nat) (f : ReplyEntry → ReplyEntry) : Only [.links] s (s.modEntry l slot f) := by
  intro p hp; cases p <;> first | exact absurd (by decide) hp | rfl

theorem State.dropEntry_only (s : State) (l slot : Nat) : Only [.links] s (s.dropEntry l slot) := by
  intro p hp; cases p <;> first | exact absurd (by decide) hp | rfl

theorem State.finish_only (s : State) (l slot : Nat) (st : ReplyState) : Only [.links] s (s.finish l slot st) := by
  intro p hp; cases p <;> first | exact absurd (by decide) hp | rfl

theorem State.setMark_only (s : State) (till id : Nat) (b : Bool) : Only [.tills] s (s.setMark till id b) := by
  intro p hp; cases p <;> first | exact absurd (by decide) hp | rfl

theorem State.closeSession_only (s : State) (l : Nat) (st : LinkState) : Only [.links] s (s.closeSession l st) := by
  intro p hp; cases p <;> first | exact absurd (by decide) hp | rfl

theorem State.transmit_only (s : State) (l : Nat) (m : SiteOut) : Only [.links] s (s.transmit l m) := by
  intro p hp; cases p <;> first | exact absurd (by decide) hp | rfl

theorem State.countDown_only (s : State) (n : Nat) : Only [.requests, .links] s (s.countDown n) := by
  intro p hp; cases p <;> first | exact absurd (by decide) hp | rfl

theorem State.dropNotes_only (s : State) (site : Nat) (ref : Word32) : Only [.notes, .renoted] s (s.dropNotes site ref) := by
  intro p hp; cases p <;> first | exact absurd (by decide) hp | rfl

theorem State.take_only (s : State) (l : Nat) (e : ReplyEntry) (rest : List TillMsg) :
    Only [.links, .nextSlot] s (s.take l e rest) := by
  intro p hp; cases p <;> first | exact absurd (by decide) hp | rfl

theorem State.makeEntry_only (s : State) (tag timer : Nat) (kind : HostKind) :
    Only [.generations, .requests] s (s.makeEntry tag timer kind) := by
  intro p hp; cases p <;> first | exact absurd (by decide) hp | rfl

theorem State.endFetch_only (s : State) (tag : Nat) (f : Fetch) : Only [.requests, .dir] s (s.endFetch tag f) := by
  intro p hp; cases p <;> first | exact absurd (by decide) hp | rfl

theorem State.openReplies_only (s : State) (sequence : Nat) : Only [.links] s (s.openReplies sequence) := by
  intro p hp; cases p <;> first | exact absurd (by decide) hp | rfl

theorem State.badPosted_only (s : State) : Only [.counters] s (s.badPosted) := by
  intro p hp; cases p <;> first | exact absurd (by decide) hp | rfl

theorem State.lateAnswer_only (s : State) (kind : Word16) (tag gen : Nat) :
    Only [.counters, .events, .out] s (s.lateAnswer kind tag gen) := by
  intro p hp; cases p <;> first | exact absurd (by decide) hp | rfl

theorem State.refuseAnswer_only (s : State) (kind : Word16) (tag gen : Nat) : Only [.out] s (s.refuseAnswer kind tag gen) := by
  intro p hp; cases p <;> first | exact absurd (by decide) hp | rfl

theorem State.badFrame_only (s : State) (l : Nat) : Only [.links] s (s.badFrame l) := by
  intro p hp; cases p <;> first | exact absurd (by decide) hp | rfl

theorem State.dropInbound_only (s : State) (l : Nat) : Only [.links] s (s.dropInbound l) := by
  intro p hp; cases p <;> first | exact absurd (by decide) hp | rfl

theorem State.reload_only (s : State) (l : Nat) : Only [.links] s (s.reload l) := by
  intro p hp; cases p <;> first | exact absurd (by decide) hp | rfl

theorem State.rollover_only (s : State) (b : Bool) : Only [.tills, .exposures, .events, .out] s (s.rollover b) := by
  intro p hp; cases p <;> first | exact absurd (by decide) hp | rfl

theorem State.clearEngine_only (s : State) :
    Only [.part, .out, .dirMode, .dir, .holds, .notes, .renoted, .siteHolds, .requests, .journal, .tills, .links] s (s.clearEngine) := by
  intro p hp; cases p <;> first | exact absurd (by decide) hp | rfl

theorem State.checkFault_only (s : State) (card no : Nat) : Only ofRecord s (s.checkFault card no) := by
  intro p hp; cases p <;> first | exact absurd (by decide) hp | rfl

theorem answer_only (kind : Word16) (ref : Word32) (a : Answer) : Only [.out] a.1 (answer kind ref a) := a.1.queue_only _

theorem countersThenRaise_only (s : State) (x : PartCounters) (e : Event) (d : NoticeData) :
    Only [.counters, .events, .out] s (({ s with counters := x } : State).raise e d) := by
  intro p hp; cases p <;> first | exact absurd (by decide) hp | rfl

theorem journalThenRaise_only (s : State) (x : Journal) (e : Event) (d : NoticeData) :
    Only [.journal, .events, .out] s (({ s with journal := x } : State).raise e d) := by
  intro p hp; cases p <;> first | exact absurd (by decide) hp | rfl

theorem modeThenRaise_only (s : State) (x : DirMode) (e : Event) (d : NoticeData) :
    Only [.dirMode, .events, .out] s (({ s with dirMode := x } : State).raise e d) := by
  intro p hp; cases p <;> first | exact absurd (by decide) hp | rfl

theorem withJournal_only (s : State) (x : Journal) : Only [.journal] s ({ s with journal := x }) := by
  intro p hp; cases p <;> first | exact absurd (by decide) hp | rfl

theorem withClock_only (s : State) (x : Clock) : Only [.clock] s ({ s with clock := x }) := by
  intro p hp; cases p <;> first | exact absurd (by decide) hp | rfl

theorem withNotes_only (s : State) (x : List ExpiryNote) : Only [.notes] s ({ s with notes := x }) := by
  intro p hp; cases p <;> first | exact absurd (by decide) hp | rfl

theorem withHolds_only (s : State) (x : List Hold) (n : Nat) :
    Only [.holds, .nextHold] s ({ s with holds := x, nextHold := n }) := by
  intro p hp; cases p <;> first | exact absurd (by decide) hp | rfl

theorem withNextEntry_only (s : State) (n : Nat) : Only [.nextEntry] s ({ s with nextEntry := n }) := by
  intro p hp; cases p <;> first | exact absurd (by decide) hp | rfl

theorem State.inFallOrder_only (s t : State) : Only [.dir] t (s.inFallOrder t) :=
  Only.foldl (fun u n => u.setDirSet_only n _) _ t

/-! ### The directory and the journal -/

theorem State.writeRecord_only (s : State) (card : Nat) (f : CardRecord → CardRecord) : Only [.dir] s (s.writeRecord card f) := by
  unfold State.writeRecord; split
  · exact s.setDirSet_only _ _
  · exact Only.refl _ s

theorem State.writeData_only (s : State) (card : Nat) (f : CardData → CardData) : Only [.dir] s (s.writeData card f) := s.writeRecord_only card _

theorem State.writeUnposted_only (s : State) (card : Nat) (f : Nat → Nat) : Only [.dir] s (s.writeUnposted card f) := s.writeRecord_only card _

theorem State.touch_only (s : State) (card : Nat) : Only [.dir] s (s.touch card) := by
  unfold State.touch; split
  · exact s.setDirSet_only _ _
  · exact Only.refl _ s

theorem State.readRecord_only (s : State) (card : Nat) : Only ofRecord s ((s.readRecord card).1) := by
  unfold State.readRecord; split
  · split
    · exact Only.refl _ s
    · exact s.checkFault_only _ _
  · exact Only.refl _ s

/-- A record that was read leaves the part as it was (R11). -/
theorem State.readRecord_some {s s1 : State} {card : Nat} {x : CardRecord × Nat} (h : s.readRecord card = (s1, some x)) : s1 = s := by
  unfold State.readRecord at h; split at h
  · split at h <;> simp_all
  · simp_all

theorem State.readRecord_frame {s s1 : State} {card : Nat} {x : Option (CardRecord × Nat)} (h : s.readRecord card = (s1, x)) :
    Only ofRecord s s1 := by
  have := s.readRecord_only card
  rwa [h] at this

theorem State.regate_only (s : State) (card : Nat) : Only [.generations, .requests] s (s.regate card) := by
  unfold State.regate; split
  · split
    · exact (s.bumpGeneration_only _).andThen (State.setRequest_only _ _ _) (by decide) (by decide)
    · exact Only.refl _ s
  · exact Only.refl _ s

theorem State.countUnposted_only (s : State) (card : Nat) : Only ofRecord s (s.countUnposted card) := by
  unfold State.countUnposted; split
  · exact (State.readRecord_frame ‹_›).trans ((State.writeUnposted_only _ _ _).mono (by decide))
  · exact State.readRecord_frame ‹_›

theorem State.warnHigh_only (s : State) : Only [.journal, .events, .out] s (s.warnHigh) := by
  unfold State.warnHigh; split
  · exact journalThenRaise_only s _ _ _
  · exact Only.refl _ s

theorem State.joinRecord_only (s : State) (d : Draft) : Only ofJoin s (s.joinRecord d) := by
  exact ((((s.appendRecord_only _).andThen (State.countUnposted_only _ _) (by decide) (by decide)).trans
    ((State.regate_only _ _).mono (by decide))).trans ((State.queue_only _ _).mono (by decide))).trans
    ((State.warnHigh_only _).mono (by decide))

theorem joinUndoable_only (s : State) (d : Draft) : Only ofJoin s (joinUndoable d s) := by
  exact s.reserveSlot_only.andThen (State.joinRecord_only _ d) (by decide) (by decide)

theorem State.admission_only (s : State) (need : Nat) (kind : Word16) :
    Only [.journal, .events, .out] s ((s.admission need kind).1) := by
  unfold State.admission; split
  · exact (withJournal_only s _).mono (by decide)
  · split
    · exact Only.refl _ s
    · exact journalThenRaise_only s _ _ _

theorem State.admission_frame {s s1 : State} {need : Nat} {kind : Word16} {b : Bool} (h : s.admission need kind = (s1, b)) :
    Only [.journal, .events, .out] s s1 := by
  have := s.admission_only need kind
  rwa [h] at this

theorem State.settle_only (s : State) : Only [.dirMode, .events, .out] s (s.settle) := by
  unfold State.settle; split
  · split
    · exact modeThenRaise_only s _ _ _
    · exact Only.refl _ s
  · exact Only.refl _ s

/-! ### Holds -/

theorem State.forfeitTest_only (s : State) (card : Nat) : Only ofJoin s (s.forfeitTest card) := by
  unfold State.forfeitTest; split
  · exact (State.readRecord_frame ‹_›).mono (by decide)
  · have h := (State.readRecord_frame ‹_›).mono (b := ofJoin) (by decide)
    refine h.trans ?_
    dsimp only; split
    · exact (State.writeData_only _ _ _).andThen (State.joinRecord_only _ _) (by decide) (by decide)
    · exact Only.refl _ _

theorem State.expireHold_only (s : State) (h : Hold) : Only ofHold s (s.expireHold h) := by
  unfold State.expireHold; dsimp only
  exact ((s.freeHold_only h).andThen (withNotes_only _ _) (by decide) (by decide)).trans ((State.forfeitTest_only _ _).mono (by decide))

theorem State.expireIfDue_only (s : State) (id : Nat) : Only ofHold s (s.expireIfDue id) := by
  unfold State.expireIfDue; split
  · split
    · exact s.expireHold_only _
    · exact Only.refl _ s
  · exact Only.refl _ s

/-! ### Replies -/

theorem State.clearMark_only (s : State) (e : ReplyEntry) : Only [.tills] s (s.clearMark e) := by
  unfold State.clearMark; split
  · exact s.setMark_only _ _ _
  · exact Only.refl _ s

theorem decline_only (s : State) (l : Nat) (e : ReplyEntry) (r : Reason) (free : Option Nat) :
    Only [.links, .tills] s (decline l e r free s) := by
  exact (s.clearMark_only e).andThen (State.finish_only _ _ _ _) (by decide) (by decide)

theorem unexpected_only (s : State) (l : Nat) (e : ReplyEntry) : Only [.links, .tills] s (unexpected l e s) := decline_only s l e _ _

theorem declineField_only (s : State) (l : Nat) (e : ReplyEntry) (b : Bool) (r : Reason) : Only [.links] s (declineField l e b r s) := s.finish_only _ _ _

theorem ready_only (s : State) (l : Nat) (e : ReplyEntry) (reply : TillReply) (u : Option UndoRecord) : Only [.links] s (ready l e reply u s) :=
  s.finish_only _ _ _

theorem gate_only (s : State) (l : Nat) (e : ReplyEntry) (p : Option Program) (reply : TillReply) (u : UndoRecord) (n : Nat) :
    Only [.links] s (gate l e p reply u n s) := s.finish_only _ _ _

/-! ### Undos and the emptying of a link -/

theorem State.unexpose_only (s : State) (card x date : Nat) : Only [.exposures] s (s.unexpose card x date) := by
  unfold State.unexpose; split
  · dsimp only; split
    · exact Only.refl _ s
    · exact s.setExposure_only _ _
  · exact Only.refl _ s

theorem State.undoPurses_only (s : State) (u : UndoRecord) : Only ofRecord s ((s.undoPurses u).1) := by
  unfold State.undoPurses; split
  · exact State.readRecord_frame ‹_›
  · have h := State.readRecord_frame ‹_›
    split
    · exact h.trans ((State.writeData_only _ _ _).mono (by decide))
    · exact h.trans ((State.writeData_only _ _ _).mono (by decide))

theorem State.undoHold_only (s : State) (u : UndoRecord) (id : Nat) : Only ofHold s (s.undoHold u id) := by
  unfold State.undoHold; dsimp only
  refine Only.trans (t := match s.holdById id with | some h => s.freeHold h | none => s) ?_ ?_
  · split
    · exact (s.freeHold_only _).mono (by decide)
    · exact Only.refl _ s
  · exact (State.undoPurses_only _ _).andThen (State.forfeitTest_only _ _) (by decide) (by decide)

theorem State.undoBeside_only (s : State) (u : UndoRecord) : Only [.holds, .exposures] s (s.undoBeside u) := by
  unfold State.undoBeside; split
  · exact (s.reopenHold_only _ _ _).mono (by decide)
  · exact (s.unexpose_only _ _ _).mono (by decide)
  · exact Only.refl _ s

theorem State.undoAfter_only (s : State) (u : UndoRecord) : Only ofHold s (s.undoAfter u) := by
  unfold State.undoAfter; split
  · exact s.expireIfDue_only _
  · exact Only.refl _ s

theorem State.undo_only (s : State) (u : UndoRecord) : Only ofUndo s (s.undo u) := by
  unfold State.undo; split
  · exact (s.undoHold_only _ _).mono (by decide)
  · exact Only.refl _ s
  · exact (((((s.undoPurses_only u).andThen (State.undoBeside_only _ u) (by decide) (by decide)).trans
      ((State.releaseSlot_only _).mono (by decide))).trans ((State.joinRecord_only _ _).mono (by decide))).trans
      ((State.undoAfter_only _ u).mono (by decide)))

theorem State.abandon_only (s : State) (l slot : Nat) : Only [.requests] s (s.abandon l slot) := by
  unfold State.abandon
  refine Only.foldl (fun s t => ?_) _ s
  split
  · exact s.setRequest_only _ _
  · exact Only.refl _ s

theorem State.endMark_only (s : State) (e : ReplyEntry) : Only [.tills] s (s.endMark e) := by
  unfold State.endMark; split
  · exact Only.refl _ s
  · exact s.clearMark_only e

theorem State.emptyEntry_only (l : Nat) (e : ReplyEntry) (a : State × Emptied) : Only ofLoss a.1 (State.emptyEntry l e a).1 := by
  have h : Only ofLoss a.1 ((a.1.dropEntry l e.slot).endMark e) :=
    (State.dropEntry_only _ _ _).andThen (State.endMark_only _ _) (by decide) (by decide)
  unfold State.emptyEntry; dsimp only; split
  · exact h.trans ((State.abandon_only _ _ _).mono (by decide))
  · exact h.trans ((State.undo_only _ _).mono (by decide))
  · exact h.trans ((State.undo_only _ _).mono (by decide))
  · exact h.trans ((State.queue_only _ _).mono (by decide))
  · exact h

theorem emptied_only {l : Nat} : ∀ (es : List ReplyEntry) (a : State × Emptied),
    Only ofLoss a.1 (es.foldl (fun acc e => State.emptyEntry l e acc) a).1
  | [], a => Only.refl _ a.1
  | e :: es, a => (State.emptyEntry_only l e a).trans (emptied_only es _)

theorem State.emptyReplies_only (s : State) (l : Nat) (n : Emptied) : Only ofLoss s (s.emptyReplies l n).1 := emptied_only _ (s, n)

theorem State.emptyLink_only (s : State) (l : Nat) (st : LinkState) (n : Emptied) : Only ofLoss s (s.emptyLink l st n).1 :=
  ((s.emptyReplies_only l n).trans ((State.inFallOrder_only _ _).mono (by decide))).trans ((State.closeSession_only _ _ _).mono (by decide))

theorem State.loseLink_only (s : State) (l : Nat) (b : Bool) : Only ofLoss s (s.loseLink l b) :=
  (s.emptyLink_only l _ _).trans ((State.raise_only _ _ _).mono (by decide))

theorem emptiedLinks_only : ∀ (ls : List Nat) (a : State × Emptied),
    Only ofLoss a.1 (ls.foldl (fun acc l => State.emptyLink acc.1 l .disabled acc.2) a).1
  | [], a => Only.refl _ a.1
  | l :: ls, a => (State.emptyLink_only a.1 l _ _).trans (emptiedLinks_only ls _)

theorem State.emptyAllLinks_only (s : State) : Only ofLoss s s.emptyAllLinks.1 := emptiedLinks_only _ (s, Emptied.zero)

theorem State.listenAll_only (s : State) : Only [.links] s (s.listenAll) := by
  unfold State.listenAll
  refine Only.foldl (fun s l => ?_) _ s
  split
  · exact s.setLink_only _ _
  · exact Only.refl _ s

/-! ### Delivery -/

theorem State.credit_only (s : State) (card : Nat) (stay : Option Nat) (b c : Nat) :
    Only ofRecord s (s.credit card stay b c) := by
  unfold State.credit; split
  · split
    · split
      · exact (State.readRecord_frame ‹_›).trans ((State.writeData_only _ _ _).mono (by decide))
      · exact State.readRecord_frame ‹_›
    · exact Only.refl _ s
  · exact Only.refl _ s

theorem State.confirm_only (s : State) (u : UndoRecord) : Only ofHold s (s.confirm u) := by
  unfold State.confirm; split
  · exact Only.refl _ s
  · exact Only.refl _ s
  · exact (s.modHold_only _ _).andThen (State.expireIfDue_only _ _) (by decide) (by decide)
  · split
    · exact (s.freeHold_only _).mono (by decide)
    · exact Only.refl _ s
  · exact (s.credit_only _ _ _ _).mono (by decide)
  · exact (s.credit_only _ _ _ _).mono (by decide)

theorem State.releaseOf_only (s : State) (u : UndoRecord) : Only [.journal] s (s.releaseOf u) := by
  unfold State.releaseOf; split
  · exact s.releaseSlot_only
  · exact Only.refl _ s

theorem State.lowerExposure_only (s : State) (e : ReplyEntry) (reply : TillReply) :
    Only [.exposures] s (s.lowerExposure e reply) := by
  unfold State.lowerExposure; split
  · split
    · dsimp only; split
      · exact Only.refl _ s
      · exact s.setExposure_only _ _
    · exact Only.refl _ s
  · exact Only.refl _ s

theorem State.debitTill_only (s : State) (t : Nat) (e : ReplyEntry) (reply : TillReply) (u : Option UndoRecord) :
    Only [.tills, .nextEntry] s (s.debitTill t e reply u) := by
  unfold State.debitTill; dsimp only; split
  · exact (s.setTill_only _ _).mono (by decide)
  · exact (s.setTill_only _ _).andThen (withNextEntry_only _ _) (by decide) (by decide)

theorem State.creditTill_only (s : State) (t : Nat) (e : ReplyEntry) (reply : TillReply) :
    Only [.tills] s (s.creditTill t e reply) := by
  unfold State.creditTill; dsimp only; split
  · exact s.setTill_only _ _
  · exact s.setTill_only _ _

theorem State.atTill_only (s : State) (t : Nat) (e : ReplyEntry) (reply : TillReply) (u : Option UndoRecord) :
    Only [.tills, .nextEntry] s (s.atTill t e reply u) := by
  unfold State.atTill; split
  · exact s.debitTill_only _ _ _ _
  · exact s.debitTill_only _ _ _ _
  · exact s.debitTill_only _ _ _ _
  · exact s.debitTill_only _ _ _ _
  · exact (s.creditTill_only _ _ _).mono (by decide)
  · exact (s.creditTill_only _ _ _).mono (by decide)
  · exact Only.refl _ s

theorem State.deliver_only (s : State) (l : Nat) (e : ReplyEntry) (reply : TillReply) (u : Option UndoRecord) :
    Only (ofLoss ++ [.nextEntry]) s (s.deliver l e reply u) := by
  have h1 : Only (ofLoss ++ [.nextEntry]) s ((s.transmit l (.tillReply reply)).dropEntry l e.slot) :=
    (s.transmit_only _ _).andThen (State.dropEntry_only _ _ _) (by decide) (by decide)
  have h2 : Only (ofLoss ++ [.nextEntry]) s
      (match u with
        | some x => (((s.transmit l (.tillReply reply)).dropEntry l e.slot).confirm x).releaseOf x
        | none => (s.transmit l (.tillReply reply)).dropEntry l e.slot) := by
    cases u
    · exact h1
    · exact h1.trans ((State.confirm_only _ _).andThen (State.releaseOf_only _ _) (by decide) (by decide))
  have h3 := h2.trans ((State.lowerExposure_only _ e reply).mono (by decide))
  unfold State.deliver; dsimp only; split
  · exact h3.trans ((State.atTill_only _ _ _ _ _).mono (by decide))
  · exact h3

theorem State.gateTimeout_only (s : State) (l : Nat) (e : ReplyEntry) (reply : TillReply) (u : UndoRecord) :
    Only ofLoss s (s.gateTimeout l e reply u) := by
  exact ((s.undo_only u).andThen (State.clearMark_only _ e) (by decide) (by decide)).trans
    ((State.finish_only _ _ _ _).mono (by decide))

/-! ### The evaluation of a request -/

theorem State.withRecord_only (s : State) (l : Nat) (e : ReplyEntry) (card : Nat) (act : CardData → Nat → State → State) (h : ∀ d n t, Only ofRequest t (act d n t)) :
    Only ofRequest s (s.withRecord l e card act) := by
  have h1 := (s.forfeitTest_only card).mono (b := ofRequest) (by decide)
  unfold State.withRecord; dsimp only; split
  · exact h1.trans (h _ _ _)
  · exact h1.trans ((unexpected_only _ _ _).mono (by decide))

theorem State.admitted_only {may : List Piece} (s : State) (l : Nat) (e : ReplyEntry) (free : Option Nat) (act : State → State)
    (h : ∀ t, Only may t (act t)) (hm : ∀ p ∈ [Piece.journal, .events, .out, .links, .tills], p ∈ may) :
    Only may s (s.admitted l e free act) := by
  unfold State.admitted; split
  · exact ((State.admission_frame ‹_›).mono (fun p hp => hm p (by revert hp; revert p; decide))).trans (h _)
  · exact ((State.admission_frame ‹_›).andThen (decline_only _ _ _ _ _) (by decide) (by decide)).mono hm

theorem State.underProgram_only {may : List Piece} (s : State) (l : Nat) (e : ReplyEntry) (card : Nat) (act : Program → State)
    (h : ∀ p, Only may s (act p)) (hm : ∀ p ∈ [Piece.links, .tills], p ∈ may) : Only may s (s.underProgram l e card act) := by
  unfold State.underProgram; split
  · exact (decline_only s l e _ _).mono hm
  · exact h _

theorem evalEnquiry_only (s : State) (l : Nat) (e : ReplyEntry) (d : CardData) :
    Only [.links, .tills] s (evalEnquiry l e d s) := by
  unfold evalEnquiry; split
  · exact decline_only s l e _ _
  · exact (ready_only s l e _ _).mono (by decide)

theorem applyRedeem_only (s : State) (l : Nat) (e : ReplyEntry) (p : Program) (d : CardData) (stay : Nat) (x : Debit) :
    Only (ofJoin ++ [.links]) s (applyRedeem l e p d stay x s) := by
  unfold applyRedeem; dsimp only
  exact ((s.writeData_only _ _).andThen (joinUndoable_only _ _) (by decide) (by decide)).trans ((gate_only _ _ _ _ _ _ _).mono (by decide))

theorem applyReload_only (s : State) (l : Nat) (e : ReplyEntry) (p : Program) (d : CardData) (stay : Nat) :
    Only (ofJoin ++ [.links]) s (applyReload l e p d stay s) := by
  unfold applyReload; dsimp only
  exact (joinUndoable_only s _).andThen (gate_only _ _ _ _ _ _ _) (by decide) (by decide)

theorem applyReverse_only (s : State) (l : Nat) (e : ReplyEntry) (p : Option Program) (x : StackEntry) (d : CardData) (stay : Nat) :
    Only (ofJoin ++ [.links]) s (applyReverse l e p x d stay s) := by
  unfold applyReverse; dsimp only
  exact (joinUndoable_only s _).andThen (gate_only _ _ _ _ _ _ _) (by decide) (by decide)

theorem applyHold_only (s : State) (l : Nat) (e : ReplyEntry) (p : Program) (site : Nat) (d : CardData) (stay : Nat) (x : Debit) :
    Only [.dir, .holds, .siteHolds, .notes, .renoted, .nextHold, .links] s (applyHold l e p site d stay x s) := by
  unfold applyHold; dsimp only
  exact (((((s.dropNotes_only _ _).mono (by decide)).trans ((withHolds_only _ _ _).mono (by decide))).trans
    ((State.countSite_only _ _ _).mono (by decide))).trans ((State.writeData_only _ _ _).mono (by decide))).trans ((ready_only _ _ _ _ _).mono (by decide))

theorem applyComplete_only (s : State) (l : Nat) (e : ReplyEntry) (p : Option Program) (h : Hold) (d : CardData) (stay : Nat) (x : Capture) :
    Only (ofHold ++ [.links]) s (applyComplete l e p h d stay x s) := by
  unfold applyComplete; dsimp only
  exact (((s.writeData_only _ _).andThen (State.modHold_only _ _ _) (by decide) (by decide)).trans
    ((joinUndoable_only _ _).mono (by decide))).trans ((gate_only _ _ _ _ _ _ _).mono (by decide))

theorem evalRedeem_only (s : State) (l : Nat) (e : ReplyEntry) (p : Program) (d : CardData) (stay : Nat) :
    Only ofRequest s (evalRedeem l e p d stay s) := by
  unfold evalRedeem; dsimp only; split
  · exact (decline_only _ _ _ _ _).mono (by decide)
  · split
    · exact (decline_only _ _ _ _ _).mono (by decide)
    · split
      · exact (decline_only _ _ _ _ _).mono (by decide)
      · exact s.admitted_only l e _ _ (fun t => (applyRedeem_only t l e p d stay _).mono (by decide)) (by decide)

theorem evalReload_only (s : State) (l : Nat) (e : ReplyEntry) (p : Program) (d : CardData) (stay : Nat) :
    Only ofRequest s (evalReload l e p d stay s) := by
  unfold evalReload; dsimp only; split
  · exact (decline_only _ _ _ _ _).mono (by decide)
  · split
    · exact (decline_only _ _ _ _ _).mono (by decide)
    · exact s.admitted_only l e _ _ (fun t => (applyReload_only t l e p d stay).mono (by decide)) (by decide)

theorem evalReverse_only (s : State) (l : Nat) (e : ReplyEntry) (p : Option Program) (x : StackEntry) (d : CardData) (stay : Nat) :
    Only ofRequest s (evalReverse l e p x d stay s) := by
  unfold evalReverse; dsimp only; split
  · exact (decline_only _ _ _ _ _).mono (by decide)
  · exact s.admitted_only l e _ _ (fun t => (applyReverse_only t l e p x d stay).mono (by decide)) (by decide)

theorem evalHold_only (s : State) (l : Nat) (e : ReplyEntry) (p : Program) (site : Nat) (d : CardData) (stay : Nat) :
    Only ofRequest s (evalHold l e p site d stay s) := by
  unfold evalHold; dsimp only; split
  · exact (decline_only _ _ _ _ _).mono (by decide)
  · split
    · exact (decline_only _ _ _ _ _).mono (by decide)
    · split
      · exact (decline_only _ _ _ _ _).mono (by decide)
      · split
        · exact (decline_only _ _ _ _ _).mono (by decide)
        · split
          · exact (decline_only _ _ _ _ _).mono (by decide)
          · exact s.admitted_only l e _ _ (fun t => (applyHold_only t l e p site d stay _).mono (by decide)) (by decide)

theorem evalComplete_only (s : State) (l : Nat) (e : ReplyEntry) (p : Option Program) (id : Nat) (d : CardData) (stay : Nat) :
    Only ofRequest s (evalComplete l e p id d stay s) := by
  unfold evalComplete; dsimp only; split
  · exact (decline_only _ _ _ _ _).mono (by decide)
  · exact (decline_only _ _ _ _ _).mono (by decide)
  · split
    · exact (decline_only _ _ _ _ _).mono (by decide)
    · exact s.admitted_only l e _ _ (fun t => (applyComplete_only t l e p _ d stay _).mono (by decide)) (by decide)

theorem evalRelease_only (s : State) (l : Nat) (e : ReplyEntry) (id : Nat) (d : CardData) :
    Only ofRequest s (evalRelease l e id d s) := by
  unfold evalRelease; dsimp only; split
  · exact (decline_only _ _ _ _ _).mono (by decide)
  · exact (decline_only _ _ _ _ _).mono (by decide)
  · exact ((s.freeHold_only _).andThen (State.forfeitTest_only _ _) (by decide) (by decide)).trans ((ready_only _ _ _ _ _).mono (by decide))

theorem evaluate_only (s : State) (l : Nat) (e : ReplyEntry) (card : Nat) : Only ofRequest s (evaluate l e card s) := by
  have h := (s.touch_only card).mono (b := ofRequest) (by decide)
  unfold evaluate; dsimp only; split
  · exact h.trans (State.underProgram_only _ _ _ _ _ (fun _ => State.withRecord_only _ _ _ _ _
      (fun _ _ _ => (evalEnquiry_only _ _ _ _).mono (by decide))) (by decide))
  · exact h.trans (State.underProgram_only _ _ _ _ _ (fun _ => State.withRecord_only _ _ _ _ _
      (fun _ _ _ => evalRedeem_only _ _ _ _ _ _)) (by decide))
  · split
    · exact h.trans (State.underProgram_only _ _ _ _ _ (fun _ => State.withRecord_only _ _ _ _ _
        (fun _ _ _ => evalHold_only _ _ _ _ _ _ _)) (by decide))
    · exact h.trans ((unexpected_only _ _ _).mono (by decide))
  · exact h.trans (State.underProgram_only _ _ _ _ _ (fun _ => State.withRecord_only _ _ _ _ _
      (fun _ _ _ => evalReload_only _ _ _ _ _ _)) (by decide))
  · split
    · exact h.trans (State.withRecord_only _ _ _ _ _ (fun _ _ _ => evalComplete_only _ _ _ _ _ _ _))
    · exact h.trans ((unexpected_only _ _ _).mono (by decide))
  · split
    · exact h.trans (State.withRecord_only _ _ _ _ _ (fun _ _ _ => evalRelease_only _ _ _ _ _))
    · exact h.trans ((unexpected_only _ _ _).mono (by decide))
  · split
    · exact h.trans (State.withRecord_only _ _ _ _ _ (fun _ _ _ => evalReverse_only _ _ _ _ _ _ _))
    · exact h.trans ((unexpected_only _ _ _).mono (by decide))
  · exact h.trans ((unexpected_only _ _ _).mono (by decide))
  · exact h.trans ((unexpected_only _ _ _).mono (by decide))
  · exact h.trans ((unexpected_only _ _ _).mono (by decide))

/-! ### The directory's decision -/

theorem refer_only (s : State) (l : Nat) (e : ReplyEntry) :
    Only [.generations, .requests, .out, .links, .tills] s (refer l e s) := by
  unfold refer; split
  · exact (decline_only _ _ _ _ _).mono (by decide)
  · exact (s.makeEntry_only _ _ _).andThen (State.queue_only _ _) (by decide) (by decide)

theorem issueFetch_only (s : State) (l : Nat) (e : ReplyEntry) (card no tag : Nat) :
    Only [.dir, .generations, .requests, .out] s (issueFetch l e card no tag s) := by
  have h : ∀ timer kind, Only [.dir, .generations, .requests, .out] s ((s.reserveWay card no).makeEntry tag timer kind) :=
    fun timer kind => (s.reserveWay_only _ _).andThen (State.makeEntry_only _ _ _ _) (by decide) (by decide)
  unfold issueFetch; dsimp only; split
  · exact (h _ _).trans ((State.queue_only _ _).mono (by decide))
  · exact h _ _

theorem joinWaitList_only (s : State) (l : Nat) (e : ReplyEntry) (card : Nat) :
    Only [.requests, .links, .tills] s (joinWaitList l e card s) := by
  unfold joinWaitList; split
  · split
    · exact (s.setRequest_only _ _).mono (by decide)
    · exact (decline_only _ _ _ _ _).mono (by decide)
  · exact (unexpected_only _ _ _).mono (by decide)

theorem releaseWithoutCard_only (s : State) (l : Nat) (e : ReplyEntry) (id : Nat) :
    Only [.holds, .siteHolds, .links, .tills] s (releaseWithoutCard l e id s) := by
  unfold releaseWithoutCard; split
  · exact (decline_only _ _ _ _ _).mono (by decide)
  · exact (decline_only _ _ _ _ _).mono (by decide)
  · exact (s.freeHold_only _).andThen (ready_only _ _ _ _ _) (by decide) (by decide)

theorem missUnfetched_only (s : State) (l : Nat) (e : ReplyEntry) : Only ofRequest s (missUnfetched l e s) := by
  unfold missUnfetched; split
  · exact (releaseWithoutCard_only _ _ _ _).mono (by decide)
  · exact (decline_only _ _ _ _ _).mono (by decide)
  · exact (refer_only _ _ _).mono (by decide)

theorem meetReserved_only (s : State) (l : Nat) (e : ReplyEntry) (card : Nat) : Only ofRequest s (meetReserved l e card s) := by
  unfold meetReserved; split
  · exact missUnfetched_only _ _ _
  · exact (joinWaitList_only _ _ _ _).mono (by decide)

theorem miss_only (s : State) (l : Nat) (e : ReplyEntry) (card : Nat) : Only ofRequest s (miss l e card s) := by
  unfold miss; split
  · unfold missNormal; split
    · exact missUnfetched_only _ _ _
    · split
      · exact (decline_only _ _ _ _ _).mono (by decide)
      · exact (issueFetch_only _ _ _ _ _ _).mono (by decide)
  · exact missUnfetched_only _ _ _

theorem lookup_only (s : State) (l : Nat) (e : ReplyEntry) (card : Nat) (act : State → State) (h : ∀ t, Only ofRequest t (act t)) :
    Only ofRequest s (lookup l e card act s) := by
  unfold lookup; split
  · exact h _
  · split
    · split
      · exact ((State.readRecord_frame ‹_›).mono (by decide)).trans (evaluate_only _ _ _ _)
      · exact ((State.readRecord_frame ‹_›).mono (by decide)).trans (h _)
    · exact meetReserved_only _ _ _ _
    · exact h _

theorem flushingDecision_only (s : State) (l : Nat) (e : ReplyEntry) (card : Nat) (act : State → State) (h : ∀ t, Only ofRequest t (act t)) :
    Only ofRequest s (flushingDecision l e card act s) := by
  unfold flushingDecision; split
  · exact h _
  · split
    · exact (decline_only _ _ _ _ _).mono (by decide)
    · exact (joinWaitList_only _ _ _ _).mono (by decide)
    · exact h _

theorem directoryDecision_only (s : State) (l : Nat) (e : ReplyEntry) (card : Nat) :
    Only ofRequest s (directoryDecision l e card s) := by
  unfold directoryDecision; split
  · exact (refer_only _ _ _).mono (by decide)
  · split
    · exact (refer_only _ _ _).mono (by decide)
    · exact (refer_only _ _ _).mono (by decide)
    · exact flushingDecision_only _ _ _ _ _ (fun _ => (refer_only _ _ _).mono (by decide))
    · exact lookup_only _ _ _ _ _ (fun _ => miss_only _ _ _ _)
    · exact lookup_only _ _ _ _ _ (fun _ => miss_only _ _ _ _)

theorem journalOnly_only (s : State) (l : Nat) (e : ReplyEntry) (x : StackEntry) : Only ofRequest s (journalOnly l e x s) := by
  exact s.admitted_only l e _ _ (fun t => (joinUndoable_only t _).andThen (gate_only _ _ _ _ _ _ _) (by decide) (by decide)) (by decide)

theorem standInReverse_only (s : State) (l : Nat) (e : ReplyEntry) (x : StackEntry) :
    Only ofRequest s (standInReverse l e x s) := by
  unfold standInReverse; split
  · exact lookup_only _ _ _ _ _ (fun _ => journalOnly_only _ _ _ _)
  · exact lookup_only _ _ _ _ _ (fun _ => journalOnly_only _ _ _ _)
  · exact flushingDecision_only _ _ _ _ _ (fun _ => journalOnly_only _ _ _ _)
  all_goals
    split
    · exact (refer_only _ _ _).mono (by decide)
    · exact (joinWaitList_only _ _ _ _).mono (by decide)
    · exact journalOnly_only _ _ _ _

theorem applyStandIn_only (s : State) (l : Nat) (e : ReplyEntry) (p : Program) (card x : Nat) (partly : Bool) :
    Only ofFetch s (applyStandIn l e p card x partly s) := by
  unfold applyStandIn; dsimp only
  exact (((s.setExposure_only card _).andThen (joinUndoable_only _ _) (by decide) (by decide)).trans
    ((countersThenRaise_only _ _ _ _).mono (by decide))).trans ((gate_only _ _ _ _ _ _ _).mono (by decide))

theorem standInDecision_only (s : State) (l : Nat) (e : ReplyEntry) (card : Nat) :
    Only ofFetch s (standInDecision l e card s) := by
  unfold standInDecision
  refine s.underProgram_only l e card _ (fun p => ?_) (by decide)
  split
  · exact (decline_only _ _ _ _ _).mono (by decide)
  · split
    · exact (decline_only _ _ _ _ _).mono (by decide)
    · exact s.admitted_only l e _ _ (fun t => applyStandIn_only t _ _ _ _ _ _) (by decide)

/-! ### The endings of a fetch and of a referral -/

theorem State.serveWaiters_only {may : List Piece} (s : State) (ws : List Waiter) (act : Nat → ReplyEntry → State → State)
    (h : ∀ l e t, Only may t (act l e t)) : Only may s (s.serveWaiters ws act) := by
  unfold State.serveWaiters
  refine Only.foldl (fun s w => ?_) _ s
  split
  · exact h _ _ _
  · exact Only.refl _ s

theorem recheckReverse_only {may : List Piece} (s : State) (l : Nat) (e : ReplyEntry) (x : StackEntry) (act : State → State) (h : ∀ t, Only may t (act t))
    (hm : ∀ p ∈ [Piece.links, .tills], p ∈ may) : Only may s (recheckReverse l e x act s) := by
  unfold recheckReverse; split
  · exact h _
  · exact (decline_only _ _ _ _ _).mono hm
  · exact (decline_only _ _ _ _ _).mono hm

theorem serveInstalled_only (s : State) (card l : Nat) (e : ReplyEntry) : Only ofRequest s (serveInstalled card l e s) := by
  unfold serveInstalled; split
  · exact recheckReverse_only _ _ _ _ _ (fun _ => evaluate_only _ _ _ _) (by decide)
  · exact evaluate_only _ _ _ _

theorem serveUnknown_only (s : State) (l : Nat) (e : ReplyEntry) : Only ofRequest s (serveUnknown l e s) := by
  unfold serveUnknown; split
  · exact (releaseWithoutCard_only _ _ _ _).mono (by decide)
  · exact (decline_only _ _ _ _ _).mono (by decide)

theorem serveTimedOut_only (s : State) (card l : Nat) (e : ReplyEntry) : Only ofFetch s (serveTimedOut card l e s) := by
  unfold serveTimedOut; split
  · exact standInDecision_only _ _ _ _
  · split
    · exact recheckReverse_only _ _ _ _ _ (fun _ => (journalOnly_only _ _ _ _).mono (by decide)) (by decide)
    · exact (decline_only _ _ _ _ _).mono (by decide)
  · exact (releaseWithoutCard_only _ _ _ _).mono (by decide)
  · exact (decline_only _ _ _ _ _).mono (by decide)

theorem serveFlushed_only (s : State) (l : Nat) (e : ReplyEntry) : Only ofRequest s (serveFlushed l e s) := by
  unfold serveFlushed; split
  · split
    · exact recheckReverse_only _ _ _ _ _ (fun _ => journalOnly_only _ _ _ _) (by decide)
    · exact (refer_only _ _ _).mono (by decide)
  · exact (refer_only _ _ _).mono (by decide)

theorem fetchInstalled_only (s : State) (tag : Nat) (f : Fetch) (d : CardData) : Only ofFetch s (fetchInstalled tag f d s) := by
  exact ((s.setRequest_only _ _).andThen (State.install_only _ _ _) (by decide) (by decide)).trans
    (State.serveWaiters_only _ _ _ (fun _ _ _ => (serveInstalled_only _ _ _ _).mono (by decide)))

theorem fetchUnknown_only (s : State) (tag : Nat) (f : Fetch) : Only ofFetch s (fetchUnknown tag f s) := by
  refine ((s.endFetch_only tag f).mono (by decide)).trans (State.serveWaiters_only _ _ _ (fun l e t => ?_))
  split
  · exact (serveFlushed_only _ _ _).mono (by decide)
  · exact (serveUnknown_only _ _ _).mono (by decide)

theorem fetchFlushed_only (s : State) (tag : Nat) (f : Fetch) : Only ofFetch s (fetchFlushed tag f s) := by
  exact ((s.endFetch_only tag f).mono (by decide)).trans
    (State.serveWaiters_only _ _ _ (fun _ _ _ => (serveFlushed_only _ _ _).mono (by decide)))

theorem fetchTimedOut_only (s : State) (tag : Nat) (f : Fetch) : Only ofFetch s (fetchTimedOut tag f s) := by
  refine ((s.endFetch_only tag f).andThen (State.raise_only _ _ _) (by decide) (by decide)).trans
    (State.serveWaiters_only _ _ _ (fun l e t => ?_))
  split
  · exact (serveFlushed_only _ _ _).mono (by decide)
  · exact serveTimedOut_only _ _ _ _

theorem referralTimedOut_only (s : State) (tag : Nat) (r : Referral) :
    Only [.requests, .events, .out, .links, .tills] s (referralTimedOut tag r s) := by
  have h : ∀ d, Only [.requests, .events, .out, .links, .tills] s ((s.setRequest tag none).raise .hostTimeout d) :=
    fun d => (s.setRequest_only _ _).andThen (State.raise_only _ _ _) (by decide) (by decide)
  unfold referralTimedOut; dsimp only; split
  · exact h _
  · split
    · exact (h _).trans ((decline_only _ _ _ _ _).mono (by decide))
    · exact h _

theorem hostTimeout_only (s : State) (tag : Nat) (x : HostEntry) : Only ofFetch s (hostTimeout tag x s) := by
  unfold hostTimeout; split
  · exact fetchTimedOut_only _ _ _
  · exact (referralTimedOut_only _ _ _).mono (by decide)

/-! ### The host's answers -/

theorem State.warmRecord_only (s : State) (d : CardData) : Only [.dir, .nextStay] s (s.warmRecord d) := by
  unfold State.warmRecord; split
  · exact Only.refl _ s
  · split
    · exact s.install_only _ _
    · exact Only.refl _ s

theorem State.warm_only (s : State) (m : TillMsg) (b : Binding) (w : Option CardWire) :
    Only [.dir, .nextStay] s (s.warm m b w) := by
  unfold State.warm; split
  · split
    · exact s.warmRecord_only _
    · exact Only.refl _ s
  · exact Only.refl _ s

theorem State.relay_only (s : State) (r : Referral) (reply : TillReply) (tag gen : Nat) :
    Only [.links, .tills] s (s.relay r reply tag gen) := by
  unfold State.relay; split
  · split
    · exact (s.clearMark_only _).andThen (State.finish_only _ _ _ _) (by decide) (by decide)
    · exact (s.finish_only _ _ _).mono (by decide)
  · exact Only.refl _ s

theorem takeReferralAnswer_only (s : State) (tag gen : Nat) (kind : HostKind) (x : ReferralFields) :
    Only [.requests, .out, .links, .tills, .dir, .nextStay] s (takeReferralAnswer tag gen kind x s) := by
  unfold takeReferralAnswer; split
  · exact (s.refuseAnswer_only _ _ _).mono (by decide)
  · split
    · exact (s.refuseAnswer_only _ _ _).mono (by decide)
    · dsimp only; split
      · exact (s.setRequest_only _ _).andThen (State.queue_only _ _) (by decide) (by decide)
      · exact ((s.setRequest_only _ _).andThen (State.relay_only _ _ _ _ _) (by decide) (by decide)).trans
          ((State.warm_only _ _ _ _).mono (by decide))

theorem takeCardData_only (s : State) (tag gen : Nat) (kind : HostKind) (w : CardWire) :
    Only ofFetch s (takeCardData tag gen kind w s) := by
  unfold takeCardData; split
  · exact (s.refuseAnswer_only _ _ _).mono (by decide)
  · split
    · exact (s.refuseAnswer_only _ _ _).mono (by decide)
    · split
      · exact fetchFlushed_only _ _ _
      · exact fetchInstalled_only _ _ _ _

theorem takeNoSuchCard_only (s : State) (tag gen : Nat) (kind : HostKind) (x : Unit) :
    Only ofFetch s (takeNoSuchCard tag gen kind x s) := by
  unfold takeNoSuchCard; split
  · exact (s.refuseAnswer_only _ _ _).mono (by decide)
  · exact fetchUnknown_only _ _ _

theorem State.uncountUnposted_only (s : State) (card : Nat) : Only ofRecord s (s.uncountUnposted card) := by
  unfold State.uncountUnposted; split
  · split
    · dsimp only; split
      · exact (s.writeUnposted_only _ _).andThen (State.dropWay_only _ _ _) (by decide) (by decide)
      · exact (s.writeUnposted_only _ _).mono (by decide)
    · exact s.checkFault_only _ _
  · exact Only.refl _ s

theorem State.retire_only (s : State) (r : JournalRecord) : Only (ofRecord ++ [.links]) s (s.retire r) := by
  exact (s.uncountUnposted_only _).andThen (State.openReplies_only _ _) (by decide) (by decide)

theorem State.openFetchGate_only (s : State) (removed : List JournalRecord) (tag : Nat) :
    Only [.requests, .out] s (State.openFetchGate removed s tag) := by
  unfold State.openFetchGate; split
  · split
    · exact (s.setRequest_only _ _).andThen (State.queue_only _ _) (by decide) (by decide)
    · exact Only.refl _ s
  · exact Only.refl _ s

theorem State.rearm_only (s : State) : Only [.journal] s (s.rearm) := by
  unfold State.rearm; split
  · exact withJournal_only s _
  · exact Only.refl _ s

theorem State.post_only (s : State) (n : Nat) (removed left : List JournalRecord) :
    Only (ofRecord ++ [.links, .requests, .journal]) s (s.post n removed left) := by
  unfold State.post; dsimp only
  exact (((((withJournal_only s _).mono (by decide)).trans
    (Only.foldl (fun t r => (State.retire_only t r).mono (by decide)) _ _)).trans ((State.inFallOrder_only _ _).mono (by decide))).trans
    (Only.foldl (fun t tag => (State.openFetchGate_only t removed tag).mono (by decide)) _ _)).trans
    ((State.rearm_only _).mono (by decide))

/-! ### The clock and the timers -/

theorem State.crossCutovers_only : ∀ (n : Nat) (s : State), Only [.clock, .tills, .exposures, .events, .out] s (State.crossCutovers n s)
  | 0, s => Only.refl _ s
  | n + 1, s => ((s.setReading_only _).andThen (State.rollover_only _ _) (by decide) (by decide)).trans (State.crossCutovers_only n _)

theorem State.runTo_only (s : State) (r : Reading) : Only [.clock, .tills, .exposures, .events, .out] s (s.runTo r) := by
  exact (State.crossCutovers_only _ s).trans ((State.setReading_only _ _).mono (by decide))

theorem State.elapseTo_only (s : State) (r : Reading) :
    Only [.requests, .links, .clock, .tills, .exposures, .events, .out] s (s.elapseTo r) :=
  (s.countDown_only _).andThen (State.runTo_only _ _) (by decide) (by decide)

theorem State.reachInstant_only (s : State) (h : Hold) : Only (ofClock ++ [.links, .dirMode]) s (s.reachInstant h) := by
  have h1 : Only (ofClock ++ [.links, .dirMode]) s (if s.now.le h.expiry then s.elapseTo h.expiry else s) := by
    split
    · exact (s.elapseTo_only _).mono (by decide)
    · exact Only.refl _ s
  exact (h1.trans ((State.expireHold_only _ _).mono (by decide))).trans ((State.settle_only _).mono (by decide))

theorem State.advanceTo_only (s : State) (r : Reading) : Only (ofClock ++ [.links, .dirMode]) s (s.advanceTo r) := by
  exact (Only.foldl (fun t h => t.reachInstant_only h) _ s).trans ((State.elapseTo_only _ _).mono (by decide))

theorem State.elapse_only (s : State) (n : Nat) : Only (ofClock ++ [.links, .dirMode]) s (s.elapse n) := by
  unfold State.elapse; split
  · exact (s.countDown_only _).mono (by decide)
  · exact (s.advanceTo_only _).andThen (State.countDown_only _ _) (by decide) (by decide)

theorem moveClock_only (s : State) (c : Clock) : Only ofClock s ((moveClock c s).1) := by
  have h : Only ofClock s (if decide (s.date < c.businessDate) then ({ s with clock := c } : State).rollover true else { s with clock := c }) := by
    have h1 : Only ofClock s { s with clock := c } := (withClock_only s c).mono (by decide)
    split
    · exact h1.trans ((State.rollover_only _ _).mono (by decide))
    · exact h1
  exact (h.trans (Only.foldl (fun t x => (t.expireHold_only x).mono (by decide)) _ _)).trans ((State.inFallOrder_only _ _).mono (by decide))

theorem State.fireTag_only (s : State) (tag : Nat) : Only ofFetch s (s.fireTag tag) := by
  unfold State.fireTag; split
  · split
    · exact hostTimeout_only _ _ _
    · exact Only.refl _ s
  · exact Only.refl _ s

theorem State.fireGates_only (s : State) (l : Nat) : Only ofLoss s (s.fireGates l) := by
  unfold State.fireGates
  refine Only.foldl (fun t e => ?_) _ s
  split
  · exact t.gateTimeout_only _ _ _ _
  · exact Only.refl _ t

theorem State.firePresence_only (s : State) (l : Nat) : Only ofLoss s (s.firePresence l) := by
  unfold State.firePresence; split
  · exact s.loseLink_only _ _
  · exact Only.refl _ s

theorem State.fireTimers_only (s : State) : Only ofFetch s (s.fireTimers) := by
  exact ((Only.foldl (fun t x => t.fireTag_only x) _ s).trans (Only.foldl (fun t x => (t.fireGates_only x).mono (by decide)) _ _)).trans
    (Only.foldl (fun t x => (t.firePresence_only x).mono (by decide)) _ _)

theorem State.pass_only (s : State) (n : Nat) : Only (ofFetch ++ [.clock, .dirMode]) s (s.pass n) := by
  exact (((s.elapse_only n).mono (by decide)).trans ((State.fireTimers_only _).mono (by decide))).trans
    ((State.settle_only _).mono (by decide))

theorem State.tick_only (s : State) : Only (ofFetch ++ [.clock, .dirMode]) s s.tick := s.pass_only 1

theorem State.runFor_only (r : Reading) : ∀ (n : Nat) (s : State), Only (ofFetch ++ [.clock, .dirMode]) s (State.runFor r n s)
  | 0, s => (s.advanceTo_only _).mono (by decide)
  | n + 1, s => by
    unfold State.runFor; dsimp only; split
    · exact (s.advanceTo_only _).mono (by decide)
    · exact (s.pass_only _).trans (State.runFor_only r n _)

theorem State.runUntil_only (s : State) (r : Reading) : Only (ofFetch ++ [.clock, .dirMode]) s (s.runUntil r) := State.runFor_only r _ s

/-! ### Site links and take-off -/

theorem State.rejectHello_only (s : State) (l : Nat) (b : Bool) (h : HelloFields) :
    Only [.links, .events, .out] s (s.rejectHello l b h) := by
  exact ((s.transmit_only _ _).andThen (State.setLink_only _ _ _) (by decide) (by decide)).trans
    ((State.raise_only _ _ _).mono (by decide))

theorem State.acceptHello_only (s : State) (l : Nat) (h : HelloFields) : Only [.links, .events, .out] s (s.acceptHello l h) := by
  exact ((s.setLink_only _ _).andThen (State.transmit_only _ _ _) (by decide) (by decide)).trans
    ((State.raise_only _ _ _).mono (by decide))

theorem meetHello_only (s : State) (l : Nat) (h : HelloFields) : Only [.links, .events, .out] s (meetHello l h s) := by
  unfold meetHello; split
  · exact s.rejectHello_only _ _ _
  · split
    · exact s.rejectHello_only _ _ _
    · exact s.acceptHello_only _ _

theorem State.offer_only (s : State) (l : Nat) (m : TillMsg) : Only [.links] s (s.offer l m) := by
  unfold State.offer; split
  · exact s.setLink_only _ _
  · exact s.dropInbound_only _

theorem siteFrame_only {α : Type} {may : List Piece} (s : State) (l : Nat) (f : SiteFrame α) (listening up : α → State → State)
    (h : ∀ x, Only may s (listening x s)) (k : ∀ x, Only may s (up x s)) (hm : ∀ p ∈ [Piece.links], p ∈ may) :
    Only may s (siteFrame l f s listening up) := by
  unfold siteFrame; split
  · exact Only.refl _ s
  · exact (s.badFrame_only l).mono hm
  · exact (s.badFrame_only l).mono hm
  · exact h _
  · exact k _

theorem takeOff_only {may : List Piece} (s : State) (l : Nat) (want : TillKind → Bool) (act : ReplyEntry → NotedTill → State → State)
    (h : ∀ e n t, Only may t (act e n t)) (hm : ∀ p ∈ [Piece.links, .tills, .nextSlot], p ∈ may) : Only may s (takeOff l want s act) := by
  unfold takeOff; split
  · exact Only.refl _ s
  · split
    · dsimp only; split
      · exact ((s.take_only _ _ _).andThen (decline_only _ _ _ _ _) (by decide) (by decide)).mono hm
      · exact ((s.take_only _ _ _).mono (b := may) (fun p hp => hm p (by revert hp; revert p; decide))).trans (h _ _ _)
    · exact Only.refl _ s

theorem moneyChecks_only {may : List Piece} (s : State) (l : Nat) (e : ReplyEntry) (n : NotedTill) (a b : Bool) (amount : Nat)
    (act : State → State) (h : ∀ t, Only may t (act t)) (hm : ∀ p ∈ [Piece.links, .tills, .dirMode, .events, .out], p ∈ may) :
    Only may s (moneyChecks l e n a b amount s act) := by
  have hl : ∀ p ∈ [Piece.links], p ∈ may := fun p hp => hm p (by revert hp; revert p; decide)
  unfold moneyChecks; split
  · exact (declineField_only _ _ _ _ _).mono hl
  · split
    · exact (declineField_only _ _ _ _ _).mono hl
    · split
      · exact (ready_only _ _ _ _ _).mono hl
      · split
        · exact (decline_only _ _ _ _ _).mono (fun p hp => hm p (by revert hp; revert p; decide))
        · exact (h s).trans ((State.settle_only _).mono (fun p hp => hm p (by revert hp; revert p; decide)))

theorem bindTo_only {may : List Piece} (s : State) (l : Nat) (e : ReplyEntry) (b : Binding) (act : ReplyEntry → State → State)
    (h : ∀ e t, Only may t (act e t)) (hm : ∀ p ∈ [Piece.links], p ∈ may) : Only may s (bindTo l e b s act) :=
  ((s.modEntry_only l e.slot _).mono hm).trans (h _ _)

theorem withCardProgram_only (s : State) (l : Nat) (e : ReplyEntry) : Only ofRequest s (withCardProgram l e s) := by
  unfold withCardProgram; split
  · exact (unexpected_only _ _ _).mono (by decide)
  · exact s.underProgram_only l e _ _ (fun _ => directoryDecision_only _ _ _ _) (by decide)

theorem reverseFrom_only (s : State) (l : Nat) (e : ReplyEntry) (n : NotedTill) : Only ofRequest s (reverseFrom l e n s) := by
  unfold reverseFrom; split
  · exact (decline_only _ _ _ _ _).mono (by decide)
  · exact (decline_only _ _ _ _ _).mono (by decide)
  · rename_i x _
    refine bindTo_only s l e _ _ (fun e t => ?_) (by decide)
    have h := (t.setMark_only n.till x.id true).mono (b := ofRequest) (by decide)
    unfold reverseEntry; dsimp only; split
    · exact h.trans (standInReverse_only _ _ _ _)
    · exact h.trans (directoryDecision_only _ _ _ _)

theorem holdFrom_only (s : State) (l : Nat) (e : ReplyEntry) (n : NotedTill) : Only ofRequest s (holdFrom l e n s) := by
  unfold holdFrom; split
  · exact (unexpected_only _ _ _).mono (by decide)
  · split
    · exact (decline_only _ _ _ _ _).mono (by decide)
    · exact withCardProgram_only _ _ _

theorem settleHold_only (s : State) (l : Nat) (e : ReplyEntry) (n : NotedTill) : Only ofRequest s (settleHold l e n s) := by
  unfold settleHold; split
  · exact (unexpected_only _ _ _).mono (by decide)
  · split
    · split
      · exact bindTo_only s l e _ _ (fun e t => directoryDecision_only _ _ _ _) (by decide)
      · exact (decline_only _ _ _ _ _).mono (by decide)
    · split
      · exact (decline_only _ _ _ _ _).mono (by decide)
      · exact (refer_only _ _ _).mono (by decide)

theorem openTillAt_only (s : State) (l : Nat) (e : ReplyEntry) (n : NotedTill) :
    Only [.links, .tills] s (openTillAt l e n s) := by
  unfold openTillAt; dsimp only; split
  · exact (declineField_only _ _ _ _ _).mono (by decide)
  · exact (s.setTill_only _ _).andThen (ready_only _ _ _ _ _) (by decide) (by decide)

theorem closeTillAt_only (s : State) (l : Nat) (e : ReplyEntry) (n : NotedTill) :
    Only [.links, .tills] s (closeTillAt l e n s) := by
  unfold closeTillAt; dsimp only; split
  · exact (s.setTill_only _ _).andThen (ready_only _ _ _ _ _) (by decide) (by decide)
  · exact (declineField_only _ _ _ _ _).mono (by decide)

end Sys2Proof.Machine
end

