-- ==== Sys2Proof/Laws/Ops.lean ====
section
/-! SUPPORT. What the shared operations over the directory, the journal and the reply queues do, said once for each. -/

namespace Sys2Proof.Machine

/-! ### The ways of a set (R3, R4) -/

theorem DirSet.put_no (no : Nat) (st : WayState) (d : DirSet) : (d.put no st).ways.map (fun w => w.no) = d.ways.map (fun w => w.no) := by
  simp only [DirSet.put, List.map_map]
  exact List.map_congr_left (fun w _ => by dsimp only [Function.comp]; split <;> rfl)

theorem DirSet.mem_put (no : Nat) (st : WayState) (d : DirSet) (w : Way) :
    w ∈ (d.put no st).ways ↔ (w ∈ d.ways ∧ w.no ≠ no) ∨ (w.no = no ∧ w.st = st ∧ ∃ v ∈ d.ways, v.no = no) := by
  simp only [DirSet.put, List.mem_map]
  constructor
  · rintro ⟨v, hv, rfl⟩
    by_cases h : v.no = no
    · rw [if_pos h]; exact .inr ⟨h, rfl, v, hv, h⟩
    · rw [if_neg h]; exact .inl ⟨hv, h⟩
  · rintro (⟨hw, h⟩ | ⟨h, hst, v, hv, hvn⟩)
    · exact ⟨w, hw, if_neg h⟩
    · refine ⟨v, hv, ?_⟩
      rw [if_pos hvn]; cases w; cases v; simp_all

theorem DirSet.toMru_perm (no : Nat) (d : DirSet) : (d.toMru no).ways.Perm d.ways := by
  have h : d.ways.filter (fun w => decide (w.no = no)) = d.ways.filter (fun w => !decide (w.no ≠ no)) := by simp
  simp only [DirSet.toMru]; rw [h]
  exact List.filter_append_perm _ _

theorem DirSet.toLru_perm (no : Nat) (d : DirSet) : (d.toLru no).ways.Perm d.ways :=
  List.perm_append_comm.trans (d.toMru_perm no)

theorem DirSet.inOrder_of_perm {n : Nat} {d e : DirSet} (h : d.inOrder n) (p : e.ways.Perm d.ways) : e.inOrder n :=
  ⟨(p.map _).trans h.1, (p.filterMap _).nodup_iff.2 h.2.1, fun w hw => h.2.2 w (p.mem_iff.1 hw)⟩

theorem DirSet.inOrder_toMru {n : Nat} {d : DirSet} (no : Nat) (h : d.inOrder n) : (d.toMru no).inOrder n :=
  d.inOrder_of_perm h (d.toMru_perm no)

theorem DirSet.inOrder_toLru {n : Nat} {d : DirSet} (no : Nat) (h : d.inOrder n) : (d.toLru no).inOrder n :=
  d.inOrder_of_perm h (d.toLru_perm no)

/-- The cards of a list of ways are not shared. -/
theorem cards_nodup_cons (x : Way) (t : List Way) : ((x :: t).filterMap (fun w => w.st.card)).Nodup ↔
    (∀ w ∈ t, ∀ card, x.st.card = some card → w.st.card ≠ some card) ∧ (t.filterMap (fun w => w.st.card)).Nodup := by
  cases h : x.st.card with
  | none => simp [h]
  | some c =>
    rw [List.filterMap_cons_some (f := fun w : Way => w.st.card) h, List.nodup_cons]
    simp [List.mem_filterMap]

/-- A way of a set in order is the only one of its number, and the only one that holds its card. -/
theorem DirSet.way_unique {n : Nat} {d : DirSet} (h : d.inOrder n) {v w : Way} (hv : v ∈ d.ways) (hw : w ∈ d.ways) (e : v.no = w.no) :
    v = w := by
  have hn : (d.ways.map (fun w => w.no)).Nodup := h.1.nodup_iff.2 (by decide)
  exact List.inj_on_of_nodup_map hn hv hw e

theorem DirSet.card_unique {n : Nat} {d : DirSet} (h : d.inOrder n) {v w : Way} (hv : v ∈ d.ways) (hw : w ∈ d.ways) {card : Nat}
    (hvc : v.st.card = some card) (hwc : w.st.card = some card) : v = w := by
  have key : ∀ l : List Way, (l.filterMap (fun w => w.st.card)).Nodup → v ∈ l → w ∈ l → v = w := by
    intro l
    induction l with
    | nil => intro _ hv; cases hv
    | cons x t ih =>
      intro hn hv hw
      rw [cards_nodup_cons] at hn
      rcases List.mem_cons.1 hv with rfl | hv' <;> rcases List.mem_cons.1 hw with rfl | hw'
      · rfl
      · exact absurd hwc (hn.1 w hw' card hvc)
      · exact absurd hvc (hn.1 v hv' card hwc)
      · exact ih hn.2 hv' hw'
  exact key _ h.2.1 hv hw

theorem DirSet.holding_some {d : DirSet} {card : Nat} {w : Way} (h : d.holding card = some w) : w ∈ d.ways ∧ w.st.card = some card :=
  ⟨List.mem_of_find?_eq_some h, by simpa using List.find?_some h⟩

theorem DirSet.holding_none {d : DirSet} {card : Nat} : d.holding card = none ↔ ∀ w ∈ d.ways, w.st.card ≠ some card := by
  simp [DirSet.holding, List.find?_eq_none]

/-- In a set in order the way that holds a card is found wherever it stands. -/
theorem DirSet.holding_iff {n : Nat} {d : DirSet} (h : d.inOrder n) (card : Nat) (w : Way) :
    d.holding card = some w ↔ w ∈ d.ways ∧ w.st.card = some card := by
  refine ⟨DirSet.holding_some, fun ⟨hw, hc⟩ => ?_⟩
  cases hh : d.holding card with
  | none => exact absurd hc (DirSet.holding_none.1 hh w hw)
  | some v => rw [DirSet.card_unique h hw (DirSet.holding_some hh).1 hc (DirSet.holding_some hh).2]

/-- Sets with the same ways find the same way for every card, in whatever order the ways stand. -/
theorem DirSet.holding_of_perm {n : Nat} {d e : DirSet} (h : d.inOrder n) (p : e.ways.Perm d.ways) (card : Nat) :
    e.holding card = d.holding card := by
  refine Option.ext fun w => ?_
  rw [DirSet.holding_iff h, DirSet.holding_iff (d.inOrder_of_perm h p), p.mem_iff]

/-- A way of a set in order may take any state whose card is the set's and stands in no other way. -/
theorem DirSet.inOrder_put {n no : Nat} {st : WayState} {d : DirSet} (h : d.inOrder n) (hset : ∀ card ∈ st.card, setOf card = n)
    (hfree : ∀ card ∈ st.card, ∀ w ∈ d.ways, w.st.card = some card → w.no = no) : (d.put no st).inOrder n := by
  refine ⟨by rw [DirSet.put_no]; exact h.1, ?_, fun w hw card hc => ?_⟩
  · have key : ∀ l : List Way, (l.map (fun w => w.no)).Nodup → (l.filterMap (fun w => w.st.card)).Nodup →
        (∀ card ∈ st.card, ∀ w ∈ l, w.st.card = some card → w.no = no) →
        ((l.map (fun w => if w.no = no then { w with st := st } else w)).filterMap (fun w => w.st.card)).Nodup := by
      intro l
      induction l with
      | nil => intros; simp
      | cons x t ih =>
        intro hn hc hf
        rw [List.map_cons, List.nodup_cons] at hn
        rw [cards_nodup_cons] at hc
        have iht := ih hn.2 hc.2 (fun card hcard w hw => hf card hcard w (List.mem_cons_of_mem _ hw))
        rw [List.map_cons, cards_nodup_cons]
        refine ⟨fun w hw card hxc hwc => ?_, iht⟩
        obtain ⟨v, hv, rfl⟩ := List.mem_map.1 hw
        have hvx : v.no ≠ x.no := fun e => hn.1 (List.mem_map.2 ⟨v, hv, e⟩)
        by_cases hx : x.no = no
        · rw [if_neg (fun e => hvx (e.trans hx.symm))] at hwc
          rw [if_pos hx] at hxc
          exact hvx ((hf card hxc v (List.mem_cons_of_mem _ hv) hwc).trans hx.symm)
        · rw [if_neg hx] at hxc
          by_cases hvn : v.no = no
          · rw [if_pos hvn] at hwc
            exact hx (hf card hwc x List.mem_cons_self hxc)
          · rw [if_neg hvn] at hwc
            exact hc.1 v hv card hxc hwc
    exact key d.ways (h.1.nodup_iff.2 (by decide)) h.2.1 hfree
  · rcases (DirSet.mem_put no st d w).1 hw with ⟨hw, _⟩ | ⟨_, rfl, _⟩
    · exact h.2.2 w hw card hc
    · exact hset card hc

/-- What a card finds in a set in order after a way took a new state: the way itself when the state holds the card, else what it found
before, unless that was the way itself. -/
theorem DirSet.holding_put {n no : Nat} {st : WayState} {d : DirSet} (h : d.inOrder n) (hno : no < 4)
    (hput : (d.put no st).inOrder n) (card : Nat) :
    (d.put no st).holding card =
      if st.card = some card then some ⟨no, st⟩ else (d.holding card).filter (fun w => decide (w.no ≠ no)) := by
  have hex : ∃ v ∈ d.ways, v.no = no := by
    have : no ∈ d.ways.map (fun w => w.no) := h.1.mem_iff.2 (by simp; omega)
    obtain ⟨v, hv, e⟩ := List.mem_map.1 this
    exact ⟨v, hv, e⟩
  by_cases hc : st.card = some card
  · rw [if_pos hc]
    exact (DirSet.holding_iff hput card _).2 ⟨(DirSet.mem_put no st d _).2 (.inr ⟨rfl, rfl, hex⟩), hc⟩
  · rw [if_neg hc]
    refine Option.ext fun w => ?_
    rw [DirSet.holding_iff hput, DirSet.mem_put, Option.filter_eq_some_iff, DirSet.holding_iff h]
    constructor
    · rintro ⟨⟨hw, hn⟩ | ⟨_, rfl, _⟩, hwc⟩
      · exact ⟨⟨hw, hwc⟩, by simpa using hn⟩
      · exact absurd hwc hc
    · rintro ⟨⟨hw, hwc⟩, hn⟩
      exact ⟨.inl ⟨hw, by simpa using hn⟩, hwc⟩

/-! ### Finding and writing a card's record (R2, R4, R7, R11) -/

theorem State.findWay_setDirSet (s : State) (n : Nat) (x : DirSet) (card : Nat) :
    (s.setDirSet n x).findWay card = if setOf card = n then x.holding card else s.findWay card := by
  unfold State.findWay; rw [State.setDirSet_dirSet]; split <;> rfl

/-- The way that holds a resident record. -/
theorem State.recordOf_some {s : State} {card : Nat} {r : CardRecord} {stay : Nat} (h : s.recordOf card = some (r, stay)) :
    ∃ no, s.findWay card = some ⟨no, .valid r stay⟩ := by
  unfold State.recordOf at h; split at h
  · rename_i no r' stay' hf
    obtain ⟨rfl, rfl⟩ := Prod.mk.inj (Option.some.inj h)
    exact ⟨no, hf⟩
  · cases h

theorem State.recordOf_of_findWay {s : State} {card no : Nat} {r : CardRecord} {stay : Nat}
    (h : s.findWay card = some ⟨no, .valid r stay⟩) : s.recordOf card = some (r, stay) := by
  unfold State.recordOf; rw [h]

/-- R11: a record whose check code matches is read, and nothing changes. -/
theorem State.readRecord_good {s : State} {card : Nat} {r : CardRecord} {stay : Nat} (h : s.recordOf card = some (r, stay))
    (hv : r.verifies = true) : s.readRecord card = (s, some (r, stay)) := by
  obtain ⟨no, hf⟩ := State.recordOf_some h
  unfold State.readRecord; rw [hf]; simp [hv]

/-- R11: a record whose check code does not match is dropped with its fault taken. -/
theorem State.readRecord_damaged {s : State} {card no : Nat} {r : CardRecord} {stay : Nat}
    (h : s.findWay card = some ⟨no, .valid r stay⟩) (hv : r.verifies = false) : s.readRecord card = (s.checkFault card no, none) := by
  unfold State.readRecord; rw [h]; simp [hv]

theorem State.readRecord_absent {s : State} {card : Nat} (h : s.recordOf card = none) : s.readRecord card = (s, none) := by
  unfold State.recordOf at h
  unfold State.readRecord
  cases hf : s.findWay card with
  | none => rfl
  | some w =>
    obtain ⟨no, st⟩ := w
    cases st with
    | valid r stay => rw [hf] at h; cases h
    | invalid => rfl
    | reserved c => rfl

/-- R11: everything a check fault does. -/
theorem State.checkFault_effects (s : State) (card no : Nat) :
    (s.checkFault card no).dir = (s.dropWay (setOf card) no).dir ∧
    (s.checkFault card no).fault = s.fault.take ⟨card, setOf card, no⟩ ∧
    (s.checkFault card no).counters = { s.counters with checkFault := s.counters.checkFault.bump } ∧
    (s.checkFault card no).events = { s.events with pending := s.events.pending ||| Event.checkFault.bit } ∧
    (s.checkFault card no).out = if s.events.notices .checkFault then
      s.out ++ [.notice .checkFault s.now
        (.checkFault card (setOf card) no s.fault.latched.isNone (s.fault.take ⟨card, setOf card, no⟩).count)] else s.out :=
  ⟨rfl, rfl, rfl, rfl, rfl⟩

/-- A record as the part writes it matches its check code (R2). -/
@[simp] theorem sealRecord_verifies (d : CardData) (n : Nat) : (sealRecord d n).verifies = true := by simp [sealRecord, CardRecord.verifies]

@[simp] theorem sealRecord_data (d : CardData) (n : Nat) : (sealRecord d n).data = d := rfl
@[simp] theorem sealRecord_unposted (d : CardData) (n : Nat) : (sealRecord d n).unposted = n := rfl

/-- A set's own card is in a way of a number below 4. -/
theorem State.findWay_no {s : State} {card : Nat} {w : Way} (h : (s.dirSet (setOf card)).inOrder (setOf card))
    (hf : s.findWay card = some w) : w.no < 4 := by
  have : w.no ∈ (s.dirSet (setOf card)).ways.map (fun w => w.no) := List.mem_map.2 ⟨w, (DirSet.holding_some hf).1, rfl⟩
  have := h.1.mem_iff.1 this
  simp at this; omega

/-- The set of a card stays in order when the record of the card's way is replaced by one of the same card. -/
theorem State.inOrder_put_record {s : State} {card no : Nat} {st st' : WayState} (h : (s.dirSet (setOf card)).inOrder (setOf card))
    (hf : s.findWay card = some ⟨no, st⟩) (hc : st'.card = some card) :
    ((s.dirSet (setOf card)).put no st').inOrder (setOf card) := by
  have hmem := DirSet.holding_some hf
  refine DirSet.inOrder_put h (fun c hcc => ?_) (fun c hcc w hw hwc => ?_)
  · rw [hc] at hcc; cases hcc; rfl
  · rw [hc] at hcc; cases hcc
    rw [DirSet.card_unique h hw hmem.1 hwc hmem.2]

/-- Everything the writing of a resident record does to what each card finds: the card finds the new record in its way, in the same
stay, every other card what it found. -/
theorem State.findWay_writeRecord {s : State} {card no : Nat} {r : CardRecord} {stay : Nat} (f : CardRecord → CardRecord)
    (h : (s.dirSet (setOf card)).inOrder (setOf card)) (hf : s.findWay card = some ⟨no, .valid r stay⟩)
    (hc : (f r).data.card = card) (c : Nat) :
    (s.writeRecord card f).findWay c = if c = card then some ⟨no, .valid (f r) stay⟩ else s.findWay c := by
  have hput := State.inOrder_put_record h hf (st' := .valid (f r) stay) (by simp [WayState.card, hc])
  have hno := State.findWay_no h hf
  have hmem := DirSet.holding_some hf
  unfold State.writeRecord; rw [hf]; dsimp only
  rw [State.findWay_setDirSet, DirSet.holding_put h hno hput]
  by_cases hcc : c = card
  · subst hcc; simp [WayState.card, hc]
  · rw [if_neg hcc]
    have hne : ¬ (WayState.valid (f r) stay).card = some c := by simp [WayState.card, hc]; exact fun e => hcc e.symm
    rw [if_neg hne]
    by_cases hs : setOf c = setOf card
    · rw [if_pos hs]
      have e : s.findWay c = (s.dirSet (setOf card)).holding c := by unfold State.findWay; rw [hs]
      rw [e]
      cases hh : (s.dirSet (setOf card)).holding c with
      | none => rfl
      | some w =>
        have hw := DirSet.holding_some hh
        have : w.no ≠ no := fun e => by
          have := DirSet.way_unique h hw.1 hmem.1 e
          rw [this, hmem.2] at hw
          exact hcc (Option.some.inj hw.2).symm
        simp [this]
    · rw [if_neg hs]

/-- Everything the writing of a resident record's fields does to the records (R2). -/
theorem State.recordOf_writeData {s : State} {card : Nat} {r : CardRecord} {stay : Nat} (f : CardData → CardData)
    (h : (s.dirSet (setOf card)).inOrder (setOf card)) (hr : s.recordOf card = some (r, stay)) (hc : (f r.data).card = card) (c : Nat) :
    (s.writeData card f).recordOf c = if c = card then some (sealRecord (f r.data) r.unposted, stay) else s.recordOf c := by
  obtain ⟨no, hf⟩ := State.recordOf_some hr
  have hw := State.findWay_writeRecord (fun r => sealRecord (f r.data) r.unposted) h hf hc c
  unfold State.writeData State.recordOf; rw [hw]
  by_cases e : c = card
  · rw [if_pos e, if_pos e]
  · rw [if_neg e, if_neg e]

theorem State.recordOf_writeUnposted {s : State} {card : Nat} {r : CardRecord} {stay : Nat} (f : Nat → Nat)
    (h : (s.dirSet (setOf card)).inOrder (setOf card)) (hr : s.recordOf card = some (r, stay)) (hc : r.data.card = card) (c : Nat) :
    (s.writeUnposted card f).recordOf c = if c = card then some (sealRecord r.data (f r.unposted), stay) else s.recordOf c := by
  obtain ⟨no, hf⟩ := State.recordOf_some hr
  have hw := State.findWay_writeRecord (fun r => sealRecord r.data (f r.unposted)) h hf hc c
  unfold State.writeUnposted State.recordOf; rw [hw]
  by_cases e : c = card
  · rw [if_pos e, if_pos e]
  · rw [if_neg e, if_neg e]

/-- The writing of a record leaves the order of the ways as it was (R4): the way numbers of every set stand as they stood. -/
theorem State.writeRecord_order (s : State) (card : Nat) (f : CardRecord → CardRecord) (n : Nat) :
    ((s.writeRecord card f).dirSet n).ways.map (fun w => w.no) = (s.dirSet n).ways.map (fun w => w.no) := by
  unfold State.writeRecord; split
  · rw [State.setDirSet_dirSet]; split
    · rename_i e; rw [DirSet.put_no, e]
    · rfl
  · rfl

/-- R4: a touch moves the way to most recently used, and every card finds what it found. -/
theorem State.findWay_touch {s : State} {card : Nat} (h : (s.dirSet (setOf card)).inOrder (setOf card)) (c : Nat) :
    (s.touch card).findWay c = s.findWay c := by
  unfold State.touch; split
  · rw [State.findWay_setDirSet]; split
    · rename_i hs
      rw [DirSet.holding_of_perm h (DirSet.toMru_perm _ _)]; unfold State.findWay; rw [hs]
    · rfl
  · rfl

theorem State.recordOf_touch {s : State} {card : Nat} (h : (s.dirSet (setOf card)).inOrder (setOf card)) (c : Nat) :
    (s.touch card).recordOf c = s.recordOf c := by
  unfold State.recordOf; rw [State.findWay_touch h]

/-- R4: every set in order is in order after a touch. -/
theorem State.inOrder_touch {s : State} {card n : Nat} (h : (s.dirSet n).inOrder n) : ((s.touch card).dirSet n).inOrder n := by
  unfold State.touch; split
  · rw [State.setDirSet_dirSet]; split
    · rename_i e; subst e; exact DirSet.inOrder_toMru _ h
    · exact h
  · exact h

/-- R4: a way that is dropped is INVALID and least recently used; the card in it finds no way, every other card what it found. -/
theorem State.findWay_dropWay {s : State} {n no : Nat} (h : (s.dirSet n).inOrder n) (hno : no < 4) (c : Nat) :
    (s.dropWay n no).findWay c = if setOf c = n then (s.findWay c).filter (fun w => decide (w.no ≠ no)) else s.findWay c := by
  have hput : ((s.dirSet n).put no .invalid).inOrder n := DirSet.inOrder_put h (fun _ hc => by cases hc) (fun _ hc => by cases hc)
  unfold State.dropWay; rw [State.findWay_setDirSet]; split
  · rename_i e
    rw [DirSet.holding_of_perm hput (DirSet.toLru_perm _ _), DirSet.holding_put h hno hput, if_neg (by simp [WayState.card])]
    unfold State.findWay; rw [e]
  · rfl

theorem State.inOrder_dropWay {s : State} {n m no : Nat} (h : (s.dirSet m).inOrder m) : ((s.dropWay n no).dirSet m).inOrder m := by
  unfold State.dropWay; rw [State.setDirSet_dirSet]; split
  · rename_i e; subst e
    exact DirSet.inOrder_toLru _ (DirSet.inOrder_put h (fun _ hc => by cases hc) (fun _ hc => by cases hc))
  · exact h

/-! ### The journal (R123 to R128, R137, R138) -/

theorem State.warnHigh_journal (s : State) : s.warnHigh.journal =
    { s.journal with highArmed := s.journal.highArmed && decide (s.journal.records.length ≠ Config.highMark + 1) } := by
  unfold State.warnHigh; split
  · rename_i h; simp [h.1]
  · rename_i h
    cases ha : s.journal.highArmed with
    | false => simp; rw [← ha]
    | true =>
      have hl : s.journal.records.length ≠ Config.highMark + 1 := fun e => h ⟨e, ha⟩
      simp [hl]; rw [← ha]

/-- R124, R128: everything a record's joining does to the journal. -/
theorem State.joinRecord_journal (s : State) (d : Draft) : (s.joinRecord d).journal =
    { s.journal with
      records := s.journal.records ++ [d.record s]
      nextSeq := nextSequence s.journal.nextSeq
      highArmed := s.journal.highArmed && decide (s.journal.records.length ≠ Config.highMark) } := by
  have h : ((((s.appendRecord (d.record s)).countUnposted d.card).regate d.card).queue (.journal (d.record s) 0)).journal =
      (s.appendRecord (d.record s)).journal :=
    ((((State.countUnposted_only _ _).mono (b := Piece.ofRecord ++ [.generations, .requests]) (by decide)).trans
      ((State.regate_only _ _).mono (by decide))).trans ((State.queue_only _ _).mono (by decide))).journal
  unfold State.joinRecord; dsimp only
  rw [State.warnHigh_journal, h]
  simp

/-- R123: after a record joined, the queue names its card and every card it named. -/
theorem State.joinRecord_names (s : State) (d : Draft) (card : Nat) :
    (s.joinRecord d).names card = (s.names card || decide (d.card = card)) := by
  unfold State.names; rw [State.joinRecord_journal]; simp [List.any_append, Draft.record]

/-- R126: the admission test where there is room. -/
theorem State.admission_room {s : State} {need : Nat} (kind : Word16) (h : s.journal.hasRoom need = true) :
    s.admission need kind = ({ s with journal := { s.journal with refusing := false } }, true) := by
  unfold State.admission; rw [if_pos h]

/-- R138: the admission test where there is none, in the refusing condition and out of it. -/
theorem State.admission_refusing {s : State} {need : Nat} (kind : Word16) (h : s.journal.hasRoom need = false)
    (hr : s.journal.refusing = true) : s.admission need kind = (s, false) := by
  unfold State.admission; simp [h, hr]

theorem State.admission_full {s : State} {need : Nat} (kind : Word16) (h : s.journal.hasRoom need = false)
    (hr : s.journal.refusing = false) : s.admission need kind =
      (({ s with journal := { s.journal with refusing := true } } : State).raise .journalFull
        (.journalFull kind s.journal.records.length s.journal.reserved), false) := by
  unfold State.admission; simp [h, hr]

/-- R138: a failed admission in one form, as the statements say it. -/
theorem State.admission_eq_full {s : State} {need : Nat} (kind : Word16) (h : s.journal.hasRoom need = false) :
    s.admission need kind = (s.full kind, false) := by
  cases hr : s.journal.refusing with
  | true => rw [s.admission_refusing kind h hr, State.full, if_pos hr]
  | false =>
    rw [s.admission_full kind h hr, State.full, if_neg (by simp [hr])]
    simp [State.raise, EventFlags.notices, Event.isRoutine, Event.index, Event.bit, State.now]

theorem State.full_only (s : State) (kind : Word16) : Only [.journal, .events, .out] s (s.full kind) := by
  unfold State.full; split
  · exact Only.refl _ s
  · intro p hp; cases p <;> first | exact absurd (by decide) hp | rfl

/-- R166: an undo that makes an UNDO record counts as one entry undone, and a HOLD's counts as none. -/
@[simp] theorem Emptied.addUndo_undone (n : Emptied) (u : UndoRecord) :
    (n.addUndo u).undone = n.undone + (if u.sequence.isSome then 1 else 0) := by unfold Emptied.addUndo; split <;> rfl

@[simp] theorem Emptied.addUndo_abandoned (n : Emptied) (u : UndoRecord) : (n.addUndo u).abandoned = n.abandoned := by
  unfold Emptied.addUndo; split <;> rfl

@[simp] theorem Emptied.addUndo_undelivered (n : Emptied) (u : UndoRecord) : (n.addUndo u).undelivered = n.undelivered := by
  unfold Emptied.addUndo; split <;> rfl

/-- R109: what a regate does to the entries: the SENT fetch of the card, if one stands, is WAITING-POST under a new generation. -/
theorem State.regate_request (s : State) (card : Nat) (k : Nat) : (s.regate card).request k =
    match s.fetchFor card with
    | some (tag, x, f) =>
      if f.sent = true ∧ k = tag then
        some { gen := nextGeneration (s.generation tag), oldGens := x.gen :: x.oldGens, timer := s.limits.gate,
               kind := .fetch { f with sent := false } }
      else s.request k
    | none => s.request k := by
  unfold State.regate
  cases h : s.fetchFor card with
  | none => rfl
  | some p =>
    obtain ⟨tag, x, f⟩ := p
    cases hs : f.sent with
    | false => simp [hs]
    | true =>
      simp only [hs, if_true]
      rw [State.setRequest_request, State.bumpGeneration_request, State.bumpGeneration_generation_same]
      simp

/-! ### The order of the ways that fell in one event (R4) -/

/-- R4: putting the ways that fell in their order moves ways of the set and changes none. -/
theorem DirSet.inFallOrder_perm {n : Nat} {d e : DirSet} (hd : d.inOrder n) (he : e.inOrder n) : (d.inFallOrder e).ways.Perm e.ways := by
  have hnd : (d.ways.map (fun w => w.no)).Nodup := hd.1.nodup_iff.2 (by decide)
  have hne : (e.ways.map (fun w => w.no)).Nodup := he.1.nodup_iff.2 (by decide)
  have hfall : ((d.fallen e).map (fun no => (⟨no, .invalid⟩ : Way))).Nodup := by
    refine (List.Nodup.sublist (List.filter_sublist.map _) hnd).map ?_
    intro a b h; exact congrArg Way.no h
  have hperm : ((d.fallen e).map (fun no => (⟨no, .invalid⟩ : Way))).Perm (e.ways.filter (fun w => decide (w.no ∈ d.fallen e))) := by
    refine (List.perm_ext_iff_of_nodup hfall ((List.Nodup.of_map _ hne).filter _)).2 fun w => ?_
    rw [List.mem_map, List.mem_filter, decide_eq_true_eq]
    have hinv : ∀ no ∈ d.fallen e, (⟨no, .invalid⟩ : Way) ∈ e.ways := by
      intro no hno
      simp only [DirSet.fallen, List.mem_map, List.mem_filter, Bool.and_eq_true, List.any_eq_true, decide_eq_true_eq] at hno
      obtain ⟨v, ⟨-, -, x, hx, hxn, hxi⟩, rfl⟩ := hno
      obtain ⟨no, st⟩ := x
      cases st with
      | invalid => subst hxn; exact hx
      | reserved _ => cases hxi
      | valid _ _ => cases hxi
    constructor
    · rintro ⟨no, hno, rfl⟩; exact ⟨hinv no hno, hno⟩
    · rintro ⟨hw, hno⟩; exact ⟨w.no, hno, DirSet.way_unique he (hinv _ hno) hw rfl⟩
  have hsplit := List.filter_append_perm (fun w : Way => decide (w.no ∈ d.fallen e)) e.ways
  refine ((hperm.append_right _).trans ?_ : _)
  simpa using hsplit

/-- R4: everything that the order of one event's fallen ways does to the directory: each set keeps its ways. -/
theorem State.inFallOrder_perm {s t : State} (hs : ∀ n, (s.dirSet n).inOrder n) (ht : ∀ n, (t.dirSet n).inOrder n) (m : Nat) :
    ((s.inFallOrder t).dirSet m).ways.Perm (t.dirSet m).ways := by
  have key : ∀ (ks : List Nat) (u : State), (∀ m, (u.dirSet m).ways.Perm (t.dirSet m).ways) →
      ∀ m, ((ks.foldl (fun u n => u.setDirSet n ((s.dirSet n).inFallOrder (u.dirSet n))) u).dirSet m).ways.Perm (t.dirSet m).ways := by
    intro ks
    induction ks with
    | nil => exact fun u hu => hu
    | cons k ks ih =>
      intro u hu
      refine ih _ fun m => ?_
      rw [State.setDirSet_dirSet]
      split
      · next h =>
        subst h
        exact (DirSet.inFallOrder_perm (hs _) (DirSet.inOrder_of_perm (ht _) (hu _))).trans (hu _)
      · exact hu m
  exact key _ t (fun m => List.Perm.refl _) m

theorem State.inOrder_inFallOrder {s t : State} (hs : ∀ n, (s.dirSet n).inOrder n) (ht : ∀ n, (t.dirSet n).inOrder n) (n : Nat) :
    ((s.inFallOrder t).dirSet n).inOrder n := DirSet.inOrder_of_perm (ht n) (State.inFallOrder_perm hs ht n)

theorem State.findWay_inFallOrder {s t : State} (hs : ∀ n, (s.dirSet n).inOrder n) (ht : ∀ n, (t.dirSet n).inOrder n) (card : Nat) :
    (s.inFallOrder t).findWay card = t.findWay card := DirSet.holding_of_perm (ht _) (State.inFallOrder_perm hs ht _) card

/-! ### The mark of a REVERSE (R79) -/

/-- R79, R165: an emptied entry whose request had ended leaves every mark alone. -/
theorem State.endMark_ended {s : State} {e : ReplyEntry} (h : e.ended = true) : s.endMark e = s := by
  unfold State.endMark; rw [if_pos h]

theorem State.endMark_open {s : State} {e : ReplyEntry} (h : e.ended = false) : s.endMark e = s.clearMark e := by
  unfold State.endMark; rw [h]; rfl

/-! ### The clock and the timers (R172, R176) -/

theorem mem_insertByInstant (h k : Hold) : ∀ hs : List Hold, k ∈ insertByInstant h hs ↔ k = h ∨ k ∈ hs
  | [] => by simp [insertByInstant]
  | x :: t => by
    unfold insertByInstant; split
    · simp
    · simp only [List.mem_cons, mem_insertByInstant h k t]; tauto

/-- R174: the order in which holds expire leaves none out and adds none. -/
theorem mem_sortByInstant (k : Hold) (hs : List Hold) : k ∈ sortByInstant hs ↔ k ∈ hs := by
  have h : ∀ (hs acc : List Hold), k ∈ hs.foldl (fun acc h => insertByInstant h acc) acc ↔ k ∈ hs ∨ k ∈ acc := by
    intro hs
    induction hs with
    | nil => simp
    | cons x t ih => intro acc; rw [List.foldl_cons, ih, mem_insertByInstant, List.mem_cons]; tauto
  simpa [sortByInstant] using h hs []

theorem ReplyEntry.countDown_add (a b : Nat) (e : ReplyEntry) : (e.countDown a).countDown b = e.countDown (a + b) := by
  obtain ⟨slot, m, n, bd, ne, st⟩ := e
  cases st <;> simp [ReplyEntry.countDown, Nat.sub_sub]

theorem ReplyEntry.countDown_zero (e : ReplyEntry) : e.countDown 0 = e := by
  obtain ⟨slot, m, n, bd, ne, st⟩ := e
  cases st <;> rfl

theorem Link.countDown_add (a b : Nat) (x : Link) : (x.countDown a).countDown b = x.countDown (a + b) := by
  have h : ReplyEntry.countDown b ∘ ReplyEntry.countDown a = ReplyEntry.countDown (a + b) :=
    funext (fun e => ReplyEntry.countDown_add a b e)
  cases hx : x.presenceTimer <;> simp [Link.countDown, hx, h, Nat.sub_sub]

theorem Link.countDown_zero (x : Link) : x.countDown 0 = x := by
  have h : ReplyEntry.countDown 0 = id := funext ReplyEntry.countDown_zero
  have h1 : x.presenceTimer.map (fun t => t - 0) = x.presenceTimer := by cases x.presenceTimer <;> rfl
  simp only [Link.countDown, h, h1, List.map_id]

/-- R176: every timer of every link runs as long. -/
theorem State.countDown_link {s : State} (h : s.links.wf Link.default = true) (n l : Nat) :
    (s.countDown n).link l = (s.link l).countDown n := Table.get_mapEntries Link.default (Link.countDown n) rfl h l

theorem State.countDown_wf {s : State} (h : s.links.wf Link.default = true) (n : Nat) : (s.countDown n).links.wf Link.default = true :=
  Table.wf_mapEntries Link.default (Link.countDown n) h

theorem State.crossCutovers_notSet : ∀ (n : Nat) (s : State),
    (State.crossCutovers n s).clock.notSet = s.clock.notSet ∧ (State.crossCutovers n s).clock.cutover = s.clock.cutover
  | 0, _ => ⟨rfl, rfl⟩
  | n + 1, s => by
    have h : ((s.setReading s.clock.nextCutover).rollover false).clock = { s.clock with reading := s.clock.nextCutover } :=
      (State.rollover_only _ _).clock
    have h2 := State.crossCutovers_notSet n ((s.setReading s.clock.nextCutover).rollover false)
    rw [h] at h2
    exact h2

/-- R172: the clock stands at the reading it has run on to, its cutover hour and flag as they were. -/
theorem State.runTo_clock (s : State) (r : Reading) : (s.runTo r).clock = { s.clock with reading := r } := by
  have h := State.crossCutovers_notSet (businessDateOf s.clock.cutover r - s.date) s
  show ({ (State.crossCutovers _ s).clock with reading := r } : Clock) = _
  rw [Clock.mk.injEq]
  exact ⟨rfl, h.2, h.1⟩

theorem State.elapseTo_clock (s : State) (r : Reading) : (s.elapseTo r).clock = { s.clock with reading := r } := by
  unfold State.elapseTo
  rw [State.runTo_clock, (State.countDown_only s _).clock]

theorem State.elapseTo_links (s : State) (r : Reading) : (s.elapseTo r).links = (s.countDown (r.ms - s.now.ms)).links :=
  (State.runTo_only _ r).links

/-- R95, R172, R176: when the clock reaches a hold's instant it stands there, or where it stood when it had passed it, and every timer of
a link has run as long as the clock. -/
theorem State.reachInstant_effects {s : State} (h : Hold) (hw : s.links.wf Link.default = true) :
    (s.reachInstant h).clock = { s.clock with reading := if s.now.le h.expiry then h.expiry else s.clock.reading } ∧
    (s.reachInstant h).links.wf Link.default = true ∧
    ∀ l, (s.reachInstant h).link l = (s.link l).countDown (h.expiry.ms - s.now.ms) := by
  have hx : ∀ t : State, ((t.expireHold h).settle).clock = t.clock ∧ ((t.expireHold h).settle).links = t.links := fun t =>
    ⟨((State.settle_only _).clock).trans ((State.expireHold_only t h).clock),
     ((State.settle_only _).links).trans ((State.expireHold_only t h).links)⟩
  unfold State.reachInstant
  obtain ⟨hc, hl⟩ := hx (if s.now.le h.expiry then s.elapseTo h.expiry else s)
  simp only [State.link]
  rw [hc, hl]
  split
  · refine ⟨State.elapseTo_clock s _, ?_, fun l => ?_⟩
    · rw [State.elapseTo_links]; exact State.countDown_wf hw _
    · rw [State.elapseTo_links]; exact State.countDown_link hw _ l
  · next hle =>
    refine ⟨rfl, hw, fun l => ?_⟩
    have h0 : h.expiry.ms - s.now.ms = 0 := by simp [Reading.le] at hle; omega
    rw [h0, Link.countDown_zero]

/-- R172, R176: when the clock has run on to `target`, over the instants of OPEN holds, it stands there and every timer of a link has run
as long as the clock. -/
theorem State.advanceTo_effects {s : State} {target : Reading} (hs : s.clock.notSet = false) (hw : s.links.wf Link.default = true)
    (hle : s.now.ms ≤ target.ms) :
    (s.advanceTo target).clock = { s.clock with reading := target } ∧
    ∀ l, (s.advanceTo target).link l = (s.link l).countDown (target.ms - s.now.ms) := by
  have hnow : ∀ t : State, t.clock.notSet = false → t.now = t.clock.reading := fun t ht => by simp [State.now, Clock.now, ht]
  have key : ∀ (hs' : List Hold) (t : State), (∀ h ∈ hs', h.expiry.ms ≤ target.ms) → t.clock.notSet = false →
      t.links.wf Link.default = true → t.now.ms ≤ target.ms →
      let u := (hs'.foldl State.reachInstant t).elapseTo target
      u.clock = { t.clock with reading := target } ∧ ∀ l, u.link l = (t.link l).countDown (target.ms - t.now.ms) := by
    intro hs'
    induction hs' with
    | nil =>
      intro t _ ht htw _
      exact ⟨State.elapseTo_clock t _, fun l => by
        show (t.elapseTo target).links.get _ l = _
        rw [State.elapseTo_links]; exact State.countDown_link htw _ l⟩
    | cons h hs' ih =>
      intro t hd ht htw hle'
      obtain ⟨hc, hw', hl⟩ := State.reachInstant_effects h htw
      have hset : (t.reachInstant h).clock.notSet = false := by rw [hc]; exact ht
      have hd1 := hd h List.mem_cons_self
      have hn : (t.reachInstant h).now.ms = max t.now.ms h.expiry.ms := by
        rw [hnow _ hset, hc, ← hnow t ht]
        by_cases hh : t.now.le h.expiry
        · have := hh; simp [Reading.le] at this; simp [hh]; omega
        · have := hh; simp [Reading.le] at this; simp [hh]; omega
      obtain ⟨ic, il⟩ := ih (t.reachInstant h) (fun k hk => hd k (List.mem_cons_of_mem _ hk)) hset hw' (by rw [hn]; omega)
      refine ⟨by rw [List.foldl_cons, ic, hc], fun l => ?_⟩
      rw [List.foldl_cons, il l, hl l, Link.countDown_add, hn]
      congr 1; omega
  refine key _ s (fun h hh => ?_) hs hw hle
  have hm := (mem_sortByInstant _ _).mp hh
  simp only [List.mem_filter, Reading.le, Bool.and_eq_true, decide_eq_true_eq] at hm
  exact hm.2.2

/-- R172, R176: while no timer runs out on the way, the clock runs on to its target and every timer with it. -/
theorem State.runUntil_quiet {s : State} {target : Reading} (h : s.quietFor (target.ms - s.now.ms) = true) :
    s.runUntil target = s.advanceTo (s.now.max target) := by
  unfold State.runUntil
  cases hk : target.ms - s.now.ms with
  | zero => rfl
  | succ k =>
    rw [hk] at h
    unfold State.runFor
    rw [hk]
    simp [h]

/-! ### Holds (R43, R81, R82) -/

theorem State.freeHold_effects (s : State) (h : Hold) :
    (s.freeHold h).holds = s.holds.filter (fun x => decide (x.id ≠ h.id)) ∧
    ∀ k, (s.freeHold h).siteHoldCount k = if k = h.site then s.siteHoldCount h.site - 1 else s.siteHoldCount k :=
  ⟨rfl, fun _ => Table.get_set _ _ _ _ _⟩

/-! ### Reply queue entries (R62, R163) -/

/-- R163: everything a completed reply does to its link. -/
theorem State.finish_link (s : State) (l slot : Nat) (st : ReplyState) (k : Nat) : (s.finish l slot st).link k =
    if k = l then { s.link l with replies := (s.link l).replies.map (fun e => if e.slot = slot then { e with state := st } else e) }
    else s.link k := by
  unfold State.finish State.modEntry; rw [State.setLink_link]

theorem State.dropEntry_link (s : State) (l slot : Nat) (k : Nat) : (s.dropEntry l slot).link k =
    if k = l then { s.link l with replies := (s.link l).replies.filter (fun e => decide (e.slot ≠ slot)) } else s.link k := by
  unfold State.dropEntry; rw [State.setLink_link]

theorem State.transmit_link (s : State) (l : Nat) (m : SiteOut) (k : Nat) : (s.transmit l m).link k =
    if k = l then { s.link l with sent := (s.link l).sent ++ [m] } else s.link k := by
  unfold State.transmit; rw [State.setLink_link]

/-- R162: everything a take-off does to the links. -/
theorem State.take_link (s : State) (l : Nat) (e : ReplyEntry) (rest : List TillMsg) (k : Nat) : (s.take l e rest).link k =
    if k = l then { s.link l with inbound := rest, replies := (s.link l).replies ++ [e] } else s.link k :=
  Table.get_set _ _ _ _ _

/-- An entry that stands alone under its slot number is completed in its place. -/
theorem replies_finish_last {es : List ReplyEntry} {e : ReplyEntry} (h : ∀ x ∈ es, x.slot ≠ e.slot) (f : ReplyEntry → ReplyEntry) :
    (es ++ [e]).map (fun x => if x.slot = e.slot then f x else x) = es ++ [f e] := by
  rw [List.map_append]
  congr 1
  · exact (List.map_congr_left (fun x hx => if_neg (h x hx))).trans (List.map_id es)
  · simp

/-- R62: everything a decline does to its link; the mark of a REVERSE stands at a till, not on a link. -/
theorem decline_link (l : Nat) (e : ReplyEntry) (r : Reason) (free : Option Nat) (s : State) (k : Nat) :
    (decline l e r free s).link k = if k = l then
      { s.link l with replies := (s.link l).replies.map (fun x => if x.slot = e.slot then
          { x with state := .ready (declinedReply e.msg r free) none none } else x) }
    else s.link k := by
  have h : ∀ k, (s.clearMark e).link k = s.link k := fun k => by
    unfold State.link; rw [(s.clearMark_only e).links]
  unfold decline; rw [State.finish_link, h, h]

/-- R110, R118: the abandoning of a request leaves an entry its generations and its timer. -/
theorem abandonIn_gen (l slot : Nat) (x : HostEntry) : (abandonIn l slot x).gen = x.gen ∧ (abandonIn l slot x).oldGens = x.oldGens ∧
    (abandonIn l slot x).timer = x.timer := by
  unfold abandonIn; split
  · exact ⟨rfl, rfl, rfl⟩
  · split <;> exact ⟨rfl, rfl, rfl⟩

end Sys2Proof.Machine
end

