-- ==== Sys2Proof/Laws/PerInstr.lean ====
section
/-! SUPPORT. Statements about every command, made one constructor at a time. -/

namespace Sys2Proof.Laws.CodeFault

/-- The field that a frame with a malformed form or action code names. -/
def ofFrame {α : Type} : HostFrame α → Option Field
  | .badCode _ f => some f
  | _ => none

/-- The field that a command with a malformed form or action code names (R179, R192). -/
def field : Instr → Option Field
  | .powerOnReset => none
  | .resetEngine f => ofFrame f
  | .start f => ofFrame f
  | .setLimits f => ofFrame f
  | .timeSet f => ofFrame f
  | .programSet f => ofFrame f
  | .programActivate f => ofFrame f
  | .programDeactivate f => ofFrame f
  | .programLock f => ofFrame f
  | .rangeProbe f => ofFrame f
  | .passRangeSet f => ofFrame f
  | .directoryMode f => ofFrame f
  | .cardEvict f => ofFrame f
  | .cardAdjustLoad f => ofFrame f
  | .cardAdjustUnload f => ofFrame f
  | .cardAdjustSetBonus f => ofFrame f
  | .cardAdjustBlock f => ofFrame f
  | .cardAdjustUnblock f => ofFrame f
  | .directoryReadSummary f => ofFrame f
  | .directoryReadCard f => ofFrame f
  | .directoryReadSet f => ofFrame f
  | .readFault f => ofFrame f
  | .siteSet f => ofFrame f
  | .sliceAssign f => ofFrame f
  | .windowSet f => ofFrame f
  | .linkControlEnable f => ofFrame f
  | .linkControlDisable f => ofFrame f
  | .linkControlReset f => ofFrame f
  | .linkControlSetExpectedIdentity f => ofFrame f
  | .setNotices f => ofFrame f
  | .readEvents f => ofFrame f
  | .readCounters f => ofFrame f
  | .readStatus f => ofFrame f
  | .unknownCommand _ => none
  | .cardData _ => none
  | .noSuchCard _ => none
  | .referralAnswer _ => none
  | .posted _ => none
  | .journalSend => none
  | .linkHello _ _ => none
  | .presence _ _ => none
  | .tillMessageArrival _ _ => none
  | .presenceTimeout _ => none
  | .openTill _ => none
  | .closeTill _ => none
  | .enquiry _ => none
  | .redeem _ => none
  | .hold _ => none
  | .complete _ => none
  | .release _ => none
  | .reverse _ => none
  | .reload _ => none
  | .unknownTillKind _ => none
  | .delivery _ => none
  | .fetchAnswerTimeout _ => none
  | .fetchGateTimeout _ => none
  | .referralTimeout _ => none
  | .gateTimeout _ _ => none
  | .holdExpiry _ _ => none
  | .dayRollover => none
  | .storedContentAltered _ _ _ => none
  | .serviceMessageTransmitted => none

/-- R192, R20, R25, R167: a command that a frame can spell with a malformed code is a CARD-ADJUST or a DIRECTORY-READ whose form, or a
LINK-CONTROL whose link number or action, is the field at fault. -/
def Statement (i : Instr) : Prop :=
  wellFormed i = true → ∀ f, field i = some f →
    (∃ ref, (i = .cardAdjustLoad (.badCode ref f) ∨ i = .directoryReadSummary (.badCode ref f)) ∧ f = .form) ∨
    ∃ ref, i = .linkControlEnable (.badCode ref f) ∧ (f = .linkNumber ∨ f = .action)

/-- A frame of a command with no form and no action names no code. -/
theorem ofFrame_of_noCode {α : Type} {x : HostFrame α} (h : noCode x = true) : ofFrame x = none := by
  cases x <;> simp_all [noCode, ofFrame]

/-- A frame with a malformed code names the field it carries. -/
theorem eq_of_ofFrame {α : Type} {x : HostFrame α} {f : Field} (h : ofFrame x = some f) : ∃ ref, x = .badCode ref f := by
  cases x <;> simp_all [ofFrame]

theorem powerOnReset : Statement (.powerOnReset) := fun _ _ hf => absurd hf (by simp [field])
theorem resetEngine (x : HostFrame Unit) : Statement (.resetEngine x) := fun h _ hf => absurd ((ofFrame_of_noCode h).symm.trans hf) (by simp)
theorem start (x : HostFrame Unit) : Statement (.start x) := fun h _ hf => absurd ((ofFrame_of_noCode h).symm.trans hf) (by simp)
theorem setLimits (x : HostFrame LimitsFields) : Statement (.setLimits x) := fun h _ hf => absurd ((ofFrame_of_noCode h).symm.trans hf) (by simp)
theorem timeSet (x : HostFrame TimeFields) : Statement (.timeSet x) := fun h _ hf => absurd ((ofFrame_of_noCode h).symm.trans hf) (by simp)
theorem programSet (x : HostFrame ProgramFields) : Statement (.programSet x) := fun h _ hf => absurd ((ofFrame_of_noCode h).symm.trans hf) (by simp)
theorem programActivate (x : HostFrame Byte) : Statement (.programActivate x) := fun h _ hf => absurd ((ofFrame_of_noCode h).symm.trans hf) (by simp)
theorem programDeactivate (x : HostFrame Byte) : Statement (.programDeactivate x) := fun h _ hf => absurd ((ofFrame_of_noCode h).symm.trans hf) (by simp)
theorem programLock (x : HostFrame Byte) : Statement (.programLock x) := fun h _ hf => absurd ((ofFrame_of_noCode h).symm.trans hf) (by simp)
theorem rangeProbe (x : HostFrame Byte) : Statement (.rangeProbe x) := fun h _ hf => absurd ((ofFrame_of_noCode h).symm.trans hf) (by simp)
theorem passRangeSet (x : HostFrame PassRangeFields) : Statement (.passRangeSet x) := fun h _ hf => absurd ((ofFrame_of_noCode h).symm.trans hf) (by simp)
theorem directoryMode (x : HostFrame Byte) : Statement (.directoryMode x) := fun h _ hf => absurd ((ofFrame_of_noCode h).symm.trans hf) (by simp)
theorem cardEvict (x : HostFrame Word64) : Statement (.cardEvict x) := fun h _ hf => absurd ((ofFrame_of_noCode h).symm.trans hf) (by simp)
theorem cardAdjustLoad (x : HostFrame CardWire) : Statement (.cardAdjustLoad x) := by
  intro h f hf
  obtain ⟨ref, rfl⟩ := eq_of_ofFrame hf
  exact Or.inl ⟨ref, Or.inl rfl, by simpa [wellFormed, codeNames] using h⟩
theorem cardAdjustUnload (x : HostFrame Word64) : Statement (.cardAdjustUnload x) := fun h _ hf => absurd ((ofFrame_of_noCode h).symm.trans hf) (by simp)
theorem cardAdjustSetBonus (x : HostFrame SetBonusFields) : Statement (.cardAdjustSetBonus x) := fun h _ hf => absurd ((ofFrame_of_noCode h).symm.trans hf) (by simp)
theorem cardAdjustBlock (x : HostFrame Word64) : Statement (.cardAdjustBlock x) := fun h _ hf => absurd ((ofFrame_of_noCode h).symm.trans hf) (by simp)
theorem cardAdjustUnblock (x : HostFrame Word64) : Statement (.cardAdjustUnblock x) := fun h _ hf => absurd ((ofFrame_of_noCode h).symm.trans hf) (by simp)
theorem directoryReadSummary (x : HostFrame Unit) : Statement (.directoryReadSummary x) := by
  intro h f hf
  obtain ⟨ref, rfl⟩ := eq_of_ofFrame hf
  exact Or.inl ⟨ref, Or.inr rfl, by simpa [wellFormed, codeNames] using h⟩
theorem directoryReadCard (x : HostFrame Word64) : Statement (.directoryReadCard x) := fun h _ hf => absurd ((ofFrame_of_noCode h).symm.trans hf) (by simp)
theorem directoryReadSet (x : HostFrame Word16) : Statement (.directoryReadSet x) := fun h _ hf => absurd ((ofFrame_of_noCode h).symm.trans hf) (by simp)
theorem readFault (x : HostFrame Unit) : Statement (.readFault x) := fun h _ hf => absurd ((ofFrame_of_noCode h).symm.trans hf) (by simp)
theorem siteSet (x : HostFrame SiteFields) : Statement (.siteSet x) := fun h _ hf => absurd ((ofFrame_of_noCode h).symm.trans hf) (by simp)
theorem sliceAssign (x : HostFrame SliceFields) : Statement (.sliceAssign x) := fun h _ hf => absurd ((ofFrame_of_noCode h).symm.trans hf) (by simp)
theorem windowSet (x : HostFrame WindowFields) : Statement (.windowSet x) := fun h _ hf => absurd ((ofFrame_of_noCode h).symm.trans hf) (by simp)
theorem linkControlEnable (x : HostFrame Byte) : Statement (.linkControlEnable x) := by
  intro h f hf
  obtain ⟨ref, rfl⟩ := eq_of_ofFrame hf
  exact Or.inr ⟨ref, rfl, by simpa [wellFormed, codeNames] using h⟩
theorem linkControlDisable (x : HostFrame Byte) : Statement (.linkControlDisable x) := fun h _ hf => absurd ((ofFrame_of_noCode h).symm.trans hf) (by simp)
theorem linkControlReset (x : HostFrame Byte) : Statement (.linkControlReset x) := fun h _ hf => absurd ((ofFrame_of_noCode h).symm.trans hf) (by simp)
theorem linkControlSetExpectedIdentity (x : HostFrame IdentityFields) : Statement (.linkControlSetExpectedIdentity x) := fun h _ hf => absurd ((ofFrame_of_noCode h).symm.trans hf) (by simp)
theorem setNotices (x : HostFrame NoticeFields) : Statement (.setNotices x) := fun h _ hf => absurd ((ofFrame_of_noCode h).symm.trans hf) (by simp)
theorem readEvents (x : HostFrame Unit) : Statement (.readEvents x) := fun h _ hf => absurd ((ofFrame_of_noCode h).symm.trans hf) (by simp)
theorem readCounters (x : HostFrame Unit) : Statement (.readCounters x) := fun h _ hf => absurd ((ofFrame_of_noCode h).symm.trans hf) (by simp)
theorem readStatus (x : HostFrame Unit) : Statement (.readStatus x) := fun h _ hf => absurd ((ofFrame_of_noCode h).symm.trans hf) (by simp)
theorem unknownCommand (x : UnknownFrame) : Statement (.unknownCommand x) := fun _ _ hf => absurd hf (by simp [field])
theorem cardData (x : AnswerFrame CardWire) : Statement (.cardData x) := fun _ _ hf => absurd hf (by simp [field])
theorem noSuchCard (x : AnswerFrame Unit) : Statement (.noSuchCard x) := fun _ _ hf => absurd hf (by simp [field])
theorem referralAnswer (x : AnswerFrame ReferralFields) : Statement (.referralAnswer x) := fun _ _ hf => absurd hf (by simp [field])
theorem posted (x : PostedFrame) : Statement (.posted x) := fun _ _ hf => absurd hf (by simp [field])
theorem journalSend : Statement (.journalSend) := fun _ _ hf => absurd hf (by simp [field])
theorem linkHello (link : Fin 8) (x : SiteFrame HelloFields) : Statement (.linkHello link x) := fun _ _ hf => absurd hf (by simp [field])
theorem presence (link : Fin 8) (x : SiteFrame Unit) : Statement (.presence link x) := fun _ _ hf => absurd hf (by simp [field])
theorem tillMessageArrival (link : Fin 8) (x : SiteFrame TillMsg) : Statement (.tillMessageArrival link x) := fun _ _ hf => absurd hf (by simp [field])
theorem presenceTimeout (link : Fin 8) : Statement (.presenceTimeout link) := fun _ _ hf => absurd hf (by simp [field])
theorem openTill (link : Fin 8) : Statement (.openTill link) := fun _ _ hf => absurd hf (by simp [field])
theorem closeTill (link : Fin 8) : Statement (.closeTill link) := fun _ _ hf => absurd hf (by simp [field])
theorem enquiry (link : Fin 8) : Statement (.enquiry link) := fun _ _ hf => absurd hf (by simp [field])
theorem redeem (link : Fin 8) : Statement (.redeem link) := fun _ _ hf => absurd hf (by simp [field])
theorem hold (link : Fin 8) : Statement (.hold link) := fun _ _ hf => absurd hf (by simp [field])
theorem complete (link : Fin 8) : Statement (.complete link) := fun _ _ hf => absurd hf (by simp [field])
theorem release (link : Fin 8) : Statement (.release link) := fun _ _ hf => absurd hf (by simp [field])
theorem reverse (link : Fin 8) : Statement (.reverse link) := fun _ _ hf => absurd hf (by simp [field])
theorem reload (link : Fin 8) : Statement (.reload link) := fun _ _ hf => absurd hf (by simp [field])
theorem unknownTillKind (link : Fin 8) : Statement (.unknownTillKind link) := fun _ _ hf => absurd hf (by simp [field])
theorem delivery (link : Fin 8) : Statement (.delivery link) := fun _ _ hf => absurd hf (by simp [field])
theorem fetchAnswerTimeout (tag : Fin 256) : Statement (.fetchAnswerTimeout tag) := fun _ _ hf => absurd hf (by simp [field])
theorem fetchGateTimeout (tag : Fin 256) : Statement (.fetchGateTimeout tag) := fun _ _ hf => absurd hf (by simp [field])
theorem referralTimeout (tag : Fin 256) : Statement (.referralTimeout tag) := fun _ _ hf => absurd hf (by simp [field])
theorem gateTimeout (link : Fin 8) (sequence : Nat) : Statement (.gateTimeout link sequence) := fun _ _ hf => absurd hf (by simp [field])
theorem holdExpiry (site : Fin 512) (ref : Word32) : Statement (.holdExpiry site ref) := fun _ _ hf => absurd hf (by simp [field])
theorem dayRollover : Statement (.dayRollover) := fun _ _ hf => absurd hf (by simp [field])
theorem storedContentAltered (set : Fin 16384) (way : Fin 4) (content : AlteredContent) : Statement (.storedContentAltered set way content) := fun _ _ hf => absurd hf (by simp [field])
theorem serviceMessageTransmitted : Statement (.serviceMessageTransmitted) := fun _ _ hf => absurd hf (by simp [field])

end Sys2Proof.Laws.CodeFault
end

