-- ==== Sys2Proof/Machine/Frames.lean ====
section
/-! DEFINITION. The frames that leave the part, byte by byte (spec 12 R190 to R192). Sizes, codes, presence bytes and orders that the
spec does not give are the model's choice: each is marked DESIGN CHOICE where it is settled and listed in notes/assumptions/9. -/

namespace Sys2Proof.Machine

/-! ### Fields -/

def flagByte (b : Bool) : Byte := if b then 1#8 else 0#8

/-- A list: a 1-byte count, then the items in order. -/
def listBytes {α : Type} (f : α → List Byte) (xs : List α) : List Byte := toBytes 1 xs.length ++ xs.flatMap f

/-- An optional field: a yes/no presence field, then the field. -/
def optionBytes {α : Type} (f : α → List Byte) : Option α → List Byte
  | none => [0#8]
  | some x => [1#8] ++ f x

/-- A number of entries, holds, ways, records or approvals: 4 bytes (DESIGN CHOICE, notes/assumptions/9: R192 gives such a count no size).
-/
def countBytes (n : Nat) : List Byte := toBytes 4 n

def cardBytes (c : Nat) : List Byte := bytes64 (bcdOfCard c)

def readingBytes (r : Reading) : List Byte := toBytes 2 r.day ++ toBytes 4 r.time

/-- A card's unposted count, the fault record's count, a counter: 2 bytes (DESIGN CHOICE, notes/assumptions/9: R192 gives them no size).
-/
def shortBytes (n : Nat) : List Byte := toBytes 2 n

def counterBytes (c : Counter) : List Byte := shortBytes c.value ++ [flagByte c.overflow]

def rangeBytes (r : Range) : List Byte := cardBytes r.first ++ toBytes 8 r.count

/-- A signed 4-byte field, two's complement. -/
def signedBytes (n : Int) : List Byte := bytes32 (BitVec.ofInt 32 n)

/-- R192: the 23 bytes of a record. -/
def recordBytes (d : CardData) : List Byte :=
  encodeCard
    { card := bcdOfCard d.card, status := if d.status = .blocked then 1#8 else 0#8, core := BitVec.ofNat 32 d.core,
      bonus := BitVec.ofNat 32 d.bonus, expiryPresent := flagByte d.expiry.isSome, expiryDay := BitVec.ofNat 16 (d.expiry.getD 0),
      uses := BitVec.ofNat 8 d.uses, stamp := BitVec.ofNat 16 d.stamp }

/-! ### Site links (R191) -/

def Decision.code : Decision → Byte
  | .approved => 0#8
  | .partly => 1#8
  | .declined => 2#8

/-- R191: the flags, TRAINING lowest. -/
def TillReply.flags (r : TillReply) : Byte :=
  (flagByte r.training) ||| (flagByte r.standIn <<< 1) ||| (flagByte r.hostDecided <<< 2) ||| (flagByte r.free.isSome <<< 3)

/-- R191: the fields of a till reply as they are sent. -/
def TillReply.wire (r : TillReply) : ReplyWire :=
  { lane := r.lane, kind := r.kind, outcome := r.outcome.code,
    reason := match r.reason with
      | some x => BitVec.ofNat 8 x.code
      | none => 0#8,
    flags := r.flags, approved := BitVec.ofNat 32 r.approved, bonus := BitVec.ofNat 32 r.bonus, core := BitVec.ofNat 32 r.core,
    free := BitVec.ofNat 32 (r.free.getD 0), ref := r.ref, shift := BitVec.ofNat 16 r.report.shift,
    reported := BitVec.ofNat 16 r.report.reported, debitTotal := BitVec.ofNat 32 r.report.debitTotal,
    creditTotal := BitVec.ofNat 32 r.report.creditTotal, debitCount := BitVec.ofNat 16 r.report.debitCount,
    creditCount := BitVec.ofNat 16 r.report.creditCount, overflow := flagByte r.report.overflow }

/-- R191: the 42-byte body of a TILL-REPLY. -/
def TillReply.bytes (r : TillReply) : List Byte := encodeReply r.wire

/-- R190, R191: the frame of what leaves on a site link. -/
def SiteOut.frame : SiteOut → List Byte
  | .tillReply r => frameOf 32#16 r.bytes
  | .linkAccept l a b limit => frameOf 33#16 (toBytes 1 l ++ toBytes 2 a ++ toBytes 2 b ++ toBytes 2 limit)
  | .linkReject byIdentity => frameOf 34#16 [if byIdentity then 1#8 else 2#8]

/-! ### The service link (R192) -/

def JournalKind.code : JournalKind → Byte
  | .debit => 0#8
  | .capture => 1#8
  | .reload => 2#8
  | .reversal => 3#8
  | .standIn => 4#8
  | .undo => 5#8
  | .forfeit => 6#8
  | .adjust => 7#8

/-- R192: the presence bits of a journal record. -/
def JournalRecord.presence (r : JournalRecord) : Byte :=
  (flagByte r.origin.isSome) ||| (flagByte r.forfeited.isSome <<< 1) ||| (flagByte r.undone.isSome <<< 2)

/-- R192: the till fields of a record, 0 when absent. -/
def originBytes : Option Origin → List Byte
  | some o => toBytes 2 o.site ++ toBytes 2 o.till ++ bytes32 o.ref
  | none => toBytes 8 0

/-- R192: the 50-byte body of JOURNAL. -/
def JournalRecord.bytes (r : JournalRecord) (posted : Nat) : List Byte :=
  toBytes 4 r.sequence ++ bytes8 r.kind.code ++ cardBytes r.card ++ bytes8 r.presence ++ originBytes r.origin ++
    signedBytes r.bonusDelta ++ signedBytes r.coreDelta ++ toBytes 4 (r.forfeited.getD 0) ++ toBytes 4 (r.undone.getD 0) ++
    toBytes 2 r.date ++ readingBytes r.instant ++ toBytes 4 posted

/-- R192: the code of a mode, in the order of the mode table, FLUSHING its fifth (DEDUCED, notes/assumptions/9). -/
def DirMode.code : DirMode → Byte
  | .off => 0#8
  | .warming => 1#8
  | .normal => 2#8
  | .frozen => 3#8
  | .flushing _ => 4#8

def FlushTarget.code : FlushTarget → Byte
  | .off => 0#8
  | .warming => 1#8

def DirMode.target? : DirMode → Option FlushTarget
  | .flushing t => some t
  | _ => none

/-- The mode, and the flush target when FLUSHING. -/
def modeBytes (m : DirMode) : List Byte := [m.code] ++ optionBytes (fun t => [FlushTarget.code t]) m.target?

/-- INACTIVE 0, ACTIVE 1 (DESIGN CHOICE, notes/assumptions/9: the spec gives a program's state no code). -/
def ProgramState.code : ProgramState → Byte
  | .inactive => 0#8
  | .active => 1#8

/-- R189: "its state, range and lock flag", for each of the 32 programs in the order of their numbers. The item holds no number. -/
def programBytes (p : ProgramReport) : List Byte := [p.state.code] ++ rangeBytes p.range ++ [flagByte p.locked]

/-- R39: an overlapping program "as its number and range". -/
def overlapBytes (p : ProgramReport) : List Byte := toBytes 1 p.number ++ rangeBytes p.range

def limitsBytes (x : Limits) : List Byte := toBytes 4 x.hostAnswer ++ toBytes 4 x.gate ++ toBytes 4 x.presence

/-- The code that names a field (notes/assumptions/8). -/
def fieldByte (f : Field) : Byte := Config.fieldCode f.ctorIdx

/-- R25: a way of the SET form. What only some states report is an optional field; the states are coded INVALID 0, RESERVED 1, VALID 2 and
the way takes 1 byte (DESIGN CHOICE, notes/assumptions/9). -/
def wayReportBytes (w : WayReport) : List Byte :=
  toBytes 1 w.way ++ toBytes 1 w.state ++ optionBytes cardBytes w.card ++ optionBytes shortBytes w.unposted ++
    optionBytes (fun b => [flagByte b]) w.pinned

/-- R25: the CARD form after the card's set, the way before the state as R25 names them. The report of a card that is in a way is an
optional field, absent for a card that is not resident (DESIGN CHOICE, notes/assumptions/9). The fields of the record are sent as the
23-byte card record, where an absent bonus expiry day takes 2 bytes of 0: R192 gives that layout to CARD-DATA, REFERRAL-ANSWER, LOAD and
UNLOAD and none to this form (DESIGN CHOICE, notes/assumptions/9). -/
def cardReportBytes : CardReport → List Byte
  | .notResident => [0#8]
  | .reserved way => [1#8] ++ toBytes 1 way ++ [1#8]
  | .valid way d unposted pinned holds =>
    [1#8] ++ toBytes 1 way ++ [2#8] ++ recordBytes d ++ shortBytes unposted ++ [flagByte pinned] ++ countBytes holds

def faultBytes (f : FaultRecord) : List Byte :=
  optionBytes (fun x => cardBytes x.card ++ toBytes 2 x.set ++ toBytes 1 x.way) f.latched ++ shortBytes f.count ++ [flagByte f.overflow]

/-- STANDBY 0, SERVING 1 (DESIGN CHOICE, notes/assumptions/9: the spec gives the part state no code). -/
def PartState.code : PartState → Byte
  | .standby => 0#8
  | .serving => 1#8

/-- DISABLED 0, LISTENING 1, UP 2 (DESIGN CHOICE, notes/assumptions/9: the spec gives a link's state no code). -/
def LinkState.code : LinkState → Byte
  | .disabled => 0#8
  | .listening => 1#8
  | .up => 2#8

def linkReportBytes (x : LinkReport) : List Byte :=
  [x.state.code] ++ [flagByte x.enabled] ++ bytes32 x.expected ++ optionBytes bytes32 x.session ++ optionBytes bytes16 x.lanes ++
    toBytes 2 x.windowA ++ toBytes 2 x.windowB ++ countBytes x.inbound ++ countBytes x.reserved ++ countBytes x.gated ++
    countBytes x.ready

/-- R189: the data of READ-STATUS, in the order of its table. The programs and the links are lists, each with its count; the event enables
are one set, as in SET-NOTICES; the oldest sequence held is an optional field, absent when the queue is empty (DESIGN CHOICE,
notes/assumptions/9). -/
def statusBytes (x : StatusReport) : List Byte :=
  [x.part.code] ++ limitsBytes x.limits ++ [flagByte x.routine] ++ [flagByte x.exceptional] ++
    bytes16 x.enables ++ readingBytes x.reading ++ toBytes 1 x.cutover ++ toBytes 2 x.date ++ [flagByte x.notSet] ++
    listBytes programBytes x.programs ++ modeBytes x.mode ++ countBytes x.valid ++ countBytes x.reserved ++ countBytes x.pinned ++
    countBytes x.holds ++ countBytes x.notes ++ countBytes x.fetches ++ countBytes x.referrals ++ countBytes x.waitingPost ++
    countBytes x.records ++ optionBytes (toBytes 4) x.oldest ++ toBytes 4 x.nextSeq ++ toBytes 4 x.highestSent ++
    countBytes x.undoSlots ++ [flagByte x.highArmed] ++ [flagByte x.refusing] ++ countBytes x.exposures ++
    listBytes linkReportBytes x.links

/-- The data of a RESULT, as each command's entry gives it. DESIGN CHOICE, notes/assumptions/9: a CARD-EVICT that finds its card not
resident (R19) reports it in one byte 0, and one that drops the way has no data; the eleven pending flags of READ-EVENTS (R187) are one
set of 2 bytes, laid out as the set of SET-NOTICES; the ranges of SUMMARY, the ways of SET and the links of READ-COUNTERS stand one after
the other with no count; the DONE of SET-LIMITS carries no list of names, and its DONE-CLAMPED carries the list of the limits that were
clamped before the three limits (R183). -/
def ResultData.bytes : ResultData → List Byte
  | .none => []
  | .listening n => countBytes n
  | .engineReset undone abandoned undelivered holds ways requests =>
    countBytes undone ++ countBytes abandoned ++ countBytes undelivered ++ countBytes holds ++ countBytes ways ++ countBytes requests
  | .limits x [] => limitsBytes x
  | .limits x names => listBytes (fun f => [fieldByte f]) names ++ limitsBytes x
  | .clock reading date rollover expired => readingBytes reading ++ toBytes 2 date ++ [flagByte rollover] ++ countBytes expired
  | .probe range programs passRanges =>
    rangeBytes range ++ listBytes overlapBytes programs ++
      listBytes (fun p => toBytes 1 p.1 ++ rangeBytes p.2) passRanges
  | .notResident => [0#8]
  | .record d unposted => recordBytes d ++ shortBytes unposted
  | .summary mode valid reserved pinned ranges =>
    modeBytes mode ++ countBytes valid ++ countBytes reserved ++ countBytes pinned ++ ranges.flatMap rangeBytes
  | .card n report => toBytes 2 n ++ cardReportBytes report
  | .set ways => ways.flatMap wayReportBytes
  | .fault f => faultBytes f
  | .notices routine exceptional enables => [flagByte routine] ++ [flagByte exceptional] ++ bytes16 enables
  | .events pending => bytes16 pending
  | .counters part links =>
    counterBytes part.late ++ counterBytes part.standIn ++ counterBytes part.checkFault ++ counterBytes part.badPosted ++
      links.flatMap (fun x => counterBytes x.dropped ++ counterBytes x.badFrame ++ counterBytes x.rejected)
  | .status x => statusBytes x

/-- R192: the code of a refusal's reason, 1 to 14 in the order of the reason table. -/
def RefuseReason.code (r : RefuseReason) : Byte := BitVec.ofNat 8 (r.ctorIdx + 1)

/-- R192: the status, the reason and the data of a RESULT. -/
def ResultBody.bytes : ResultBody → List Byte
  | .done d => [0#8, 0#8] ++ d.bytes
  | .doneClamped d => [1#8, 0#8] ++ d.bytes
  | .refused r field programs =>
    [2#8, r.code] ++ (match field with
      | some f => [fieldByte f]
      | none => []) ++ (match programs with
      | [] => []
      | ps => listBytes (toBytes 1) ps)

/-- DEBIT 0, CAPTURE 1, STAND-IN 2 (DESIGN CHOICE, notes/assumptions/9: the spec gives the kind of a stack entry no code). -/
def StackKind.code : StackKind → Byte
  | .debit => 0#8
  | .capture => 1#8
  | .standIn => 2#8

/-- R77, R115: what completes a referred REVERSE, behind the till request; its journal sequence is an optional field. A request of another
kind has nothing there, and the completion has no presence byte (DESIGN CHOICE, notes/assumptions/9). -/
def reverseBytes : Option ReverseFields → List Byte
  | none => []
  | some x => cardBytes x.card ++ [x.kind.code] ++ toBytes 4 x.bonus ++ toBytes 4 x.core ++ optionBytes (toBytes 4) x.sequence

/-- R185: the contents of a NOTICE. The spec gives these items no codes, and the model gives them (DESIGN CHOICE, notes/assumptions/9):
the source of a DAY-ROLLOVER, clock 0, TIME-SET 1; the cause of a LINK-LOST, PRESENCE 0, HELLO 1; the reason of a HELLO-REJECTED, IDENTITY
1, LEVEL 2; the kind of a HOST-TIMEOUT, FETCH 0, REFERRAL 1, and for a FETCH WAITING-POST 0, SENT 1; of a CHECK-FAULT, overflow 0, latched
1. The card of a HOST-TIMEOUT is an optional field, and the stand-in count of a STAND-IN takes the 4 bytes of a count. The kind in a
JOURNAL-FULL is the 2-byte kind code of the message, for a till request as for a command. -/
def NoticeData.bytes : NoticeData → List Byte
  | .linkUp l session => toBytes 1 l ++ bytes32 session
  | .dayRollover date byTimeSet entries exposures =>
    toBytes 2 date ++ [flagByte byTimeSet] ++ countBytes entries ++ countBytes exposures
  | .flushDone reached => [reached.code]
  | .lateAnswer kind tag gen => bytes16 kind ++ toBytes 1 tag ++ toBytes 2 gen
  | .linkLost l byHello undone abandoned undelivered =>
    toBytes 1 l ++ [flagByte byHello] ++ countBytes undone ++ countBytes abandoned ++ countBytes undelivered
  | .helloRejected l byIdentity identity level =>
    toBytes 1 l ++ [if byIdentity then 1#8 else 2#8] ++ bytes32 identity ++ bytes8 level
  | .journalHigh records reserved oldest highestSent =>
    countBytes records ++ countBytes reserved ++ toBytes 4 oldest ++ toBytes 4 highestSent
  | .journalFull kind records reserved => bytes16 kind ++ countBytes records ++ countBytes reserved
  | .hostTimeout tag fetch card sent =>
    toBytes 1 tag ++ [flagByte !fetch] ++ optionBytes cardBytes card ++ (if fetch then [flagByte sent] else [])
  | .standIn card amount exposure count sequence =>
    cardBytes card ++ toBytes 4 amount ++ toBytes 4 exposure ++ countBytes count ++ toBytes 4 sequence
  | .checkFault card set way latched count =>
    cardBytes card ++ toBytes 2 set ++ toBytes 1 way ++ [flagByte latched] ++ shortBytes count

/-- R190, R192: the frame of a message to the host. An answer's RESULT has no reference, and is sent with 0 in its place. -/
def HostMsg.frame : HostMsg → List Byte
  | .result kind ref body => frameOf 384#16 (bytes16 kind ++ bytes32 ref ++ body.bytes)
  | .answerRefused kind tagGen =>
    frameOf 384#16 (bytes16 kind ++ bytes32 0#32 ++ [2#8, 1#8] ++ (match tagGen with
      | some (tag, gen) => toBytes 1 tag ++ toBytes 2 gen
      | none => []))
  | .cardFetch tag gen card => frameOf 385#16 (toBytes 1 tag ++ toBytes 2 gen ++ cardBytes card)
  | .referral tag gen request reverse till site =>
    frameOf 386#16 (toBytes 1 tag ++ toBytes 2 gen ++ encodeTillMsg request ++ reverseBytes reverse ++ toBytes 2 till ++ toBytes 2 site)
  | .undelivered tag gen reply => frameOf 387#16 (toBytes 1 tag ++ toBytes 2 gen ++ reply.bytes)
  | .journal record posted => frameOf 388#16 (record.bytes posted)
  | .notice event reading data => frameOf 389#16 (toBytes 1 event.ctorIdx ++ readingBytes reading ++ data.bytes)

end Sys2Proof.Machine
end

