-- ==== Sys2Proof/Tests/Slice0.lean ====
section
/-! SUPPORT. Tests of the model: an ill-formed term for each check of WellFormed, frames written out from the spec's layouts, worked
examples of the spec, and a state that meets the hypotheses of each statement. -/

namespace Sys2Proof.Tests

open Sys2Proof.Machine

-- Each kernel evaluation waits for every declaration before it: one at a time here, where each theorem's thread would wait.
set_option Elab.async false

/-! ### WellFormed: an ill-formed term for each check -/

theorem test_ill_formed_codes :
    [Instr.resetEngine (.badCode 0 .form), .start (.badCode 0 .form), .setLimits (.badCode 0 .form), .timeSet (.badCode 0 .form),
     .programSet (.badCode 0 .form), .programActivate (.badCode 0 .form), .programDeactivate (.badCode 0 .form),
     .programLock (.badCode 0 .form), .rangeProbe (.badCode 0 .form), .passRangeSet (.badCode 0 .form),
     .directoryMode (.badCode 0 .form), .cardEvict (.badCode 0 .form), .cardAdjustLoad (.badCode 0 .action),
     .cardAdjustUnload (.badCode 0 .form), .cardAdjustSetBonus (.badCode 0 .form), .cardAdjustBlock (.badCode 0 .form),
     .cardAdjustUnblock (.badCode 0 .form), .directoryReadSummary (.badCode 0 .action), .directoryReadCard (.badCode 0 .form),
     .directoryReadSet (.badCode 0 .form), .readFault (.badCode 0 .form), .siteSet (.badCode 0 .form),
     .sliceAssign (.badCode 0 .form), .windowSet (.badCode 0 .form), .linkControlEnable (.badCode 0 .form),
     .linkControlDisable (.badCode 0 .action), .linkControlReset (.badCode 0 .action),
     .linkControlSetExpectedIdentity (.badCode 0 .action), .setNotices (.badCode 0 .form), .readEvents (.badCode 0 .form),
     .readCounters (.badCode 0 .form), .readStatus (.badCode 0 .form)].all (fun i => !wellFormed i) = true := by decide

theorem test_ill_formed_values :
    [Instr.unknownCommand (.body 256#16 0), .unknownCommand (.body 278#16 0), .unknownCommand (.body 320#16 0),
     .unknownCommand (.body 323#16 0), .tillMessageArrival 0 (.good ⟨.unknown 9#16, 0, 0, 0, 0, 0, 0⟩),
     .tillMessageArrival 0 (.good ⟨.unknown 16#16, 0, 0, 0, 0, 0, 0⟩), .tillMessageArrival 0 (.good ⟨.unknown 17#16, 0, 0, 0, 0, 0, 0⟩),
     .gateTimeout 0 0, .gateTimeout 0 4294967296, .holdExpiry 0 0#32,
     .storedContentAltered 0 0 ⟨⟨10000000000000000, .active, 0, 0, none, 0, 0⟩, 0, 0#32⟩,
     .storedContentAltered 0 0 ⟨⟨0, .active, 4294967296, 0, none, 0, 0⟩, 0, 0#32⟩,
     .storedContentAltered 0 0 ⟨⟨0, .active, 0, 4294967296, none, 0, 0⟩, 0, 0#32⟩,
     .storedContentAltered 0 0 ⟨⟨0, .active, 0, 0, none, 256, 0⟩, 0, 0#32⟩,
     .storedContentAltered 0 0 ⟨⟨0, .active, 0, 0, none, 0, 65536⟩, 0, 0#32⟩,
     .storedContentAltered 0 0 ⟨⟨0, .active, 0, 0, some 65536, 0, 0⟩, 0, 0#32⟩].all
      (fun i => !wellFormed i) = true := by decide

/-! ### Frames -/

/-- R190: "the check over the nine bytes whose hexadecimal values are 31 to 39, in that order, is the hexadecimal value CBF43926". -/
theorem test_crc : crc32 [0x31, 0x32, 0x33, 0x34, 0x35, 0x36, 0x37, 0x38, 0x39] = 0xCBF43926#32 := by
  decide +kernel

/-- The bytes of a frame's check, most significant first. -/
def checked (bs : List Byte) : List Byte := bs ++ toBytes 4 (crc32 bs).toNat

/-- Spec 12, the worked example: "The frame carries length 28, kind 4, lane 3, allow-partial 0 and card bytes 60 42 11 80 00 31 55 20. It
also carries amount 1,250, till reference 7401 and hold reference 0". -/
theorem test_redeem_frame :
    decodeSiteFrame 4 (checked [0, 28, 0, 4, 3, 0, 0x60, 0x42, 0x11, 0x80, 0x00, 0x31, 0x55, 0x20, 0, 0, 0x04, 0xE2, 0, 0, 0x1C, 0xE9,
      0, 0, 0, 0]) =
      .tillMessageArrival 4 (.good ⟨.redeem, 3#8, 0#8, 0x6042118000315520#64, 1250#32, 7401#32, 0#32⟩) := by decide +kernel

/-- R191, the example's last sentence: a body of 21 bytes is a bad frame. -/
theorem test_short_redeem_frame :
    decodeSiteFrame 4 (checked [0, 27, 0, 4, 3, 0, 0x60, 0x42, 0x11, 0x80, 0x00, 0x31, 0x55, 0x20, 0, 0, 0x04, 0xE2, 0, 0, 0x1C, 0xE9,
      0, 0, 0]) = .tillMessageArrival 4 .damaged := by decide +kernel

/-- R190, R191: a LINK-HELLO of identity 77, level 1, lanes 0 and 15; a frame with one bit of it changed. -/
theorem test_hello_frame :
    decodeSiteFrame 0 (checked [0, 13, 0, 16, 0, 0, 0, 77, 1, 0x80, 0x01]) = .linkHello 0 (.good ⟨77#32, 1#8, 0x8001#16⟩) ∧
    decodeSiteFrame 0 ((checked [0, 13, 0, 16, 0, 0, 0, 77, 1, 0x80, 0x01]).set 7 76) = .tillMessageArrival 0 .damaged := by
  decide +kernel

/-- R190, R192: frames of the service link, written out field by field. -/
theorem test_service_frames :
    decodeServiceFrame (checked [0, 10, 1, 0, 0, 0, 0, 9]) = .start (.body 9#32 ()) ∧
    decodeServiceFrame (checked [0, 22, 1, 2, 0, 0, 0, 9, 0, 0, 1, 0x90, 0, 0, 0, 5, 0, 0, 0x27, 0x10]) =
      .setLimits (.body 9#32 ⟨400#32, 5#32, 10000#32⟩) ∧
    decodeServiceFrame (checked [0, 17, 1, 3, 0, 0, 0, 9, 3, 44, 0, 0, 0, 7, 0]) = .timeSet (.body 9#32 ⟨812#16, 7#32, .absent⟩) ∧
    decodeServiceFrame (checked [0, 18, 1, 3, 0, 0, 0, 9, 3, 44, 0, 0, 0, 7, 1, 5]) =
      .timeSet (.body 9#32 ⟨812#16, 7#32, .present 5#8⟩) ∧
    decodeServiceFrame (checked [0, 11, 1, 6, 0, 0, 0, 9, 31]) = .programDeactivate (.body 9#32 31#8) ∧
    decodeServiceFrame (checked [0, 19, 1, 12, 0, 0, 0, 9, 3, 0x60, 0x42, 0x11, 0x80, 0x00, 0x31, 0x55, 0x20]) =
      .cardAdjustBlock (.body 9#32 0x6042118000315520#64) ∧
    decodeServiceFrame (checked [0, 13, 1, 13, 0, 0, 0, 9, 2, 0x3F, 0xFF]) = .directoryReadSet (.body 9#32 16383#16) ∧
    decodeServiceFrame (checked [0, 14, 1, 16, 0, 0, 0, 9, 1, 44, 255, 255]) = .sliceAssign (.body 9#32 ⟨300#16, 65535#16⟩) ∧
    decodeServiceFrame (checked [0, 12, 1, 18, 0, 0, 0, 9, 7, 2]) = .linkControlReset (.body 9#32 7#8) ∧
    decodeServiceFrame (checked [0, 12, 1, 18, 0, 0, 0, 9, 8, 4]) = .linkControlEnable (.badCode 9#32 .linkNumber) ∧
    decodeServiceFrame (checked [0, 9, 1, 65, 200, 0, 17]) = .noSuchCard (.body 200#8 17#16 ()) ∧
    decodeServiceFrame (checked [0, 10, 1, 67, 0, 0, 0, 17]) = .posted (.body 17#32) ∧
    decodeServiceFrame (checked [0, 9, 1, 67, 0, 0, 17]) = .posted .wrongLength ∧
    decodeServiceFrame (checked [0, 10, 1, 128, 0, 0, 0, 9]) = .unknownCommand (.body 384#16 9#32) ∧
    decodeServiceFrame [0, 6, 1, 0, 0, 0, 0, 0] = .unknownCommand .badCheck := by decide +kernel

/-- R192: the card record of a CARD-DATA; the expiry day is not read when absent. -/
theorem test_card_data_frame :
    (match decodeServiceFrame (checked [0, 32, 1, 64, 5, 0, 3, 0x60, 0x42, 0x11, 0x80, 0x00, 0x31, 0x55, 0x20, 1, 0, 0, 0x1F, 0x40, 0, 0,
      0, 0, 0, 3, 62, 6, 3, 44]) with
    | .cardData (.body tag gen w) => some (tag, gen, readCard w)
    | _ => none) = some (5#8, 3#16, some ⟨6042118000315520, .blocked, 8000, 0, none, 6, 812⟩) := by decide +kernel

/-! ### Arithmetic, by hand from the rules -/

/-- R48, R49: 1,000 under a cap of 50 percent with 300 of free bonus, then with 400 of core alone, which falls short. -/
theorem test_debit :
    debitFor 1000 50 300 5000 false = some ⟨1000, 300, 700, false⟩ ∧ debitFor 1000 50 800 5000 false = some ⟨1000, 500, 500, false⟩ ∧
    debitFor 1000 50 300 400 false = none ∧ debitFor 1000 50 300 400 true = some ⟨700, 300, 400, true⟩ ∧
    debitFor 999 50 800 5000 false = some ⟨999, 499, 500, false⟩ := by decide

/-- R50: captures of a hold of 300 and 700 with a tolerance of 20 percent. -/
theorem test_capture :
    captureFor 300 700 20 250 0 = some ⟨250, 0, 0, false⟩ ∧ captureFor 300 700 20 1200 500 = some ⟨300, 700, 200, false⟩ ∧
    captureFor 300 700 20 1201 500 = none ∧ captureFor 300 700 20 1200 150 = some ⟨300, 700, 150, true⟩ := by decide

/-- R123: "4,294,967,295 is followed by 1". R102: "65,535 is followed by 0". -/
theorem test_wraps : nextSequence 4294967295 = 1 ∧ nextSequence 1 = 2 ∧ nextGeneration 65535 = 0 := by decide

/-- R171: the business date before and at the cutover, and on day 0. -/
theorem test_business_date :
    businessDateOf 4 ⟨812, 14399999⟩ = 811 ∧ businessDateOf 4 ⟨812, 14400000⟩ = 812 ∧ businessDateOf 4 ⟨0, 0⟩ = 0 := by decide

/-- R190: a half-byte above 9 makes a card number malformed. -/
theorem test_card_number :
    cardOfBcd 0x6042118000315520#64 = some 6042118000315520 ∧ cardOfBcd 0x604211800031552A#64 = none ∧
    bcdOfCard 6042118000315520 = 0x6042118000315520#64 := by decide +kernel

/-! ### A small part in service -/

/-- The card of the tests, in set 5, and its number as it is sent. -/
def card : Nat := 1000000000016389
def wire : Word64 := 0x1000000000016389#64
def data : CardData := ⟨card, .active, 5000, 700, some 200, 0, 0⟩
def record : CardRecord := sealRecord data 0

/-- Program 0: every card number, half of a debit from bonus, stand-in up to 2,000. -/
def program : Program :=
  { Program.default with
    range := ⟨0, 10000000000000000⟩, state := .active
    limits := { Program.default.limits with bonusCap := 50, standInLimit := 2000, gating := .gated } }

/-- A message from lane 3. -/
def msg (k : TillKind) (amount : Nat) : TillMsg := ⟨k, 3#8, 0#8, wire, BitVec.ofNat 32 amount, 7#32, 9#32⟩

/-- Link 0 in session, its window A on `slice`. -/
def linkUp (slice : Nat) (inbound : List TillMsg) (replies : List ReplyEntry) : Link :=
  { Link.default with
    state := .up, session := some 77#32, lanes := some 0xFFFF#16, presenceLimit := some 3000, presenceTimer := some 3000
    inbound := inbound, replies := replies, windowA := slice }

/-- A debit that till 19 may reverse. -/
def debit : StackEntry := ⟨0, 7#32, card, .debit, 300, 600, some 1, none, false⟩

/-- The set of the card, with the ways it lists. -/
def setWith (st : WayState) : DirSet := ⟨[⟨0, .invalid⟩, ⟨1, .invalid⟩, ⟨2, .invalid⟩, ⟨3, st⟩]⟩

/-- The part SERVING in NORMAL at noon of day 100: slice 2 is site 5's, till 19 is OPEN in shift 1, the card is resident. -/
def part (st : WayState) (link : Link) : State :=
  { State.reset with
    part := .serving
    clock := ⟨⟨100, 43200000⟩, 4, false⟩
    dirMode := .normal
    programs := Table.empty.set Program.default 0 program
    siteIds := Table.empty.set 0 5 371
    slices := Table.empty.set none 2 (some 5)
    tills := Table.empty.set Till.default 19 ⟨true, 1, 900, 0, 1, 0, false, [debit]⟩
    dir := Table.empty.set DirSet.default (setOf card) (setWith st)
    links := Table.empty.set Link.default 0 link
    nextStay := 1, nextEntry := 1 }

theorem card_sent : cardOfBcd wire = some card := by decide +kernel

/-- The part with the record resident and a message at the front of link 0's inbound queue. -/
def asking (m : TillMsg) : State := part (.valid record 0) (linkUp 2 [m] [])

def noted : NotedTill := ⟨19, some 5, 1⟩

/-! ### One step of a few commands, with figures of the spec's worked examples -/

/-- Spec 02, the worked example: program 7's range probed against programs 0 and 3 and pass-through range 1. -/
theorem test_range_probe :
    let p (first count : Nat) (st : ProgramState) (locked : Bool) : Program :=
      { Program.default with range := ⟨first, count⟩, state := st, locked := locked }
    let s : State := { State.reset with
      programs := ((Table.empty.set Program.default 0 (p 6042118000000000 100000000 .active true)).set Program.default 3
        (p 6042119000000000 1000000 .active false)).set Program.default 7 (p 6042118050000000 100000 .inactive false)
      passRanges := Table.empty.set ⟨0, 0⟩ 1 ⟨6042118050000000, 10000⟩ }
    (match exec (.rangeProbe (.body 1#32 7#8)) s with
     | .next t => t.out
     | _ => []) = [.result Kind.rangeProbe 1#32 (.done (.probe ⟨6042118050000000, 100000⟩ [⟨0, ⟨6042118000000000, 100000000⟩, .active, true⟩]
       [(1, ⟨6042118050000000, 10000⟩)]))] ∧
    (match exec (.programActivate (.body 1#32 7#8)) s with
     | .next t => t.out
     | _ => []) = [.result Kind.programActivate 1#32 (.refused .overlap none [0])] ∧
    (match exec (.programDeactivate (.body 1#32 0#8)) s with
     | .next t => t.out
     | _ => []) = [.result Kind.programDeactivate 1#32 (.refused .locked none [])] := by decide +kernel

/-- Spec 08, the worked example: lane 3 under a window on slice 300 reaches till 2,403, lane 12 under slice 301 till 2,412. -/
theorem test_lanes : tillOf 300 3 = 2403 ∧ tillOf 301 12 = 2412 ∧ tillOf 300 11 = 2403 := by decide

/-- R7, R102: a REDEEM for a card in no way is asked of the host in the lowest tag, generation 1, with way 0 reserved. -/
theorem test_fetch :
    (match exec (.redeem 0) (part .invalid (linkUp 2 [msg .redeem 900] [])) with
     | .next t => (t.out, t.findWay card, t.journal.records)
     | _ => ([], none, [])) = ([.cardFetch 0 1 card], some ⟨0, .reserved card⟩, []) := by decide +kernel

/-- R4: ways 2 and 0 fell one after the other in one event; they held the order 0, 2 before it. -/
theorem test_fall_order :
    let before : DirSet := ⟨[⟨1, .invalid⟩, ⟨0, .reserved 5⟩, ⟨3, .reserved 16389⟩, ⟨2, .reserved 32773⟩]⟩
    let after : DirSet := ⟨[⟨2, .invalid⟩, ⟨0, .invalid⟩, ⟨1, .invalid⟩, ⟨3, .reserved 16389⟩]⟩
    before.inFallOrder after = ⟨[⟨0, .invalid⟩, ⟨2, .invalid⟩, ⟨1, .invalid⟩, ⟨3, .reserved 16389⟩]⟩ := by decide

/-- R84, R89, R96: a hold freed by expiry is too late for a bound request while its note stands and after a later HOLD of its key, and
not found once the note has been discarded at the far end. -/
theorem test_expired_hold :
    let s : State := { State.reset with notes := [⟨5, 9#32, 0⟩] }
    s.checkHold 0 = .tooLate ∧ (s.dropNotes 5 9#32).notes = [] ∧ (s.dropNotes 5 9#32).checkHold 0 = .tooLate ∧
    ({ s with notes := [] } : State).checkHold 0 = .notFound := by decide

/-- R190: two frames back to back, then a frame of which a byte is still to come. -/
theorem test_stream :
    serviceCommands (checked [0, 10, 1, 0, 0, 0, 0, 9] ++ [0, 2, 7, 7] ++ [0, 10, 1]) =
      ([.start (.body 9#32 ()), .unknownCommand .badCheck], [0, 10, 1]) := by decide +kernel

/-- R141: a lane that reaches an unassigned slice is declined NOT-MAPPED. -/
theorem test_not_mapped :
    (match exec (.enquiry 0) (part (.valid record 0) (linkUp 3 [msg .enquiry 0] [])) with
     | .next t => (t.link 0).replies.map (fun e => match e.state with
        | .ready r _ _ => r.reason
        | _ => none)
     | _ => []) = [some .notMapped] := by decide +kernel

/-! ### A state that meets the hypotheses of each statement, clause by clause -/

theorem canonical_part (m : TillMsg) : TablesCanonical (asking m) := by
  refine ⟨?_, ?_, ?_, ?_, ?_, ?_, ?_, ?_, ?_, ?_, ?_⟩ <;> rfl

theorem setWith_inOrder (st : WayState) (h : ∀ c ∈ st.card, setOf c = 5) : (setWith st).inOrder 5 := by
  refine ⟨List.Perm.refl _, ?_, ?_⟩
  · cases st <;> simp [setWith, WayState.card]
  · intro w hw c hc
    simp only [setWith, List.mem_cons, List.not_mem_nil, or_false] at hw
    rcases hw with rfl | rfl | rfl | rfl
    · exact absurd hc (by simp [WayState.card])
    · exact absurd hc (by simp [WayState.card])
    · exact absurd hc (by simp [WayState.card])
    · exact h c hc

/-- Every set is in order when one set of the directory holds one way that is. -/
theorem dir_inOrder (st : WayState) (h : ∀ c ∈ st.card, setOf c = 5) {s : State}
    (hs : s.dir = Table.empty.set DirSet.default (setOf card) (setWith st)) (n : Nat) : (s.dirSet n).inOrder n := by
  have hn : s.dirSet n = if n = 5 then setWith st else DirSet.default := by
    rw [State.dirSet, hs]; exact Table.get_set DirSet.default Table.empty 5 n (setWith st)
  rw [hn]
  split
  · next hn => subst hn; exact setWith_inOrder st h
  · exact ⟨by decide, by decide, by simp [DirSet.default, WayState.card]⟩

theorem valid_card : ∀ c ∈ (WayState.valid record 0).card, setOf c = 5 := by decide

theorem taking (m : TillMsg) : (asking m).Taking 0 m [] := ⟨rfl, rfl, Nat.zero_lt_succ _, fun _ h => (List.not_mem_nil h).elim⟩

theorem mapped (m : TillMsg) : (asking m).resolve 0 3 = some noted := by
  have h1 : ((asking m).link 0).window 3 = 2 := rfl
  have h2 : ((asking m).link 0).announced 3 = true := (by decide : (decide (3 < 16) && (0xFFFF#16).getLsbD 3) = true)
  have h3 : (asking m).slice 2 = some 5 := rfl
  have h4 : ((asking m).till (tillOf 2 3)).shift = 1 := rfl
  simp only [State.resolve, h1, h2, h3, h4]
  rfl

theorem trading (k : TillKind) (amount : Nat) : (asking (msg k amount)).Trading 0 (msg k amount) [] noted :=
  ⟨taking _, mapped _, by decide, rfl⟩

/-- The test record is sealed with its check code, whatever that computes (R2). -/
theorem record_verifies : record.verifies = true := sealRecord_verifies data 0

theorem hit (m : TillMsg) : (asking m).Hit card record 0 :=
  ⟨⟨Or.inl rfl, rfl, record_verifies, dir_inOrder _ valid_card rfl 5, rfl⟩, rfl⟩

theorem adjustable (m : TillMsg) : (asking m).Adjustable card record 0 :=
  ⟨Or.inr (Or.inl rfl), rfl, rfl, record_verifies, dir_inOrder _ valid_card rfl 5, rfl⟩

/-- O1. -/
theorem witness_StepTakesTheFrontCommand :
    ({ State.reset with pending := [.dayRollover, .journalSend] } : State).pending = .dayRollover :: [.journalSend] := rfl

/-- The statements that ask for canonical tables. -/
theorem witness_EngineResetClearsTheEngineAndKeepsTheLayout : TablesCanonical (asking (msg .redeem 900)) := canonical_part _

theorem witness_StartPutsThePartIntoService :
    State.reset.clock.notSet = true ∧
    ((asking (msg .redeem 900)).clock.notSet = false ∧ (asking (msg .redeem 900)).part = .serving) ∧
    ({ State.reset with clock := ⟨⟨0, 0⟩, 0, false⟩ } : State).clock.notSet = false ∧
    ({ State.reset with clock := ⟨⟨0, 0⟩, 0, false⟩ } : State).part = .standby := ⟨rfl, ⟨rfl, rfl⟩, rfl, rfl⟩

theorem witness_LimitsAndNoticesAreSetAndRecordsReadOnce :
    (asking (msg .redeem 900)).links.wf Link.default = true ∧ yesNo 1#8 = some true ∧ yesNo 0#8 = some false ∧
    (2047#16).toNat < 2048 ∧ ¬ (2048#16).toNat < 2048 := ⟨rfl, by decide⟩

theorem witness_TimeSetIsTestedAndFirstSetsTheClock :
    86399999 < (86400000#32).toNat ∧ (86399999#32).toNat ≤ 86399999 ∧
    (∃ b, (WireOpt.present 24#8) = .present b ∧ 23 < b.toNat) ∧
    (∃ b, (WireOpt.present 23#8) = .present b ∧ 23 = b.toNat ∧ b.toNat ≤ 23) ∧
    State.reset.clock.notSet = true ∧ (asking (msg .redeem 900)).clock.notSet = false ∧
    (Clock.mk ⟨99, 86399999⟩ 4 false).businessDate < (asking (msg .redeem 900)).date :=
  ⟨by decide, by decide, ⟨24#8, rfl, by decide⟩, ⟨23#8, rfl, by decide, by decide⟩, rfl, rfl, by decide⟩

/-- A hold of 300 and 700 on the card, until 15:00 of day 100, as till 19's site holds it. -/
def hold : Hold := ⟨0, 5, 9#32, card, 300, 700, 20, ⟨100, 54000000⟩, .opened⟩

/-- The part with the hold live. -/
def holding (m : TillMsg) : State :=
  { asking m with holds := [hold], nextHold := 1, siteHolds := Table.empty.set 0 5 1 }

theorem witness_TimeSetMovesTheClockAndExpiresHolds :
    let s := holding (msg .complete 900)
    s.tills.wf Till.default = true ∧ s.clock.notSet = false ∧ (0#32).toNat ≤ 86399999 ∧
    (WireOpt.absent = (WireOpt.absent : WireOpt Byte) ∧ 4 = s.clock.cutover) ∧
    s.date ≤ (Clock.mk ⟨102, 0⟩ 4 false).businessDate ∧ s.date < (Clock.mk ⟨102, 0⟩ 4 false).businessDate ∧
    s.date = (Clock.mk ⟨101, 0⟩ 4 false).businessDate ∧
    (∃ h ∈ s.holds, h.state = .opened ∧ (Reading.mk 100 53999999).ms < h.expiry.ms ∧ ∀ k ∈ s.holds, k.id = h.id → k = h) := by
  refine ⟨rfl, rfl, by decide, ⟨rfl, rfl⟩, by decide, by decide, by decide, hold, by simp [holding], rfl, by decide, ?_⟩
  intro k hk _
  simpa [holding] using hk

/-- The part with the hold live, at most three timers running, and its link's presence timer at `presence`. -/
def heldWhile (presence : Nat) : State :=
  { holding (msg .complete 900) with
    links := Table.empty.set Link.default 0 { linkUp 2 [] [] with presenceTimer := some presence } }

theorem witness_HoldExpiryFreesTheHold :
    let s := heldWhile 10800001
    s.holdByKey 5 9#32 = some hold ∧ hold.state = .opened ∧ s.clock.notSet = false ∧ hold.expiry.ms ≤ lastReading.ms ∧
    TablesCanonical s ∧ hold.expiry.ms - s.now.ms = 10800000 ∧ s.quietFor 10800000 = true ∧ (heldWhile 10800000).quietFor 10800000 = false ∧
    (∀ k ∈ s.holds, k.state = .opened → k.id ≠ hold.id → s.now.ms < k.expiry.ms) ∧ (s.holds.filter (fun k => k.id = hold.id)).length = 1 := by
  refine ⟨rfl, rfl, rfl, by decide, ?_, by decide, by decide, by decide, ?_, rfl⟩
  · refine ⟨?_, ?_, ?_, ?_, ?_, ?_, ?_, ?_, ?_, ?_, ?_⟩ <;> rfl
  · intro k hk _ hne
    exact absurd (by simpa [heldWhile, holding] using hk : k = hold) (fun h => hne (by rw [h]))

theorem witness_DayRolloverEmptiesStacksAndExposures :
    let s : State := { asking (msg .redeem 900) with clock := ⟨⟨65535, 14399999⟩, 4, false⟩ }
    TimesValid s ∧ s.clock.notSet = false ∧ s.date < 65535 ∧ TablesCanonical s ∧
    (Reading.mk (s.date + 1) (s.clock.cutover * 3600000)).ms - s.clock.reading.ms = 1 ∧ s.quietFor 1 = true :=
  ⟨⟨by decide, by decide, by decide, by decide⟩, rfl, by decide, canonical_part _, by decide, by decide⟩

/-- A PROGRAM-SET with every field at a bound of its range. -/
def programFields (n : Byte) : ProgramFields :=
  ⟨n, 0x9999999999999999#64, 1#64, 100#32, 4320#16, 50#8, 100#8, 255#8, 50000#32, 1#8⟩

theorem witness_ProgramsAreSetDeactivatedAndLocked :
    let s : State := { asking (msg .redeem 900) with
      programs := (Table.empty.set Program.default 1 { program with locked := true }).set Program.default 31
        { program with range := ⟨9999999999999999, 1⟩ } }
    31 < (32#8).toNat ∧ (s.program 1).locked = true ∧ (s.program 31).locked = false ∧
    (¬ ∃ first g, GoodProgram { programFields 31#8 with tipTolerance := 51#8 } first g) ∧
    GoodProgram (programFields 31#8) 9999999999999999 .gated ∧ (s.program 31).state = .active ∧
    (s.program 31).range = ⟨9999999999999999, (programFields 31#8).count.toNat⟩ ∧
    (s.program 31).range ≠ ⟨9999999999999999, 0⟩ ∧ (s.program 30).state = .inactive := by
  refine ⟨by decide, rfl, rfl, ?_, ⟨by decide, by decide, by decide, by decide, by decide, by decide, by decide, by decide⟩, rfl, rfl,
    by decide, rfl⟩
  rintro ⟨first, g, h⟩
  exact absurd h.tip (by decide)

theorem witness_PassRangeSetRefusesRangesInUse :
    let s := asking (msg .redeem 900)
    TablesCanonical s ∧ (∀ n, (s.dirSet n).inOrder n) ∧ cardOfBcd 0x1000000000016000#64 = some 1000000000016000 ∧
    3 < (4#8).toNat ∧ (3#8).toNat ≤ 3 ∧
    (¬ ((999#64).toNat = 0 ∨ (999#64).toNat ∈ [1000, 10000, 100000, 1000000, 10000000, 100000000, 1000000000] ∧
      1000000000016000 % (999#64).toNat = 0)) ∧
    (1000 ∈ [1000, 10000, 100000, 1000000, 10000000, 100000000, 1000000000] ∧ 1000000000016000 % 1000 = 0) ∧
    (∃ card, (Range.mk 1000000000016000 1000).covers card = true ∧ ((s.findWay card).isSome = true ∨
      (∃ tag f, s.fetchAt tag = some f ∧ f.card = card) ∨ ∃ h ∈ s.holds, h.card = card)) ∧
    ¬ ∃ card, (Range.mk 1000000000016000 0).covers card = true ∧ ((s.findWay card).isSome = true ∨
      (∃ tag f, s.fetchAt tag = some f ∧ f.card = card) ∨ ∃ h ∈ s.holds, h.card = card) := by
  refine ⟨canonical_part _, dir_inOrder _ valid_card rfl, by decide +kernel, by decide, by decide, by decide, by decide, ?_, ?_⟩
  · exact ⟨card, by decide, Or.inl rfl⟩
  · rintro ⟨c, hc, -⟩
    simp only [Range.covers, Nat.add_zero, Bool.and_eq_true, decide_eq_true_eq] at hc
    omega

theorem witness_DirectoryModeChangesOrFlushes :
    let s := asking (msg .redeem 900)
    let f : State := { s with dirMode := .flushing .warming }
    s.dir.wf DirSet.default = true ∧ 3 < (4#8).toNat ∧ modeTarget 3#8 = some .frozen ∧ modeTarget 0#8 = some .off ∧
    s.dirMode = (ModeTarget.normal).mode ∧ (s.dirMode ≠ (ModeTarget.frozen).mode ∧ s.dirMode.isFlushing = false) ∧
    (ModeTarget.frozen).flush? = none ∧ f.dirMode.isFlushing = true ∧ (ModeTarget.off).flush? = some .off ∧
    (holding (msg .redeem 900)).holds ≠ [] ∧ s.holds = [] ∧ s.dirMode ≠ (ModeTarget.off).mode := by
  refine ⟨rfl, by decide, rfl, rfl, rfl, ⟨by decide, rfl⟩, rfl, rfl, rfl, by simp [holding], rfl, by decide⟩

/-- The part with so many undo slots reserved: at 4,094 the Journal Queue has room for new business, at 4,095 it has not. -/
def crowded (s : State) (reserved : Nat) (refusing : Bool) : State := { s with journal := ⟨[], 1, 0, reserved, true, refusing, 0⟩ }

/-- The part with nothing in the card's set but `st`, for a command. -/
def commanded (st : WayState) : State := part st (linkUp 2 [] [])

theorem witness_EvictAndUnloadEmptyTheWay :
    cardOfBcd wire = some card ∧ ((commanded (.valid record 0)).dirSet (setOf card)).inOrder (setOf card) ∧
    (commanded (.valid record 0)).dirMode.isFlushing = false ∧ (commanded .invalid).findWay card = none ∧
    (commanded (.reserved card)).findWay card = some ⟨3, .reserved card⟩ ∧
    (commanded (.valid record 0)).findWay card = some ⟨3, .valid record 0⟩ ∧ (commanded (.valid record 0)).pins record = false ∧
    (holding (msg .redeem 900)).pins record = true ∧ (asking (msg .redeem 900)).Adjustable card record 0 :=
  ⟨by decide +kernel, dir_inOrder _ valid_card rfl 5, rfl, rfl, rfl, rfl, rfl, rfl, adjustable _⟩

/-- The part with each way of the card's set reserved for another card. -/
def full : State :=
  { commanded .invalid with
    dir := Table.empty.set DirSet.default 5 (.mk [⟨0, .reserved 5⟩, ⟨1, .reserved 16389⟩, ⟨2, .reserved 32773⟩, ⟨3, .reserved 49157⟩]) }

/-- The card's record as it is sent. -/
def cardWire : CardWire := ⟨wire, 0#8, 5000#32, 700#32, 1#8, 200#16, 0#8, 0#16⟩

/-- The card's record after its check code was altered from outside. -/
def altered : CardRecord := { record with check := record.check + 1#32 }

theorem altered_fails : altered.verifies = false := by
  have h : record.check + 1#32 ≠ record.check := by
    intro h
    have := congrArg (fun x => x - record.check) h
    simp at this
  exact decide_eq_false h

/-- A record of the journal. -/
def journalled (n : Nat) : JournalRecord := ⟨n, .debit, card, none, -450, -450, none, none, 100, ⟨100, 43200000⟩⟩

/-- The part with the card in no way and in one record of the journal. -/
def naming : State := { commanded .invalid with journal := ⟨[journalled 1], 2, 0, 0, true, false, 0⟩ }

theorem witness_LoadInstallsInTheVictimWay :
    cardOfBcd wire = some card ∧ ((commanded .invalid).dirSet (setOf card)).inOrder (setOf card) ∧
    State.reset.dirMode = .off ∧ (commanded .invalid).dirMode = .normal ∧
    (commanded (.reserved card)).findWay card = some ⟨3, .reserved card⟩ ∧
    (commanded (.valid record 0)).findWay card = some ⟨3, .valid record 0⟩ ∧ record.verifies = true ∧
    (commanded (.valid altered 0)).findWay card = some ⟨3, .valid altered 0⟩ ∧ altered.verifies = false ∧
    (commanded .invalid).findWay card = none ∧ (commanded .invalid).names card = false ∧ naming.findWay card = none ∧ naming.names card = true ∧
    (¬ ∃ d, readCard { cardWire with core := 10000000#32 } = some d ∧ (commanded .invalid).installable d = true) ∧
    readCard cardWire = some data ∧ (commanded .invalid).installable data = true ∧ (commanded .invalid).victim card = some 0 ∧
    full.victim card = none := by
  refine ⟨by decide +kernel, dir_inOrder .invalid (by decide) rfl 5, rfl, rfl, rfl, rfl, record_verifies, rfl, altered_fails, rfl, rfl, rfl,
    by decide, ?_, by decide +kernel, by decide +kernel, rfl, rfl⟩
  rintro ⟨d, hd, hi⟩
  have : d = { data with core := 10000000 } := by
    have h : readCard { cardWire with core := 10000000#32 } = some { data with core := 10000000 } := by decide +kernel
    exact (Option.some.inj (h.symm.trans hd)).symm
  subst this
  exact absurd hi (by decide +kernel)

theorem witness_AdjustWritesTheRecord :
    let s := asking (msg .redeem 900)
    State.reset.dirMode = .off ∧ ({ s with dirMode := .flushing .off } : State).dirMode.isFlushing = true ∧
    cardOfBcd wire = some card ∧ s.Adjustable card record 0 ∧ (9999999 < (10000000#32).toNat) ∧
    ¬ (9999999 < (9999999#32).toNat ∨ (9999999#32).toNat < s.heldBonus card ∨
      (0 < (9999999#32).toNat ∧ (none : Option Nat).or data.expiry = none)) ∧
    ¬ (9999999 < (700#32).toNat ∨ (700#32).toNat < s.heldBonus card ∨ (0 < (700#32).toNat ∧ (some 300).or data.expiry = none)) ∧
    (700#32).toNat = record.data.bonus ∧ s.journal.records.length + s.journal.reserved + 1 ≤ 4096 := by
  refine ⟨rfl, rfl, by decide +kernel, adjustable _, by decide, by decide +kernel, by decide +kernel, by decide, by decide⟩

/-- The common tests of R20, and SET-BONUS with no room in the Journal Queue. -/
theorem witness_AdjustWritesTheRecord_refused :
    ((commanded .invalid).dirMode = .normal ∧ cardOfBcd 0xA000000000000000#64 = none) ∧
    (∀ st ∈ [WayState.invalid, .reserved card, .valid altered 0], ((commanded st).dirSet (setOf card)).inOrder (setOf card)) ∧
    ({ commanded .invalid with holds := [{ hold with state := .new }] } : State).holds = [{ hold with state := .new }] ∧
    (hold.card = card ∧ HoldState.new ≠ .opened) ∧ (commanded (.reserved card)).findWay card = some ⟨3, .reserved card⟩ ∧
    (commanded .invalid).undoRecords = [] ∧ (commanded .invalid).holds = [] ∧ (commanded .invalid).findWay card = none ∧
    (commanded (.valid altered 0)).undoRecords = [] ∧ (commanded (.valid altered 0)).holds = [] ∧
    (commanded (.valid altered 0)).findWay card = some ⟨3, .valid altered 0⟩ ∧ altered.verifies = false ∧
    (crowded (asking (msg .redeem 900)) 4096 false).Adjustable card record 0 ∧
    4096 < (crowded (asking (msg .redeem 900)) 4096 false).journal.records.length +
      (crowded (asking (msg .redeem 900)) 4096 false).journal.reserved + 1 := by
  refine ⟨⟨rfl, by decide +kernel⟩, fun st hst => ?_, rfl, by decide, rfl, rfl, rfl, rfl, rfl, rfl, rfl, altered_fails,
    ⟨Or.inr (Or.inl rfl), rfl, rfl, record_verifies, dir_inOrder _ valid_card rfl 5, rfl⟩, by decide⟩
  simp only [List.mem_cons, List.not_mem_nil, or_false] at hst
  rcases hst with rfl | rfl | rfl
  · exact dir_inOrder _ (by decide) rfl 5
  · exact dir_inOrder _ (by decide) rfl 5
  · exact dir_inOrder _ (by decide) rfl 5

theorem witness_AlteredRecordsAreFoundAndDropped :
    cardOfBcd wire = some card ∧ ((commanded (.valid altered 0)).dirSet (setOf card)).inOrder (setOf card) ∧
    (commanded .invalid).findWay card = none ∧ (commanded (.reserved card)).findWay card = some ⟨3, .reserved card⟩ ∧
    (commanded (.valid record 0)).findWay card = some ⟨3, .valid record 0⟩ ∧ record.check = checkCode record.data record.unposted ∧
    (commanded (.valid altered 0)).findWay card = some ⟨3, .valid altered 0⟩ ∧
    altered.check ≠ checkCode altered.data altered.unposted ∧ (⟨3, .valid record 0⟩ : Way) ∈ ((commanded (.valid record 0)).dirSet 5).ways ∧
    (AlteredContent.mk { data with card := 3 } 0 (checkCode { data with card := 3 } 0 + 1#32)).check ≠ checkCode { data with card := 3 } 0 ∧
    (AlteredContent.mk data 0 (checkCode data 0)).check = checkCode data 0 := by
  refine ⟨by decide +kernel, dir_inOrder (.valid altered 0) (by decide) rfl 5, rfl, rfl, rfl, rfl, rfl, of_decide_eq_false altered_fails,
    List.mem_cons_of_mem _ (List.mem_cons_of_mem _ (List.mem_cons_of_mem _ List.mem_cons_self)), ?_, rfl⟩
  intro h
  have := congrArg (fun x => x - checkCode { data with card := 3 } 0) h
  simp at this

theorem witness_TheTillMapAndLinksAreSet :
    let s := commanded .invalid
    7 < (8#8).toNat ∧ (7#8).toNat ≤ 7 ∧ s.dirMode.isFlushing = false ∧
    s.siteIds.wf 0 = true ∧ 511 < (512#16).toNat ∧ s.siteId 511 ≠ 371 ∧ (371 ≠ 0 ∧ ∃ j, j ≠ 511 ∧ s.siteId j = 371) ∧
    s.siteId 5 = 371 ∧ ¬ (372 ≠ 0 ∧ ∃ j, j ≠ 511 ∧ s.siteId j = 372) ∧
    ¬ ((8#8).toNat ≤ 7 ∧ (0#8).toNat ≤ 1 ∧ (0#16).toNat ≤ 1023) ∧ ((7#8).toNat ≤ 7 ∧ (1#8).toNat ≤ 1 ∧ (1023#16).toNat ≤ 1023) ∧
    ((none : Option Nat) = none ∧ (65535#16).toNat = 65535) ∧ (some 511 = some (511#16).toNat ∧ (511#16).toNat ≤ 511) ∧
    (511 < (512#16).toNat ∧ (512#16).toNat < 65535) ∧ (511 < (65534#16).toNat ∧ (65534#16).toNat < 65535) ∧
    1023 < (1024#16).toNat ∧ (1#16).toNat < 2 ∧ s.slice 1023 = none ∧ s.slice 2 ≠ none ∧ (s.till (2 * 8 + 3)).isOpen = true ∧
    ¬ ((∃ k, k < 8 ∧ (s.till (1023 * 8 + k)).isOpen = true) ∨
      ∃ l ∈ linkNumbers, ∃ e ∈ (s.link l).replies, e.state = .reserved ∧ ∃ till ∈ e.noted, till.till / 8 = 1023) := by
  refine ⟨by decide, by decide, rfl, rfl, by decide, by decide, ⟨by decide, 5, by decide, rfl⟩, rfl, ?_, by decide, by decide, ⟨rfl, by decide⟩, ⟨by decide, by decide⟩,
    by decide, by decide, by decide, by decide, rfl, by decide, rfl, ?_⟩
  · rintro ⟨-, j, -, hj⟩
    have h : (commanded .invalid).siteId j = if j = 5 then 371 else 0 := Table.get_set 0 Table.empty 5 j 371
    rw [h] at hj
    split at hj <;> omega
  · rintro (⟨k, hk, h⟩ | ⟨l, hl, e, he, -⟩)
    · have ht : (commanded .invalid).till (1023 * 8 + k) =
          if 1023 * 8 + k = 19 then ⟨true, 1, 900, 0, 1, 0, false, [debit]⟩ else Till.default := Table.get_set _ Table.empty 19 _ _
      rw [ht, if_neg (by omega)] at h
      exact absurd h (by decide)
    · have hn : ((commanded .invalid).link l).replies = [] := by
        rw [show (commanded .invalid).link l = if l = 0 then linkUp 2 [] [] else Link.default from Table.get_set _ Table.empty 0 _ _]
        split <;> rfl
      rw [hn] at he
      cases he

/-- The part with link 0 LISTENING for concentrator 77. -/
def listening : State := part .invalid { Link.default with state := .listening, expected := 77#32 }

theorem witness_HelloIsRejectedOrAccepted :
    (listening.link 0).state = .listening ∧ (HelloFields.mk 77#32 2#8 0xFFFF#16).level ≠ 1#8 ∧
    ((listening.link 0).expected ≠ 0#32 ∧ (listening.link 0).expected ≠ (HelloFields.mk 78#32 1#8 0xFFFF#16).identity) ∧
    (listening.link 0).expected = (HelloFields.mk 77#32 1#8 0xFFFF#16).identity ∧ ((commanded .invalid).link 0).state = .up ∧
    (commanded .invalid).dirMode.isFlushing = false ∧
    ({ commanded .invalid with events := ⟨0#16, 16#16, false, true⟩ } : State).events.enables.getLsbD 4 = true := by decide

/-- A reply queue entry of link 0 that waits. -/
def waiting (k : TillKind) : ReplyEntry := ⟨0, msg k 900, some noted, .free, 1, .reserved⟩

def fetch (sent : Bool) (ws : List Waiter) : Fetch := ⟨card, 5, 3, sent, ws⟩

/-- The part with a fetch of the card in tag 0. -/
def fetching (k : TillKind) (sent : Bool) (ws : List Waiter) : State :=
  { part (.reserved card) (linkUp 2 [] [waiting k]) with
    requests := Table.empty.set none 0 (some ⟨1, [], 400, .fetch (fetch sent ws)⟩)
    generations := Table.empty.set 0 0 1, nextSlot := 1 }

theorem fetching_inOrder (k : TillKind) (sent : Bool) (ws : List Waiter) : ((fetching k sent ws).dirSet 5).inOrder 5 :=
  dir_inOrder (.reserved card) (by decide) rfl 5

theorem witness_FetchAnswersEndTheFetch :
    let s := fetching .enquiry true [⟨0, 0⟩]
    s.request 0 = some ⟨1, [], 400, .fetch (fetch true [⟨0, 0⟩])⟩ ∧ (1 : Nat) = (1#16).toNat ∧ (fetch true [⟨0, 0⟩]).sent = true ∧
    s.reservedFor (fetch true [⟨0, 0⟩]) ∧ (s.dirSet 5).inOrder 5 ∧
    (∃ d, readCard cardWire = some d ∧ d.card = card ∧ s.installable d = true) ∧
    (¬ ∃ d, readCard { cardWire with status := 2#8 } = some d ∧ d.card = card ∧ s.installable d = true) ∧
    s.dirMode.isFlushing = false ∧ ({ s with dirMode := .flushing .off } : State).dirMode.isFlushing = true ∧
    (fetching .enquiry true []).reservedFor (fetch true []) ∧ s.entry 0 0 = some (waiting .enquiry) ∧
    (waiting .enquiry).bound = .free := by
  refine ⟨rfl, by decide, rfl, ⟨by decide, rfl⟩, fetching_inOrder _ _ _, ⟨data, by decide +kernel, rfl, by decide +kernel⟩, ?_, rfl, rfl,
    ⟨by decide, rfl⟩, rfl, rfl⟩
  rintro ⟨d, hd, -⟩
  have h : readCard { cardWire with status := 2#8 } = none := by decide +kernel
  rw [h] at hd
  cases hd

/-- The part with a REVERSE of `debit` waiting on the fetch of the card, taken off when entry 1 stood above it; entry 2 has come since. -/
def rechecking (stack : List StackEntry) : State :=
  let s := fetching .reverse true [⟨0, 0⟩]
  { s with
    links := Table.empty.set Link.default 0 (linkUp 2 [] [{ waiting .reverse with bound := .entry debit, nextEntry := 2 }])
    tills := Table.empty.set Till.default 19 ⟨true, 1, 900, 0, 1, 0, false, stack⟩, nextEntry := 3 }

/-- Debit stack entry `id`, of another sale than `debit`. -/
def other (id : Nat) (reversing : Bool) : StackEntry := { debit with id := id, ref := 8#32, reversing := reversing }

def reversingDebit : StackEntry := { debit with reversing := true }

theorem witness_FetchAnswersEndTheFetch_recheck :
    let e : ReplyEntry := { waiting .reverse with bound := .entry debit, nextEntry := 2 }
    (∀ stack, (rechecking stack).request 0 = some ⟨1, [], 400, .fetch (fetch true [⟨0, 0⟩])⟩ ∧ (rechecking stack).entry 0 0 = some e ∧
      (rechecking stack).reservedFor (fetch true [⟨0, 0⟩]) ∧ ((rechecking stack).dirSet 5).inOrder 5 ∧
      (rechecking stack).dirMode.isFlushing = false) ∧
    e.noted = some noted ∧
    (∀ y ∈ ((rechecking []).till 19).stack, y.id ≠ debit.id) ∧
    ((rechecking [other 2 false, reversingDebit]).till 19).stack = [other 2 false] ++ reversingDebit :: [] ∧
    (∃ z ∈ [other 2 false], z.reversing = false ∧ e.nextEntry ≤ z.id) ∧
    ((rechecking [other 2 true, other 1 false, reversingDebit]).till 19).stack = [other 2 true, other 1 false] ++ reversingDebit :: [] ∧
    (∀ z ∈ [other 2 true, other 1 false], z.id ≠ debit.id ∧ (z.reversing = false → z.id < e.nextEntry)) :=
  ⟨fun _ => ⟨rfl, rfl, ⟨by decide, rfl⟩, fetching_inOrder .reverse true [⟨0, 0⟩], rfl⟩, rfl, by decide, rfl, by decide, rfl, by decide⟩

/-- R77: an entry pushed since the take-off makes a waiting REVERSE OUT-OF-ORDER; one that has gone back to STANDING does not. -/
theorem test_recheck :
    let reason (stack : List StackEntry) : Option (Option Reason) :=
      match exec (.cardData (.body 0#8 1#16 cardWire)) (rechecking stack) with
      | .next t => (t.entry 0 0).bind (fun e => match e.state with
        | .ready reply _ _ => some reply.reason
        | _ => none)
      | _ => none
    reason [other 2 false, reversingDebit] = some (some .outOfOrder) ∧ reason [] = some (some .notFound) ∧
    stackRecheck 0 2 false [other 2 true, other 1 false, reversingDebit] = .found reversingDebit := by decide +kernel

/-- The part with two records in its journal, the first of them sent. -/
def posting : State :=
  { commanded (.valid (sealRecord data 2) 0) with
    journal := ⟨[journalled 1, journalled 2], 3, 1, 0, true, false, 0⟩ }

theorem witness_LateAnswersAndInvalidPostedAreCounted :
    (∀ x, (commanded .invalid).request 0 = some x → x.gen ≠ 1 ∨ ∃ f, x.kind = .fetch f ∧ f.sent = false) ∧
    (∀ x, (fetching .enquiry false []).request 0 = some x → x.gen ≠ 1 ∨ ∃ f, x.kind = .fetch f ∧ f.sent = false) ∧
    (∀ a h d, posting.journal.records = a ++ h :: d → h.sequence = posting.journal.highestSent →
      ∀ r ∈ a ++ [h], r.sequence ≠ (2#32).toNat) := by
  refine ⟨fun x h => (nomatch h), fun x h => Or.inr ⟨fetch false [], ?_, rfl⟩, ?_⟩
  · cases h; rfl
  · intro a h d hr hs r hm
    have hr' : [journalled 1, journalled 2] = a ++ h :: d := hr
    match a, hr' with
    | [], hr' =>
      injection hr' with h1 h2
      subst h1
      rw [show r = journalled 1 by simpa using hm]
      decide
    | [x], hr' =>
      injection hr' with h1 h2
      injection h2 with h3 h4
      subst h3
      exact absurd hs (by decide)
    | _ :: _ :: _, hr' => simp at hr'

def referral : Referral := ⟨0, 0, msg .enquiry 0, .free, false⟩

/-- The part with an ENQUIRY referred in tag 0. -/
def referring (mode : DirMode) (abandoned : Bool) : State :=
  { part .invalid (linkUp 2 [] [waiting .enquiry]) with
    requests := Table.empty.set none 0 (some ⟨1, [], 400, .referral { referral with abandoned := abandoned }⟩)
    generations := Table.empty.set 0 0 1, nextSlot := 1, dirMode := mode }

/-- An approval as the host sends it. -/
def replyWire : ReplyWire := ⟨0, 0, 0, 0, 8#8, 900#32, 450#32, 450#32, 4800#32, 0, 0, 0, 0, 0, 0, 0, 0⟩

def hostReply : TillReply :=
  { lane := 3#8, kind := 3#8, outcome := .approved, reason := none, training := false, standIn := false, hostDecided := true
    free := some 4800, approved := 900, bonus := 450, core := 450, ref := 7#32, report := ShiftReport.zero }

theorem witness_ReferralAnswersAreRelayed :
    let s := referring .warming false
    s.request 0 = some ⟨1, [], 400, .referral referral⟩ ∧ readReply referral.msg replyWire = some hostReply ∧
    (referring .normal true).request 0 = some ⟨1, [], 400, .referral { referral with abandoned := true }⟩ ∧
    s.entry 0 0 = some (waiting .enquiry) ∧ (referring .normal false).dirMode ≠ .warming ∧ s.dirMode = .warming ∧
    readCard cardWire = some data ∧ referral.bound = .free ∧ referral.msg.kind = .enquiry ∧
    cardOfBcd referral.msg.card = some data.card ∧ s.names data.card = false ∧ s.installable data = true ∧ s.findWay data.card = none ∧
    s.victim data.card = some 0 ∧ (s.dirSet (setOf data.card)).inOrder (setOf data.card) :=
  ⟨rfl, by decide +kernel, rfl, rfl, by decide, rfl, by decide +kernel, rfl, rfl, by decide +kernel, rfl, by decide +kernel, rfl, rfl,
    dir_inOrder .invalid (by decide) rfl 5⟩

/-- The part with a request referred in tag 0. -/
def referred (k : TillKind) (b : Binding) (mode : DirMode) (way : WayState) : State :=
  { part way (linkUp 2 [] [{ waiting k with bound := b }]) with
    requests := Table.empty.set none 0 (some ⟨1, [], 400, .referral ⟨0, 0, msg k 900, b, false⟩⟩)
    generations := Table.empty.set 0 0 1, nextSlot := 1, dirMode := mode }

/-- The other clauses: the answers R116 refuses, the card's own VALID way, a REVERSE through its stack entry, and each reason to install
nothing. -/
theorem witness_ReferralAnswersAreRelayed_other :
    (2 < ({ replyWire with outcome := 3#8 } : ReplyWire).outcome.toNat) ∧
    (({ replyWire with outcome := 2#8 } : ReplyWire).outcome = 2#8 ∧ ({ replyWire with outcome := 2#8 } : ReplyWire).reason = 0#8) ∧
    9999999 < ({ replyWire with approved := 10000000#32 } : ReplyWire).approved.toNat ∧
    ¬ (2 < replyWire.outcome.toNat ∨ replyWire.outcome = 2#8 ∧ (replyWire.reason = 0#8 ∨ 20 < replyWire.reason.toNat) ∨
      9999999 < replyWire.approved.toNat ∨ 9999999 < replyWire.bonus.toNat ∨ 9999999 < replyWire.core.toNat) ∧
    (∀ x ∈ [(TillKind.redeem, Binding.free), (.reverse, .entry debit)],
      requestCard (msg x.1 900) x.2 = some data.card ∧ (readReply (msg x.1 900) replyWire).isSome = true ∧
      (referred x.1 x.2 .warming (.valid record 0)).names data.card = false ∧
      (referred x.1 x.2 .warming (.valid record 0)).installable data = true ∧
      (referred x.1 x.2 .warming (.valid record 0)).findWay data.card = some ⟨3, .valid record 0⟩ ∧
      ((referred x.1 x.2 .warming (.valid record 0)).dirSet (setOf data.card)).inOrder (setOf data.card) ∧
      (referred x.1 x.2 .warming (.reserved card)).findWay data.card = some ⟨3, .reserved card⟩) ∧
    (referred .redeem .free .warming .invalid).installable { data with core := 10000000 } = false ∧
    requestCard (msg .release 900) (.hold 0 card) = some data.card ∧ (msg .release 900).kind ≠ .redeem ∧ naming.names data.card = true ∧
    full.victim data.card = none := by
  refine ⟨by decide, by decide, by decide, by decide, fun x hx => ?_, by decide +kernel, rfl, by decide, rfl, rfl⟩
  simp only [List.mem_cons, List.not_mem_nil, or_false] at hx
  rcases hx with rfl | rfl
  · exact ⟨card_sent, by decide +kernel, rfl, by decide +kernel, rfl, dir_inOrder _ valid_card rfl 5, rfl⟩
  · exact ⟨rfl, by decide +kernel, rfl, by decide +kernel, rfl, dir_inOrder _ valid_card rfl 5, rfl⟩

theorem witness_PostedRemovesTheRecordsUpToIt :
    TablesCanonical posting ∧ (∀ k, (posting.dirSet k).inOrder k) ∧ posting.dirMode.isFlushing = false ∧
    posting.journal.records = [journalled 1] ++ [journalled 2] ∧ [journalled 1].getLast? = some (journalled 1) ∧
    (journalled 1).sequence = (1#32).toNat ∧
    (∀ x ∈ [journalled 1].dropLast, x.sequence ≠ (1#32).toNat ∧ x.sequence ≠ posting.journal.highestSent) ∧
    (∃ h ∈ journalled 1 :: [journalled 2], h.sequence = posting.journal.highestSent) := by
  refine ⟨?_, dir_inOrder (.valid (sealRecord data 2) 0) (by decide) rfl, rfl, rfl, rfl, rfl, by decide, ⟨journalled 1, by simp, rfl⟩⟩
  refine ⟨?_, ?_, ?_, ?_, ?_, ?_, ?_, ?_, ?_, ?_, ?_⟩ <;> rfl

theorem witness_MessagesLeaveInOrder :
    ({ posting with out := [.journal (journalled 1) 0] } : State).out = .journal (journalled 1) 0 :: [] ∧
    ({ posting with out := [.cardFetch 0 1 card] } : State).out = .cardFetch 0 1 card :: [] ∧
    (∀ r posted, HostMsg.cardFetch 0 1 card ≠ .journal r posted) := ⟨rfl, rfl, by intros; simp⟩

theorem witness_TakeOffNeedsAMessageAndAMappedLane :
    (listening.link 0).state ≠ .up ∧ ((commanded .invalid).link 0).inbound = [] ∧
    32 ≤ ((part .invalid (linkUp 2 [msg .enquiry 0] (List.replicate 32 (waiting .enquiry)))).link 0).replies.length ∧
    (asking (msg .enquiry 0)).Taking 0 (msg .enquiry 0) [] ∧ takeOffOf .enquiry 0 ≠ takeOffOf .redeem 0 ∧
    (asking { msg .enquiry 0 with lane := 16#8 }).Taking 0 { msg .enquiry 0 with lane := 16#8 } [] ∧
    (asking { msg .enquiry 0 with lane := 16#8 }).resolve 0 16 = none :=
  ⟨by decide, rfl, by decide, taking _, by decide, taking _, by decide +kernel⟩

/-- The part with link 0's window A on a commissioning slice. -/
def trained (m : TillMsg) : State := part (.valid record 0) (linkUp 0 [m] [])

theorem witness_TrainingTillsAreAnsweredAtOnce :
    (trained (msg .redeem 9999999)).Taking 0 (msg .redeem 9999999) [] ∧
    (trained (msg .redeem 9999999)).resolve 0 (msg .redeem 9999999).lane.toNat = some ⟨3, none, 0⟩ ∧ 3 < 16 ∧
    fieldsGood (msg .redeem 9999999) ∧ 1 ≤ (msg .redeem 9999999).amount.toNat ∧ (msg .redeem 9999999).amount.toNat ≤ 9999999 ∧
    fieldsGood (msg .release 0) ∧ ¬ readsAmount (msg .release 0) := by
  refine ⟨⟨rfl, rfl, Nat.zero_lt_succ _, fun _ h => (List.not_mem_nil h).elim⟩, by decide +kernel, by decide, ?_, by decide +kernel,
    by decide +kernel, ?_, ?_⟩
  · exact ⟨by decide +kernel, Or.inl rfl, by decide⟩
  · exact (by decide : (9#32 : Word32) ≠ 0#32)
  · simp [readsAmount, msg]

theorem fields_good (k : TillKind) (amount : Nat) (h : k = .redeem ∨ k = .hold ∨ k = .reload ∨ k = .complete ∨ k = .enquiry) :
    fieldsGood (msg k amount) := by
  have h1 : (cardOfBcd wire).isSome = true := by decide +kernel
  have h7 : (7#32 : Word32) ≠ 0#32 := by decide
  have h9 : (9#32 : Word32) ≠ 0#32 := by decide
  rcases h with rfl | rfl | rfl | rfl | rfl
  · exact ⟨h1, Or.inl rfl, h7⟩
  · exact ⟨h1, Or.inl rfl, h9⟩
  · exact ⟨h1, h7⟩
  · exact ⟨h9, h7⟩
  · exact h1

theorem witness_MoneyRequestsFailTheirFirstChecks :
    (asking (msg .redeem 0)).Taking 0 (msg .redeem 0) [] ∧ (asking (msg .redeem 0)).resolve 0 3 = some noted ∧ 16 ≤ noted.till ∧
    (msg .redeem 0).kind = .redeem ∧ ({ msg .complete 1 with tillRef := 0#32 } : TillMsg).tillRef = 0#32 ∧
    ({ msg .hold 1 with holdRef := 0#32 } : TillMsg).holdRef = 0#32 ∧
    cardOfBcd ({ msg .reload 1 with card := 0xA000000000000000#64 } : TillMsg).card = none ∧
    (msg (.unknown 32#16) 0).kind = .unknown 32#16 ∧
    (({ msg .redeem 1 with allowPartial := 2#8 } : TillMsg).allowPartial ≠ 0#8 ∧
      ({ msg .redeem 1 with allowPartial := 2#8 } : TillMsg).allowPartial ≠ 1#8) ∧
    fieldsGood (msg .redeem 0) ∧ readsAmount (msg .redeem 0) ∧ (msg .redeem 0).amount.toNat = 0 ∧
    9999999 < (msg .redeem 10000000).amount.toNat ∧ 1 ≤ (msg .redeem 1).amount.toNat ∧
    (({ asking (msg .redeem 1) with tills := Table.empty } : State).till noted.till).isOpen = false := by
  refine ⟨taking _, mapped _, by decide, rfl, rfl, rfl, by decide +kernel, rfl, by decide, fields_good _ _ (Or.inl rfl), Or.inl rfl,
    by decide, by decide, by decide, rfl⟩

theorem witness_TillShiftsOpenAndClose :
    (asking (msg .openTill 0)).Taking 0 (msg .openTill 0) [] ∧ (asking (msg .openTill 0)).resolve 0 3 = some noted ∧
    (msg .openTill 0).kind = .openTill ∧ (asking (msg .closeTill 0)).Taking 0 (msg .closeTill 0) [] ∧
    (asking (msg .closeTill 0)).resolve 0 3 = some noted ∧ (msg .closeTill 0).kind = .closeTill :=
  ⟨taking _, mapped _, rfl, taking _, mapped _, rfl⟩

/-! The requests against a resident record. -/

theorem witness_EnquiryReportsTheFreeFunds :
    (asking (msg .enquiry 0)).Trading 0 (msg .enquiry 0) [] noted ∧ cardOfBcd (msg .enquiry 0).card = some card ∧
    (asking (msg .enquiry 0)).programOf card = some program ∧ (asking (msg .enquiry 0)).Hit card record 0 ∧
    (asking (msg .enquiry 0)).NothingToForfeit record :=
  ⟨trading _ _, card_sent, rfl, hit _, Or.inl (by decide +kernel)⟩

/-- A record whose bonus of 700 expired the day before. -/
def expired : CardRecord := sealRecord { data with expiry := some 99 } 0

/-- The part with that record, an ENQUIRY at the front and so many undo slots reserved. -/
def expiring (reserved : Nat) : State :=
  { part (.valid expired 0) (linkUp 2 [msg .enquiry 0] []) with journal := ⟨[], 1, 0, reserved, true, false, 0⟩ }

theorem expiring_good (reserved : Nat) :
    (expiring reserved).Trading 0 (msg .enquiry 0) [] noted ∧ (expiring reserved).Hit card expired 0 :=
  ⟨⟨⟨rfl, rfl, Nat.zero_lt_succ _, fun _ h => (List.not_mem_nil h).elim⟩, mapped (msg .enquiry 0), by decide, rfl⟩,
    ⟨⟨Or.inl rfl, rfl, sealRecord_verifies _ 0, dir_inOrder (.valid expired 0) (by decide) rfl 5, rfl⟩, rfl⟩⟩

theorem witness_AnExpiredBonusIsForfeitedAtATouch :
    (expiring 4095).Trading 0 (msg .enquiry 0) [] noted ∧ cardOfBcd (msg .enquiry 0).card = some card ∧
    (expiring 4095).programOf card = some program ∧ (expiring 4095).Hit card expired 0 ∧
    (∀ day ∈ expired.data.expiry, day < (expiring 4095).date) ∧
    (((expiring 4095).holds.filter (fun h => decide (h.card = card))).map (fun h => h.bonus)).sum < expired.data.bonus ∧
    (expiring 4095).journal.records.length + (expiring 4095).journal.reserved + 1 ≤ 4096 ∧
    (expiring 4096).Trading 0 (msg .enquiry 0) [] noted ∧ (expiring 4096).Hit card expired 0 ∧
    4096 < (expiring 4096).journal.records.length + (expiring 4096).journal.reserved + 1 :=
  ⟨(expiring_good _).1, card_sent, rfl, (expiring_good _).2, by decide, by decide, by decide, (expiring_good _).1, (expiring_good _).2,
    by decide⟩

/-- Room, and none with the refusing condition clear and set. -/
def crowds : List (Nat × Bool) := [(4094, true), (4095, false), (4095, true)]

theorem crowded_room (s : State) (refusing : Bool) :
    (crowded s 4094 refusing).journal.records.length + (crowded s 4094 refusing).journal.reserved + 2 ≤ 4096 ∧
    4096 < (crowded s 4095 refusing).journal.records.length + (crowded s 4095 refusing).journal.reserved + 2 :=
  ⟨Nat.le_refl 4096, Nat.le_refl 4097⟩

/-- R126, R138: an admission that fails sets the refusing condition and raises JOURNAL-FULL once; the REDEEM moves no money. -/
theorem test_refusing :
    ((crowded State.reset 4095 false).admission 2 4#16).1.journal.refusing = true ∧
    ((crowded State.reset 4095 false).admission 2 4#16).1.events.pending = 128#16 ∧
    ((crowded State.reset 4095 true).admission 2 4#16).1.events.pending = 0#16 ∧
    ((crowded State.reset 4094 true).admission 2 4#16).1.journal.refusing = false := by decide +kernel

theorem trading_crowded (k : TillKind) (amount reserved : Nat) (refusing : Bool) :
    (crowded (asking (msg k amount)) reserved refusing).Trading 0 (msg k amount) [] noted ∧
    (crowded (asking (msg k amount)) reserved refusing).Hit card record 0 :=
  ⟨⟨⟨rfl, rfl, Nat.zero_lt_succ _, fun _ h => (List.not_mem_nil h).elim⟩, mapped (msg k amount), by decide, rfl⟩,
    ⟨Or.inl rfl, rfl, record_verifies, dir_inOrder _ valid_card rfl 5, rfl⟩, rfl⟩

/-- The business date, the free funds and the pending amounts of the tests' states do not rest on the journal. -/
theorem crowded_funds (s : State) (reserved : Nat) (refusing : Bool) (d : CardData) (c : Nat) (f : Effect → Nat) :
    (crowded s reserved refusing).date = s.date ∧ (crowded s reserved refusing).freeBonus d = s.freeBonus d ∧
    (crowded s reserved refusing).freeCore d = s.freeCore d ∧ (crowded s reserved refusing).pendingSum c f = s.pendingSum c f :=
  ⟨rfl, rfl, rfl, rfl⟩

theorem nothing_to_forfeit (m : TillMsg) (reserved : Nat) (refusing : Bool) :
    (crowded (asking m) reserved refusing).NothingToForfeit record ∧ (crowded (holding m) reserved refusing).NothingToForfeit record :=
  have h (s : State) (hs : s.clock = ⟨⟨100, 43200000⟩, 4, false⟩) : s.NothingToForfeit record := by
    refine Or.inl ?_
    rw [State.date, hs]
    decide +kernel
  ⟨h _ rfl, h _ rfl⟩

theorem crowded_program (s : State) (reserved : Nat) (refusing : Bool) (card : Nat) :
    (crowded s reserved refusing).programOf card = s.programOf card := rfl

theorem no_limit (date : Nat) : limitReached program.limits.dailyUseLimit date record.data = false := rfl

theorem witness_RedeemTakesTheDebitAtApproval : ∀ c ∈ crowds,
    let s := crowded (asking (msg .redeem 900)) c.1 c.2
    s.Trading 0 (msg .redeem 900) [] noted ∧ fieldsGood (msg .redeem 900) ∧ 1 ≤ (msg .redeem 900).amount.toNat ∧
    (msg .redeem 900).amount.toNat ≤ 9999999 ∧ cardOfBcd (msg .redeem 900).card = some card ∧ s.programOf card = some program ∧
    s.Hit card record 0 ∧ s.NothingToForfeit record ∧ record.data.status = .active ∧
    limitReached program.limits.dailyUseLimit s.date record.data = false ∧
    debitFor (msg .redeem 900).amount.toNat program.limits.bonusCap (s.freeBonus record.data) (s.freeCore record.data)
      (decide ((msg .redeem 900).allowPartial = 1#8)) = some ⟨900, 450, 450, false⟩ :=
  fun _ _ => ⟨(trading_crowded _ _ _ _).1, fields_good _ _ (Or.inl rfl), by decide, by decide, card_sent,
    (crowded_program _ _ _ _).trans rfl, (trading_crowded _ _ _ _).2,
    (nothing_to_forfeit _ _ _).1, rfl, no_limit _, by
      rw [(crowded_funds _ _ _ record.data 0 Effect.coreDebit).2.1, (crowded_funds _ _ _ record.data 0 Effect.coreDebit).2.2.1]
      decide +kernel⟩

theorem witness_ReloadLeavesTheBalancesUntilDelivery : ∀ c ∈ crowds,
    let s := crowded (asking (msg .reload 45000)) c.1 c.2
    s.Trading 0 (msg .reload 45000) [] noted ∧ fieldsGood (msg .reload 45000) ∧ 1 ≤ (msg .reload 45000).amount.toNat ∧
    (msg .reload 45000).amount.toNat ≤ 9999999 ∧ s.Hit card record 0 ∧ s.NothingToForfeit record ∧
    record.data.core + s.pendingSum card Effect.coreCredit + (msg .reload 45000).amount.toNat + s.pendingSum card Effect.coreDebit ≤
      program.limits.maximumBalance :=
  fun _ _ => ⟨(trading_crowded _ _ _ _).1, fields_good _ _ (by simp), by decide, by decide, (trading_crowded _ _ _ _).2,
    (nothing_to_forfeit _ _ _).1, by
    rw [(crowded_funds _ _ _ data card _).2.2.2, (crowded_funds _ _ _ data card _).2.2.2]
    decide +kernel⟩

theorem witness_HoldReservesWithoutMovingMoney : ∀ c ∈ crowds,
    let s := crowded (asking (msg .hold 900)) c.1 c.2
    s.Trading 0 (msg .hold 900) [] noted ∧ fieldsGood (msg .hold 900) ∧ 1 ≤ (msg .hold 900).amount.toNat ∧
    (msg .hold 900).amount.toNat ≤ 9999999 ∧ noted.site = some 5 ∧ s.Hit card record 0 ∧ s.NothingToForfeit record ∧
    s.holdByKey 5 (msg .hold 900).holdRef = none ∧ (s.holdsOf card).length < 8 ∧ s.siteHoldCount 5 < 512 ∧ s.holds.length < 32768 ∧
    debitFor (msg .hold 900).amount.toNat program.limits.bonusCap (s.freeBonus record.data) (s.freeCore record.data)
      (decide ((msg .hold 900).allowPartial = 1#8)) = some ⟨900, 450, 450, false⟩ :=
  fun _ _ => ⟨(trading_crowded _ _ _ _).1, fields_good _ _ (by simp), by decide, by decide, rfl, (trading_crowded _ _ _ _).2,
    (nothing_to_forfeit _ _ _).1, rfl, Nat.zero_lt_succ _, Nat.zero_lt_succ _, Nat.zero_lt_succ _, by
      rw [(crowded_funds _ _ _ record.data 0 Effect.coreDebit).2.1, (crowded_funds _ _ _ record.data 0 Effect.coreDebit).2.2.1]
      decide +kernel⟩

theorem trading_held (k : TillKind) (amount : Nat) : (holding (msg k amount)).Trading 0 (msg k amount) [] noted :=
  ⟨⟨rfl, rfl, Nat.zero_lt_succ _, fun _ h => (List.not_mem_nil h).elim⟩, mapped (msg k amount), by decide, rfl⟩

theorem trading_held_crowded (k : TillKind) (amount reserved : Nat) (refusing : Bool) :
    (crowded (holding (msg k amount)) reserved refusing).Trading 0 (msg k amount) [] noted ∧
    (crowded (holding (msg k amount)) reserved refusing).Hit card record 0 :=
  ⟨⟨⟨rfl, rfl, Nat.zero_lt_succ _, fun _ h => (List.not_mem_nil h).elim⟩, mapped (msg k amount), by decide, rfl⟩,
    ⟨Or.inl rfl, rfl, record_verifies, dir_inOrder _ valid_card rfl 5, rfl⟩, rfl⟩

theorem hit_held (m : TillMsg) : (holding m).Hit card record 0 :=
  ⟨⟨Or.inl rfl, rfl, record_verifies, dir_inOrder _ valid_card rfl 5, rfl⟩, rfl⟩

/-! The declines of the requests against a resident record. -/

/-- The part with no program. -/
def unprogrammed (m : TillMsg) : State := { asking m with programs := Table.empty }

theorem trading_unprogrammed (k : TillKind) (amount : Nat) : (unprogrammed (msg k amount)).Trading 0 (msg k amount) [] noted :=
  ⟨⟨rfl, rfl, Nat.zero_lt_succ _, fun _ h => (List.not_mem_nil h).elim⟩, mapped (msg k amount), by decide, rfl⟩

/-- The program with one use a day. -/
def strict : Program := { program with limits := { program.limits with dailyUseLimit := 1 } }

/-- The part under that program with a record of the card, of some holds. -/
def keeping (d : CardData) (holds : List Hold) (m : TillMsg) : State :=
  { part (.valid (sealRecord d 0) 0) (linkUp 2 [m] []) with programs := Table.empty.set Program.default 0 strict, holds := holds }

/-- Records that are declined: BLOCKED, used that day, near the purse ceiling. -/
def blocked : CardData := { data with status := .blocked }
def usedUp : CardData := { data with uses := 1, stamp := 100 }
def nearCeiling : CardData := { data with core := 9999999 }

theorem keeping_good (d : CardData) (h : d ∈ [data, blocked, usedUp, nearCeiling]) (holds : List Hold) (k : TillKind) (amount : Nat) :
    let s := keeping d holds (msg k amount)
    s.Trading 0 (msg k amount) [] noted ∧ s.Hit card (sealRecord d 0) 0 ∧ s.NothingToForfeit (sealRecord d 0) ∧
    s.programOf card = some strict ∧ s.date = 100 := by
  have hdate : (keeping d holds (msg k amount)).date = 100 := by
    rw [State.date, show (keeping d holds (msg k amount)).clock = ⟨⟨100, 43200000⟩, 4, false⟩ from rfl]
    decide +kernel
  have trade : (keeping d holds (msg k amount)).Trading 0 (msg k amount) [] noted :=
    ⟨⟨rfl, rfl, Nat.zero_lt_succ _, fun _ h => (List.not_mem_nil h).elim⟩, mapped (msg k amount), by decide, rfl⟩
  have prog : (keeping d holds (msg k amount)).programOf card = some strict :=
    (show _ = ({ State.reset with programs := Table.empty.set Program.default 0 strict } : State).programOf card from rfl).trans
      (by decide +kernel)
  simp only [List.mem_cons, List.not_mem_nil, or_false] at h
  rcases h with rfl | rfl | rfl | rfl <;>
    exact ⟨trade, ⟨⟨Or.inl rfl, rfl, sealRecord_verifies _ 0, dir_inOrder _ (by decide) rfl 5, rfl⟩, rfl⟩, Or.inl (by rw [hdate]; rfl), prog,
      hdate⟩

/-- Eight holds on the card, of other keys than the tests' requests. -/
def eight : List Hold := (List.range 8).map (fun i => { hold with id := i, ref := BitVec.ofNat 32 (100 + i), bonus := 1, core := 1 })

theorem witness_EnquiryReportsTheFreeFunds_declined :
    (unprogrammed (msg .enquiry 0)).Trading 0 (msg .enquiry 0) [] noted ∧ (unprogrammed (msg .enquiry 0)).programOf card = none :=
  ⟨trading_unprogrammed _ _, rfl⟩

theorem witness_RedeemTakesTheDebitAtApproval_declined :
    let s := keeping usedUp [] (msg .redeem 900)
    (unprogrammed (msg .redeem 900)).Trading 0 (msg .redeem 900) [] noted ∧ (unprogrammed (msg .redeem 900)).programOf card = none ∧
    (keeping blocked [] (msg .redeem 900)).Hit card (sealRecord blocked 0) 0 ∧ blocked.status = .blocked ∧
    s.Trading 0 (msg .redeem 900) [] noted ∧ s.Hit card (sealRecord usedUp 0) 0 ∧ s.NothingToForfeit (sealRecord usedUp 0) ∧
    limitReached strict.limits.dailyUseLimit s.date usedUp = true ∧
    (keeping data [] (msg .redeem 9000)).Hit card (sealRecord data 0) 0 ∧
    limitReached strict.limits.dailyUseLimit (keeping data [] (msg .redeem 9000)).date data = false ∧
    debitFor (msg .redeem 9000).amount.toNat strict.limits.bonusCap ((keeping data [] (msg .redeem 9000)).freeBonus data)
      ((keeping data [] (msg .redeem 9000)).freeCore data) (decide ((msg .redeem 9000).allowPartial = 1#8)) = none :=
  have g := keeping_good usedUp (by decide) [] .redeem 900
  have h := keeping_good data (by decide) [] .redeem 9000
  ⟨trading_unprogrammed _ _, rfl, (keeping_good blocked (by decide) [] .redeem 900).2.1, rfl, g.1, g.2.1, g.2.2.1,
    by rw [g.2.2.2.2]; decide, h.2.1, by rw [h.2.2.2.2]; decide, by decide +kernel⟩

theorem witness_ReloadLeavesTheBalancesUntilDelivery_declined :
    let s := keeping data [] (msg .reload 45001)
    (unprogrammed (msg .reload 900)).Trading 0 (msg .reload 900) [] noted ∧ (unprogrammed (msg .reload 900)).programOf card = none ∧
    (keeping blocked [] (msg .reload 900)).Hit card (sealRecord blocked 0) 0 ∧ s.Trading 0 (msg .reload 45001) [] noted ∧
    s.Hit card (sealRecord data 0) 0 ∧ s.NothingToForfeit (sealRecord data 0) ∧
    strict.limits.maximumBalance <
      data.core + s.pendingSum card Effect.coreCredit + (msg .reload 45001).amount.toNat + s.pendingSum card Effect.coreDebit :=
  have g := keeping_good data (by decide) [] .reload 45001
  ⟨trading_unprogrammed _ _, rfl, (keeping_good blocked (by decide) [] .reload 900).2.1, g.1, g.2.1, g.2.2.1, by decide +kernel⟩

theorem witness_HoldReservesWithoutMovingMoney_declined :
    let s := keeping data eight (msg .hold 900)
    let e : ReplyEntry := ⟨0, msg .hold 900, some noted, .free, 1, .reserved⟩
    let u := keeping data [hold] (msg .hold 900)
    (holding (msg .hold 900)).Trading 0 (msg .hold 900) [] noted ∧ ((holding (msg .hold 900)).holdByKey 5 9#32).isSome = true ∧
    (unprogrammed (msg .hold 900)).programOf card = none ∧ (unprogrammed (msg .hold 900)).holdByKey 5 9#32 = none ∧
    (keeping blocked [] (msg .hold 900)).Hit card (sealRecord blocked 0) 0 ∧
    (keeping usedUp [] (msg .hold 900)).Hit card (sealRecord usedUp 0) 0 ∧
    limitReached strict.limits.dailyUseLimit (keeping usedUp [] (msg .hold 900)).date usedUp = true ∧
    s.Trading 0 (msg .hold 900) [] noted ∧ s.Hit card (sealRecord data 0) 0 ∧ s.NothingToForfeit (sealRecord data 0) ∧
    s.holdByKey 5 9#32 = none ∧ 8 ≤ (s.holdsOf card).length ∧
    (¬ (8 ≤ ((keeping data [] (msg .hold 9000)).holdsOf card).length ∨ 512 ≤ (keeping data [] (msg .hold 9000)).siteHoldCount 5 ∨
      32768 ≤ (keeping data [] (msg .hold 9000)).holds.length)) ∧
    debitFor (msg .hold 9000).amount.toNat strict.limits.bonusCap ((keeping data [] (msg .hold 9000)).freeBonus data)
      ((keeping data [] (msg .hold 9000)).freeCore data) (decide ((msg .hold 9000).allowPartial = 1#8)) = none ∧
    e.msg.kind = .hold ∧ e.bound = .free ∧ e.noted = some noted ∧ u.Found card (sealRecord data 0) 0 ∧
    u.NothingToForfeit (sealRecord data 0) ∧ (u.holdByKey 5 e.msg.holdRef).isSome = true :=
  have g := keeping_good data (by decide) eight .hold 900
  have h := keeping_good data (by decide) [hold] .hold 900
  have k := keeping_good usedUp (by decide) [] .hold 900
  ⟨⟨⟨rfl, rfl, Nat.zero_lt_succ _, fun _ h => (List.not_mem_nil h).elim⟩, mapped (msg .hold 900), by decide, rfl⟩, rfl, rfl, rfl,
    (keeping_good blocked (by decide) [] .hold 900).2.1, k.2.1, by rw [k.2.2.2.2]; decide, g.1, g.2.1, g.2.2.1, by decide +kernel,
    by decide +kernel, by decide, by decide +kernel, rfl, rfl, rfl, h.2.1.toFound, h.2.2.1, rfl⟩

/-- A COMPLETE or RELEASE that waited for its card's fetch, and the part with that card resident. -/
def bound (k : TillKind) : ReplyEntry := ⟨0, msg k 900, some noted, .hold 0 card, 1, .reserved⟩

/-- The part with an expiry note of the tests' key, of a hold that no longer lives. -/
def late (m : TillMsg) : State := { asking m with notes := [⟨5, 9#32, 0⟩] }

theorem late_good (k : TillKind) (amount : Nat) :
    (late (msg k amount)).Trading 0 (msg k amount) [] noted ∧ (late (msg k amount)).Found card record 0 ∧
    (late (msg k amount)).NothingToForfeit record := by
  refine ⟨⟨⟨rfl, rfl, Nat.zero_lt_succ _, fun _ h => (List.not_mem_nil h).elim⟩, mapped (msg k amount), by decide, rfl⟩,
    ⟨Or.inl rfl, rfl, record_verifies, dir_inOrder _ valid_card rfl 5, rfl⟩, Or.inl ?_⟩
  rw [State.date, show (late (msg k amount)).clock = ⟨⟨100, 43200000⟩, 4, false⟩ from rfl]
  decide +kernel

/-- COMPLETE and RELEASE whose hold is not OPEN, noted or unknown, and those that waited while it went. -/
theorem settle_declined : ∀ k ∈ [TillKind.complete, .release],
    let s := keeping data [{ hold with state := .new }] (msg k 900)
    s.Trading 0 (msg k 900) [] noted ∧ s.holdByKey 5 9#32 = some { hold with state := .new } ∧
    ({ hold with state := .new } : Hold).state ≠ .opened ∧ s.Found card (sealRecord data 0) 0 ∧ s.NothingToForfeit (sealRecord data 0) ∧
    s.holdById 0 = some { hold with state := .new } ∧
    (late (msg k 900)).Trading 0 (msg k 900) [] noted ∧ (late (msg k 900)).holdByKey 5 9#32 = none ∧
    (∃ y ∈ (late (msg k 900)).notes, y.site = 5 ∧ y.ref = 9#32) ∧ (late (msg k 900)).Found card record 0 ∧
    (late (msg k 900)).NothingToForfeit record ∧ (late (msg k 900)).holdById 0 = none ∧ (∃ y ∈ (late (msg k 900)).notes, y.hold = 0) ∧
    (asking (msg k 900)).Trading 0 (msg k 900) [] noted ∧ (asking (msg k 900)).holdByKey 5 9#32 = none ∧ (asking (msg k 900)).notes = [] ∧
    (asking (msg k 900)).holdById 0 = none ∧ (asking (msg k 900)).renoted = [] ∧ (asking (msg k 900)).lowestFree 0 ∧
    (bound k).msg.kind = k ∧ (bound k).bound = .hold 0 card := by
  intro k _
  have g := keeping_good data (by decide) [{ hold with state := .new }] k 900
  have h := late_good k 900
  exact ⟨g.1, rfl, by decide, g.2.1.toFound, g.2.2.1, rfl, h.1, rfl, ⟨_, List.mem_singleton.mpr rfl, rfl, rfl⟩, h.2.1, h.2.2, rfl,
    ⟨_, List.mem_singleton.mpr rfl, rfl⟩, trading _ _, rfl, rfl, rfl, rfl, ⟨by decide, rfl, by omega⟩, rfl, rfl⟩

/-- The part in FROZEN with the hold live and the card's way as it may be when its record is not there. -/
def frozen (st : WayState) (m : TillMsg) : State :=
  { holding m with dirMode := .frozen, dir := Table.empty.set DirSet.default (setOf card) (setWith st) }

theorem trading_frozen (st : WayState) (k : TillKind) (amount : Nat) : (frozen st (msg k amount)).Trading 0 (msg k amount) [] noted :=
  ⟨⟨rfl, rfl, Nat.zero_lt_succ _, fun _ h => (List.not_mem_nil h).elim⟩, mapped (msg k amount), by decide, rfl⟩

theorem witness_CompleteCapturesTheHold : ∀ c ∈ crowds,
    let s := crowded (holding (msg .complete 1200)) c.1 c.2
    s.Trading 0 (msg .complete 1200) [] noted ∧ fieldsGood (msg .complete 1200) ∧ 1 ≤ (msg .complete 1200).amount.toNat ∧
    (msg .complete 1200).amount.toNat ≤ 9999999 ∧ noted.site = some 5 ∧ s.holdByKey 5 (msg .complete 1200).holdRef = some hold ∧
    s.holdById hold.id = some hold ∧ hold.state = .opened ∧ s.Hit hold.card record 0 ∧ s.NothingToForfeit record ∧
    captureFor hold.bonus hold.core hold.tip (msg .complete 1200).amount.toNat (s.freeCore record.data) = some ⟨300, 700, 200, false⟩ ∧
    (frozen .invalid (msg .complete 1200)).Trading 0 (msg .complete 1200) [] noted ∧
    (frozen (.reserved card) (msg .complete 1200)).Trading 0 (msg .complete 1200) [] noted ∧
    (frozen .invalid (msg .complete 1200)).passThrough card = false ∧ (frozen .invalid (msg .complete 1200)).recordOf card = none ∧
    (frozen (.reserved card) (msg .complete 1200)).recordOf card = none ∧
    (frozen .invalid (msg .complete 1200)).holdByKey 5 9#32 = some hold :=
  fun _ _ => ⟨(trading_held_crowded _ _ _ _).1, fields_good _ _ (by simp), by decide, by decide, rfl, rfl, rfl, rfl,
    (trading_held_crowded _ _ _ _).2, (nothing_to_forfeit _ _ _).2, by
      rw [(crowded_funds _ _ _ record.data 0 Effect.coreDebit).2.2.1]
      decide +kernel, trading_frozen _ _ _, trading_frozen _ _ _, rfl, rfl, rfl, rfl⟩

/-- The part in NORMAL with the hold live and no way of its card's set free for it. -/
def crammedHeld (m : TillMsg) : State := { holding m with dir := full.dir }

theorem crammedHeld_good (k : TillKind) :
    (crammedHeld (msg k 900)).Trading 0 (msg k 900) [] noted ∧ (crammedHeld (msg k 900)).holdByKey 5 9#32 = some hold ∧
    (crammedHeld (msg k 900)).dirMode = .normal ∧ (crammedHeld (msg k 900)).findWay card = none ∧
    (crammedHeld (msg k 900)).victim card = none ∧ (crammedHeld (msg k 900)).passThrough card = false :=
  ⟨⟨⟨rfl, rfl, Nat.zero_lt_succ _, fun _ h => (List.not_mem_nil h).elim⟩, mapped (msg k 900), by decide, rfl⟩, rfl, rfl, rfl, rfl, rfl⟩

theorem witness_CompleteCapturesTheHold_declined :
    (crammedHeld (msg .complete 900)).victim card = none ∧ (holding (msg .complete 1201)).Hit card record 0 ∧
    captureFor hold.bonus hold.core hold.tip (msg .complete 1201).amount.toNat ((holding (msg .complete 1201)).freeCore record.data) = none ∧
    (late (msg .complete 900)).holdById 0 = none ∧ (keeping data [{ hold with state := .new }] (msg .complete 900)).holdById 0 ≠ none :=
  ⟨(crammedHeld_good .complete).2.2.2.2.1, hit_held _, by decide +kernel, (settle_declined .complete (by decide)).2.2.2.2.2.2.2.2.2.2.2.1,
    by rw [(settle_declined .complete (by decide)).2.2.2.2.2.1]; exact Option.some_ne_none _⟩

theorem witness_ReleaseFreesTheHold :
    let s := holding (msg .release 0)
    s.Trading 0 (msg .release 0) [] noted ∧ (msg .release 0).holdRef ≠ 0#32 ∧ noted.site = some 5 ∧
    s.holdByKey 5 (msg .release 0).holdRef = some hold ∧ s.holdById hold.id = some hold ∧ hold.state = .opened ∧
    s.Hit hold.card record 0 ∧ inDate record.data s.date = true ∧
    (frozen .invalid (msg .release 0)).Trading 0 (msg .release 0) [] noted ∧
    (frozen (.reserved card) (msg .release 0)).Trading 0 (msg .release 0) [] noted ∧
    (frozen (.reserved card) (msg .release 0)).recordOf card = none ∧ (frozen .invalid (msg .release 0)).recordOf card = none ∧
    (frozen .invalid (msg .release 0)).passThrough card = false ∧ (frozen .invalid (msg .release 0)).holdById hold.id = some hold :=
  ⟨trading_held _ _, by decide, rfl, rfl, rfl, rfl, hit_held _, by decide +kernel, trading_frozen _ _ _, trading_frozen _ _ _, rfl, rfl,
    rfl, rfl⟩

theorem witness_ReleaseFreesTheHold_declined :
    (crammedHeld (msg .release 900)).victim card = none ∧ (late (msg .release 900)).holdById 0 = none ∧
    (keeping data [{ hold with state := .new }] (msg .release 900)).holdById 0 ≠ none :=
  ⟨(crammedHeld_good .release).2.2.2.2.1, (settle_declined .release (by decide)).2.2.2.2.2.2.2.2.2.2.2.1,
    by rw [(settle_declined .release (by decide)).2.2.2.2.2.1]; exact Option.some_ne_none _⟩

/-- R93: in FROZEN a RELEASE is taken without its card while a fetch of before the freeze still holds the card's way. -/
theorem test_frozen_release :
    (match exec (.release 0) (frozen (.reserved card) (msg .release 0)) with
     | .next t => (t.holds, (t.link 0).replies.map (fun e => match e.state with
        | .ready r _ _ => (r.outcome, r.approved, r.free)
        | _ => (.declined, 0, none)))
     | _ => ([hold], [])) = ([], [(.approved, 1000, none)]) := by decide +kernel

/-- The part in a directory mode, its card in a way or in none, with till 19's entry a STAND-IN and its REVERSE at the front. -/
def reversing (mode : DirMode) (st : WayState) (reserved : Nat) (refusing : Bool) : State :=
  { crowded (part st (linkUp 2 [msg .reverse 0] [])) reserved refusing with
    dirMode := mode
    tills := Table.empty.set Till.default 19 ⟨true, 1, 900, 0, 1, 0, false, [{ debit with kind := .standIn, bonus := 0, core := 900 }]⟩ }

/-- R78: the REVERSE of a STAND-IN entry whose card is in no way is journal-only, in OFF too. -/
theorem test_journal_only :
    (match exec (.reverse 0) (reversing .off .invalid 4094 true) with
     | .next t => (t.journal.records.map (fun r => (r.kind, r.bonusDelta, r.coreDelta)), t.journal.reserved, t.journal.refusing,
        t.out.length)
     | _ => ([], 0, true, 0)) = ([(.reversal, 0, 900)], 4095, false, 1) := by decide +kernel

theorem witness_ReverseMarksItsEntry : ∀ c ∈ crowds, ∀ mode ∈ [DirMode.off, .warming, .normal, .frozen, .flushing .off],
    let s := crowded (asking (msg .reverse 0)) c.1 c.2
    let x : StackEntry := { debit with kind := .standIn, bonus := 0, core := 900 }
    let t := reversing .frozen (.valid record 0) c.1 c.2
    let u := reversing mode .invalid c.1 c.2
    s.Trading 0 (msg .reverse 0) [] noted ∧ (msg .reverse 0).tillRef ≠ 0#32 ∧
    stackCheck (msg .reverse 0).tillRef false (s.till noted.till).stack = .found debit ∧
    s.Found debit.card record 0 ∧ s.passThrough debit.card = false ∧ s.NothingToForfeit record ∧
    record.data.core + s.pendingSum debit.card Effect.coreCredit + debit.core + s.pendingSum debit.card Effect.coreDebit ≤ 9999999 ∧
    record.data.bonus + s.pendingSum debit.card Effect.bonusCredit + 300 + s.pendingSum debit.card Effect.bonusDebit ≤ 9999999 ∧
    t.Trading 0 (msg .reverse 0) [] noted ∧ stackCheck (msg .reverse 0).tillRef false (t.till noted.till).stack = .found x ∧
    t.Found x.card record 0 ∧ x.kind = .standIn ∧ t.NothingToForfeit record ∧
    record.data.core + t.pendingSum x.card Effect.coreCredit + x.core + t.pendingSum x.card Effect.coreDebit ≤ 9999999 ∧
    u.Trading 0 (msg .reverse 0) [] noted ∧ stackCheck (msg .reverse 0).tillRef false (u.till noted.till).stack = .found x ∧
    u.findWay x.card = none ∧ u.fetchFor x.card = none := by
  intro c _ mode _
  have trade (st : WayState) (mode : DirMode) : (reversing mode st c.1 c.2).Trading 0 (msg .reverse 0) [] noted :=
    ⟨⟨rfl, rfl, Nat.zero_lt_succ _, fun _ h => (List.not_mem_nil h).elim⟩, mapped (msg .reverse 0), by decide, rfl⟩
  have sum (mode : DirMode) (st : WayState) (k : Nat) (f : Effect → Nat) : (reversing mode st c.1 c.2).pendingSum k f = 0 := rfl
  refine ⟨(trading_crowded _ _ _ _).1, by decide, rfl, (trading_crowded _ _ _ _).2.toFound, rfl, (nothing_to_forfeit _ _ _).1, ?_, ?_,
    trade _ _, rfl, ⟨Or.inr rfl, rfl, record_verifies, dir_inOrder _ valid_card rfl 5, rfl⟩, rfl, Or.inl ?_, ?_, trade _ _, rfl, rfl, rfl⟩
  · rw [(crowded_funds _ _ _ data _ _).2.2.2, (crowded_funds _ _ _ data _ _).2.2.2]
    decide +kernel
  · rw [(crowded_funds _ _ _ data _ _).2.2.2, (crowded_funds _ _ _ data _ _).2.2.2]
    decide +kernel
  · rw [State.date, show (reversing .frozen (.valid record 0) c.1 c.2).clock = ⟨⟨100, 43200000⟩, 4, false⟩ from rfl]
    decide +kernel
  · rw [sum, sum]
    decide +kernel

/-- The part with a stack at till 19 and a REVERSE at the front. -/
def stacked (d : CardData) (stack : List StackEntry) : State :=
  { keeping d [] (msg .reverse 0) with tills := Table.empty.set Till.default 19 ⟨true, 1, 900, 0, 1, 0, false, stack⟩ }

theorem witness_ReverseMarksItsEntry_declined :
    let other (reversing : Bool) : StackEntry := { debit with id := 4, ref := 8#32, reversing := reversing }
    (∀ stack ∈ [[], [{ debit with reversing := true }], [other false, debit], [other true, debit]],
      (stacked data stack).Trading 0 (msg .reverse 0) [] noted ∧ ((stacked data stack).till noted.till).stack = stack) ∧
    (∀ x ∈ ([] : List StackEntry), x.ref ≠ (msg .reverse 0).tillRef) ∧ debit.ref = (msg .reverse 0).tillRef ∧
    [other true, debit] = [other true] ++ debit :: [] ∧ (∀ b, ∀ y ∈ [other b], y.ref ≠ (msg .reverse 0).tillRef) ∧
    (∃ y ∈ [other false], y.reversing = false) ∧ (∀ y ∈ [other true], y.reversing = true) ∧
    (stacked nearCeiling [debit]).Found card (sealRecord nearCeiling 0) 0 ∧
    ¬ (nearCeiling.core + (stacked nearCeiling [debit]).pendingSum card Effect.coreCredit + debit.core +
      (stacked nearCeiling [debit]).pendingSum card Effect.coreDebit ≤ 9999999) := by
  refine ⟨fun stack hs => ?_, by decide, rfl, rfl, by decide, by decide, by decide,
    ⟨Or.inl rfl, rfl, sealRecord_verifies _ 0, dir_inOrder _ (by decide) rfl 5, rfl⟩, by decide +kernel⟩
  simp only [List.mem_cons, List.not_mem_nil, or_false] at hs
  rcases hs with rfl | rfl | rfl | rfl <;>
    exact ⟨⟨⟨rfl, rfl, Nat.zero_lt_succ _, fun _ h => (List.not_mem_nil h).elim⟩, mapped (msg .reverse 0), by decide, rfl⟩, rfl⟩

theorem witness_DebitsAndCapturesStayWithinFreeFunds :
    (min 0 (900 * 50 / 100) + 0 = 0) ∧ (min 300 (1000 * 50 / 100) + 400 < 1000) ∧
    (0 < min 300 (700 * 50 / 100) + 400 ∧ 700 ≤ min 300 (700 * 50 / 100) + 400) ∧ (1000 : Nat) ≤ 300 + 700 ∧
    (300 + 700) * 20 / 100 < 1201 - (300 + 700) ∧ (300 + 700 < 1200 ∧ 1200 - (300 + 700) ≤ (300 + 700) * 20 / 100) := by decide

/-- The part without the card, in a directory mode. -/
def missing (mode : DirMode) : State := { part .invalid (linkUp 2 [msg .redeem 900] []) with dirMode := mode }

/-- The part with every way of the card's set RESERVED for another card. -/
def crammed : State := { missing .normal with dir := full.dir }

/-- R8: a miss in NORMAL with no victim is referred. -/
theorem test_no_victim :
    (match exec (.redeem 0) crammed with
     | .next t => t.out
     | _ => []) = [.referral 0 1 (msg .redeem 900) none 19 371] := by decide +kernel

/-- The requests that reach the directory, as they are bound; the last is the REVERSE of a STAND-IN entry. -/
def reaches : List (TillKind × Binding) :=
  [(.enquiry, .free), (.redeem, .free), (.hold, .free), (.reload, .free), (.complete, .hold 0 card), (.release, .hold 0 card),
   (.reverse, .entry debit), (.reverse, .entry { debit with kind := .standIn })]

/-- The part with one of them at the front, in a directory mode, with the card in a way or in none. -/
def reaching (k : TillKind) (b : Binding) (mode : DirMode) (dir : Table DirSet) (requests : Table (Option HostEntry)) (pass : Nat) : State :=
  { asking (msg k 900) with
    dirMode := mode, dir := dir, requests := requests, passRanges := Table.empty.set ⟨0, 0⟩ 0 ⟨1000000000016000, pass⟩
    holds := match b with
      | .hold _ _ => [hold]
      | _ => []
    tills := Table.empty.set Till.default 19 ⟨true, 1, 900, 0, 1, 0, false, match b with
      | .entry x => [x]
      | _ => [debit]⟩ }

theorem reaching_asks : ∀ x ∈ reaches, ∀ mode dir requests pass,
    (reaching x.1 x.2 mode dir requests pass).Asks 0 (msg x.1 900) [] noted x.2 card := by
  intro x hx mode dir requests pass
  have trade : (reaching x.1 x.2 mode dir requests pass).Trading 0 (msg x.1 900) [] noted :=
    ⟨⟨rfl, rfl, Nat.zero_lt_succ _, fun _ h => (List.not_mem_nil h).elim⟩, mapped (msg x.1 900), by decide, rfl⟩
  have amount (k : TillKind) : readsAmount (msg k 900) → 1 ≤ (msg k 900).amount.toNat ∧ (msg k 900).amount.toNat ≤ 9999999 :=
    fun _ => (by decide : 1 ≤ (900#32).toNat ∧ (900#32).toNat ≤ 9999999)
  have prog : ((reaching x.1 x.2 mode dir requests pass).programOf card).isSome = true :=
    (congrArg Option.isSome (show _ = ({ State.reset with programs := Table.empty.set Program.default 0 program } : State).programOf card
      from rfl)).trans (by decide +kernel)
  simp only [reaches, List.mem_cons, List.not_mem_nil, or_false] at hx
  rcases hx with rfl | rfl | rfl | rfl | rfl | rfl | rfl | rfl
  · exact ⟨trade, fields_good _ _ (by simp), amount _, rfl, card_sent, prog⟩
  · exact ⟨trade, fields_good _ _ (by simp), amount _, rfl, card_sent, prog⟩
  · exact ⟨trade, fields_good _ _ (by simp), amount _, rfl, card_sent, prog, 5, rfl, rfl⟩
  · exact ⟨trade, fields_good _ _ (by simp), amount _, rfl, card_sent, prog⟩
  · exact ⟨trade, fields_good _ _ (by simp), amount _, 5, hold, rfl, rfl, rfl, rfl, rfl⟩
  · exact ⟨trade, (by decide : (9#32 : Word32) ≠ 0#32), amount _, 5, hold, rfl, rfl, rfl, rfl, rfl⟩
  · exact ⟨trade, (by decide : (7#32 : Word32) ≠ 0#32), amount _, debit, rfl, rfl, rfl⟩
  · exact ⟨trade, (by decide : (7#32 : Word32) ≠ 0#32), amount _, { debit with kind := .standIn }, rfl, rfl, rfl⟩

/-- The directory with nothing in the card's set but `st`. -/
def dirWith (st : WayState) : Table DirSet := Table.empty.set DirSet.default 5 (setWith st)

/-- Every tag taken. -/
def allTags : Table (Option HostEntry) := ⟨(List.range 256).map (fun k => (k, some ⟨1, [], 400, .referral { referral with abandoned := true }⟩))⟩

/-- A fetch of the card in tag 0, with so many requests on its wait list. -/
def queued (waiters : Nat) : Table (Option HostEntry) :=
  Table.empty.set none 0 (some ⟨1, [], 400, .fetch (fetch true ((List.range waiters).map (fun n => ⟨1, n⟩)))⟩)

theorem witness_MissesFetchOrRefer : ∀ x ∈ reaches,
    let at_ (mode : DirMode) (st : WayState) (requests : Table (Option HostEntry)) (pass : Nat) : State :=
      reaching x.1 x.2 mode (dirWith st) requests pass
    (∀ mode st requests pass, (at_ mode st requests pass).Asks 0 (msg x.1 900) [] noted x.2 card) ∧
    (at_ .normal .invalid Table.empty 0).findWay card = none ∧ (at_ .normal .invalid Table.empty 0).passThrough card = false ∧
    (at_ .normal .invalid Table.empty 0).victim card = some 0 ∧
    ((at_ .normal .invalid Table.empty 0).dirSet (setOf card)).inOrder (setOf card) ∧ (at_ .normal .invalid Table.empty 0).lowestFree 0 ∧
    (∀ k, k < 256 → ((at_ .normal .invalid allTags 0).request k).isSome = true) ∧ (at_ .normal .invalid allTags 0).victim card = some 0 ∧
    (at_ .off (.valid record 0) Table.empty 1000).passThrough card = true ∧ (at_ .frozen .invalid Table.empty 0).findWay card = none ∧
    (at_ (.flushing .off) .invalid Table.empty 0).dirMode.isFlushing = true ∧
    (reaching x.1 x.2 .normal full.dir Table.empty 0).victim card = none ∧
    (reaching x.1 x.2 .normal full.dir Table.empty 0).findWay card = none ∧
    (at_ (.flushing .off) (.valid record 0) Table.empty 0).findWay card = some ⟨3, .valid record 0⟩ ∧
    (∀ n ∈ [15, 16], (at_ .normal (.reserved card) (queued n) 0).findWay card = some ⟨3, .reserved card⟩ ∧
      (at_ .normal (.reserved card) (queued n) 0).request 0 =
        some ⟨1, [], 400, .fetch (fetch true ((List.range n).map (fun k => ⟨1, k⟩)))⟩ ∧
      (∀ a g, (at_ .normal (.reserved card) (queued n) 0).fetchAt a = some g → a = 0) ∧
      (fetch true ((List.range n).map (fun k => ⟨1, k⟩))).waiters.length = n) := by
  intro x hx
  refine ⟨fun mode st requests pass => reaching_asks x hx mode _ requests pass, rfl, rfl, rfl, dir_inOrder .invalid (by decide) rfl 5,
    ⟨by decide, rfl, by omega⟩, ?_, rfl, ?_, rfl, rfl, rfl, rfl, rfl, fun n hn => ?_⟩
  · exact (by decide +kernel : ∀ k, k < 256 → (allTags.get none k).isSome = true)
  · exact (show _ = ({ State.reset with passRanges := Table.empty.set ⟨0, 0⟩ 0 ⟨1000000000016000, 1000⟩ } : State).passThrough card
      from rfl).trans (by decide +kernel)
  · refine ⟨rfl, ?_, fun a g h => ?_, ?_⟩
    · simp only [List.mem_cons, List.not_mem_nil, or_false] at hn
      rcases hn with rfl | rfl <;> rfl
    · have hq : (queued n).get none a =
          if a = 0 then some ⟨1, [], 400, .fetch (fetch true ((List.range n).map (fun k => ⟨1, k⟩)))⟩ else none :=
        Table.get_set none Table.empty 0 a _
      by_cases h0 : a = 0
      · exact h0
      · have hr : (reaching x.1 x.2 .normal (dirWith (.reserved card)) (queued n) 0).request a = none := by
          rw [State.request, show (reaching x.1 x.2 .normal (dirWith (.reserved card)) (queued n) 0).requests = queued n from rfl, hq, if_neg h0]
        rw [State.fetchAt, hr] at h
        cases h
    · simp [fetch]

theorem witness_TimersEndTheQuestionsToTheHost :
    let s := fetching .enquiry false [⟨0, 0⟩]
    s.fetchAt 0 = some (fetch false [⟨0, 0⟩]) ∧ s.reservedFor (fetch false [⟨0, 0⟩]) ∧ (s.dirSet 5).inOrder 5 ∧
    s.dirMode.isFlushing = false ∧ (fetching .enquiry true []).fetchAt 0 = some (fetch true []) ∧
    (fetching .enquiry true []).reservedFor (fetch true []) ∧ s.entry 0 0 = some (waiting .enquiry) ∧
    (waiting .enquiry).bound = .free ∧ (waiting .enquiry).msg.kind ≠ .redeem ∧
    (referring .normal true).request 0 = some ⟨1, [], 400, .referral { referral with abandoned := true }⟩ ∧
    (referring .normal false).request 0 = some ⟨1, [], 400, .referral referral⟩ ∧ referral.abandoned = false ∧
    (referring .normal false).entry referral.link referral.slot = some (waiting .enquiry) :=
  ⟨rfl, ⟨by decide, rfl⟩, fetching_inOrder _ _ _, rfl, rfl, ⟨by decide, rfl⟩, rfl, rfl, by decide, rfl, rfl, rfl, rfl⟩

theorem witness_StandInTakesTheRoomThatIsLeft :
    let s := part .invalid (linkUp 2 [] [waiting .redeem])
    (waiting .redeem).noted = some noted ∧ (waiting .redeem).bound = .free ∧ (waiting .redeem).msg.kind = .redeem ∧
    s.programOf card = some program ∧ s.findWay card = none ∧ s.fetchFor card = none ∧ s.exposures.cells.length < 2048 ∧
    s.journal.records.length + s.journal.reserved + 2 ≤ 4096 ∧
    0 < program.limits.standInLimit - (s.exposure card).amount ∧
    (waiting .redeem).msg.amount.toNat ≤ program.limits.standInLimit - (s.exposure card).amount ∧
    ({ s with exposures := Table.empty.set Exposure.none card ⟨2000, 1⟩ } : State).exposure card ≠ ⟨0, 0⟩ ∧
    program.limits.standInLimit - (({ s with exposures := Table.empty.set Exposure.none card ⟨2000, 1⟩ } : State).exposure card).amount = 0 := by
  refine ⟨rfl, rfl, rfl, rfl, rfl, rfl, by decide, by decide, by decide, by decide, by decide +kernel, by decide +kernel⟩

/-! Unconfirmed effects. -/

/-- A part with a READY or GATED reply on link 0, its record in the journal, as a request left it. -/
def confirming (x : CardRecord) (st : ReplyState) (k : TillKind) : State :=
  { part (.valid x 0) (linkUp 2 [] [{ waiting k with state := st }]) with
    journal := ⟨[journalled 1], 2, 1, 1, true, false, 0⟩, nextSlot := 1 }

def approval (k : TillKind) : TillReply :=
  { hostReply with kind := kindByte k, hostDecided := false, bonus := if k = .reload then 0 else 450, core := if k = .reload then 900 else 450 }

def redeemed : UndoRecord := ⟨card, .redeem 450 450, some 0, some 1, some ⟨371, 19, 7#32⟩⟩
def reloaded : UndoRecord := ⟨card, .reload 900, some 0, some 1, some ⟨371, 19, 7#32⟩⟩
def counted : CardRecord := sealRecord { data with bonus := 250, core := 4550, uses := 1, stamp := 100 } 1

def stoodIn : UndoRecord := ⟨card, .standIn 900 100, none, some 1, some ⟨371, 19, 7#32⟩⟩
def standInReply : TillReply := { approval .redeem with standIn := true, bonus := 0, core := 900 }

theorem witness_DeliveryOfADebitReachesTheTill :
    let e : ReplyEntry := { waiting .redeem with state := .ready (approval .redeem) (some redeemed) none }
    let s := confirming counted (.ready (approval .redeem) (some redeemed) none) .redeem
    let f : ReplyEntry := { waiting .redeem with state := .ready standInReply (some stoodIn) none }
    let u := confirming counted (.ready standInReply (some stoodIn) none) .redeem
    (s.link 0).state = .up ∧ oldestReady (s.link 0).replies = some (e, approval .redeem, some redeemed) ∧ e.msg.kind = .redeem ∧
    e.noted = some noted ∧ e.bound = .free ∧ redeemed.sequence = some 1 ∧ (∃ b c, redeemed.effect = .redeem b c) ∧
    (approval .redeem).training = false ∧ (approval .redeem).standIn = false ∧ (approval .redeem).outcome = .approved ∧
    s.dirMode.isFlushing = false ∧ ((s.till noted.till).isOpen ∧ (s.till noted.till).shift = noted.shift) ∧
    oldestReady (u.link 0).replies = some (f, standInReply, some stoodIn) ∧ standInReply.standIn = true ∧
    stoodIn.effect = .standIn 900 100 ∧ stoodIn.sequence = some 1 :=
  ⟨rfl, rfl, rfl, rfl, rfl, rfl, ⟨_, _, rfl⟩, rfl, rfl, rfl, rfl, ⟨rfl, rfl⟩, rfl, rfl, rfl, rfl⟩

theorem witness_DeliveryOfACreditReachesTheCard :
    let e : ReplyEntry := { waiting .reload with state := .ready (approval .reload) (some reloaded) none }
    let s := confirming (sealRecord data 1) (.ready (approval .reload) (some reloaded) none) .reload
    (s.link 0).state = .up ∧ oldestReady (s.link 0).replies = some (e, approval .reload, some reloaded) ∧ e.msg.kind = .reload ∧
    e.noted = some noted ∧ e.bound = .free ∧ reloaded.sequence = some 1 ∧ reloaded.effect = .reload 900 ∧
    (approval .reload).outcome = .approved ∧ s.dirMode.isFlushing = false ∧ s.recordOf reloaded.card = some (sealRecord data 1, 0) ∧
    (sealRecord data 1).verifies = true ∧ (s.dirSet (setOf reloaded.card)).inOrder (setOf reloaded.card) :=
  ⟨rfl, rfl, rfl, rfl, rfl, rfl, rfl, rfl, rfl, rfl, sealRecord_verifies data 1, dir_inOrder (.valid (sealRecord data 1) 0) (by decide) rfl 5⟩

/-- A READY REVERSE of till 19's entry, of a DEBIT or of a STAND-IN of that day, as its request left it. -/
def reversed (x : StackEntry) : ReplyEntry :=
  { waiting .reverse with bound := .entry x, state := .ready (approval .reverse) (some ⟨card, .reverse 450 450, some 0, some 1, some ⟨371, 19, 7#32⟩⟩) none }

def standInEntry : StackEntry := { debit with kind := .standIn, bonus := 0, core := 900, approvalDate := some 100, reversing := true }

/-- The part that is about to deliver it. -/
def returning (x : StackEntry) : State :=
  { part (.valid (sealRecord data 1) 0) (linkUp 2 [] [reversed x]) with
    journal := ⟨[journalled 1], 2, 1, 1, true, false, 0⟩, nextSlot := 1
    tills := Table.empty.set Till.default 19 ⟨true, 1, 900, 0, 1, 0, false, [x]⟩
    exposures := Table.empty.set Exposure.none card ⟨900, 1⟩ }

theorem witness_DeliveryOfAReverseReturnsTheMoney :
    let u : UndoRecord := ⟨card, .reverse 450 450, some 0, some 1, some ⟨371, 19, 7#32⟩⟩
    let s := returning { debit with reversing := true }
    (s.link 0).state = .up ∧ oldestReady (s.link 0).replies = some (reversed { debit with reversing := true }, approval .reverse, some u) ∧
    (reversed debit).msg.kind = .reverse ∧ (reversed debit).noted = some noted ∧ (reversed debit).bound = .entry debit ∧
    u.sequence = some 1 ∧ u.effect = .reverse 450 450 ∧ (approval .reverse).outcome = .approved ∧ s.dirMode.isFlushing = false ∧
    s.recordOf card = some (sealRecord data 1, 0) ∧ (sealRecord data 1).verifies = true ∧ (s.dirSet (setOf card)).inOrder (setOf card) ∧
    oldestReady ((returning standInEntry).link 0).replies = some (reversed standInEntry, approval .reverse, some u) ∧
    standInEntry.approvalDate = some (returning standInEntry).date ∧ (returning standInEntry).exposure card = ⟨900, 1⟩ :=
  ⟨rfl, rfl, rfl, rfl, rfl, rfl, rfl, rfl, rfl, rfl, sealRecord_verifies data 1, dir_inOrder (.valid (sealRecord data 1) 0) (by decide) rfl 5,
    rfl, by decide, rfl⟩

/-- The part that is about to deliver a HOLD's or a COMPLETE's reply, with the hold in a state. -/
def settling (k : TillKind) (b : Binding) (st : HoldState) (u : UndoRecord) (now : Reading) : State :=
  { part (.valid (sealRecord data 0) 0) (linkUp 2 [] [{ waiting k with bound := b, state := .ready (approval k) (some u) none }]) with
    clock := ⟨now, 4, false⟩, holds := [{ hold with state := st }], nextHold := 1, siteHolds := Table.empty.set 0 5 1, nextSlot := 1
    journal := ⟨[], 1, 0, 1, true, false, 0⟩ }

def heldUndo : UndoRecord := ⟨card, .hold 0, some 0, none, none⟩
def capturedUndo : UndoRecord := ⟨card, .capture 0 300 700 200, some 0, some 1, some ⟨371, 19, 7#32⟩⟩

theorem witness_DeliveryOfAHoldAndACompleteSettleTheHold :
    let e (k : TillKind) (b : Binding) (u : UndoRecord) : ReplyEntry :=
      { waiting k with bound := b, state := .ready (approval k) (some u) none }
    let s := settling .hold .free .new heldUndo ⟨100, 53999999⟩
    let due := settling .hold .free .new heldUndo ⟨100, 54000000⟩
    let c := settling .complete (.hold 0 card) (.capturing 300 700 200) capturedUndo ⟨100, 54000000⟩
    (s.link 0).state = .up ∧ oldestReady (s.link 0).replies = some (e .hold .free heldUndo, approval .hold, some heldUndo) ∧
    (e .hold .free heldUndo).noted = some noted ∧ (approval .hold).outcome = .approved ∧ s.dirMode.isFlushing = false ∧
    s.holdById hold.id = some { hold with state := .new } ∧ heldUndo.effect = .hold hold.id ∧ heldUndo.sequence = none ∧
    s.now.ms < hold.expiry.ms ∧ due.clock.notSet = false ∧ hold.expiry.ms ≤ due.now.ms ∧
    oldestReady (c.link 0).replies =
      some (e .complete (.hold 0 card) capturedUndo, approval .complete, some capturedUndo) ∧
    (e .complete (.hold 0 card) capturedUndo).bound = .hold hold.id card ∧ capturedUndo.effect = .capture hold.id 300 700 200 ∧
    capturedUndo.sequence = some 1 ∧ (approval .complete).training = false := by
  refine ⟨rfl, rfl, rfl, rfl, rfl, rfl, rfl, rfl, by decide, rfl, by decide, rfl, rfl, rfl, rfl, rfl⟩

/-- The part with one READY reply on link 0, and the card in a way or in none. -/
def delivering (k : TillKind) (b : Binding) (reply : TillReply) (u : Option UndoRecord) (way : WayState) : State :=
  { part way (linkUp 2 [] [{ waiting k with bound := b, state := .ready reply u none }]) with
    journal := ⟨[journalled 1], 2, 1, 1, true, false, 0⟩, nextSlot := 1, exposures := Table.empty.set Exposure.none card ⟨900, 1⟩ }

theorem delivering_ready (k : TillKind) (b : Binding) (reply : TillReply) (u : Option UndoRecord) (way : WayState) :
    let e : ReplyEntry := { waiting k with bound := b, state := .ready reply u none }
    ((delivering k b reply u way).link 0).state = .up ∧
    oldestReady ((delivering k b reply u way).link 0).replies = some (e, reply, u) ∧ e.noted = some noted ∧ e.msg.kind = k ∧ e.bound = b :=
  ⟨rfl, rfl, rfl, rfl, rfl⟩

def declinedOf (k : TillKind) : TillReply := declinedReply (msg k 900) .insufficient none

/-- Replies with no undo record: training answers, relayed approvals, and those that move no money; and undo records whose card is resident no
more. `delivering_ready` gives the rest of the hypotheses at each. -/
theorem witness_DeliveryOfADebitReachesTheTill_other :
    (trainingReply (msg .complete 900) 900).training = true ∧ (approval .redeem).outcome = .approved ∧
    (approval .redeem).training = false ∧ (approval .redeem).standIn = false ∧ cardOfBcd (msg .redeem 900).card = some card ∧
    oldestReady ((delivering .redeem .free (approval .redeem) none .invalid).link 0).replies =
      some ({ waiting .redeem with state := .ready (approval .redeem) none none }, approval .redeem, none) ∧
    oldestReady ((delivering .complete (.hold 0 card) (approval .complete) none .invalid).link 0).replies =
      some ({ waiting .complete with bound := .hold 0 card, state := .ready (approval .complete) none none }, approval .complete, none) ∧
    oldestReady ((delivering .complete .free (approval .complete) none .invalid).link 0).replies =
      some ({ waiting .complete with state := .ready (approval .complete) none none }, approval .complete, none) :=
  ⟨rfl, rfl, rfl, rfl, card_sent, rfl, rfl, rfl⟩

theorem witness_DeliveryOfACreditReachesTheCard_other :
    (delivering .reload .free (approval .reload) (some reloaded) .invalid).recordOf reloaded.card = none ∧
    oldestReady ((delivering .reload .free (approval .reload) (some reloaded) .invalid).link 0).replies =
      some ({ waiting .reload with state := .ready (approval .reload) (some reloaded) none }, approval .reload, some reloaded) ∧
    oldestReady ((delivering .reload .free (approval .reload) none .invalid).link 0).replies =
      some ({ waiting .reload with state := .ready (approval .reload) none none }, approval .reload, none) := ⟨rfl, rfl, rfl⟩

theorem witness_DeliveryOfAReverseReturnsTheMoney_other :
    let u : UndoRecord := ⟨card, .reverse 0 900, none, some 1, some ⟨371, 19, 7#32⟩⟩
    let b : Binding := .entry standInEntry
    (delivering .reverse b (approval .reverse) (some u) .invalid).recordOf u.card = none ∧ u.stay = none ∧
    oldestReady ((delivering .reverse b (approval .reverse) (some u) .invalid).link 0).replies =
      some ({ waiting .reverse with bound := b, state := .ready (approval .reverse) (some u) none }, approval .reverse, some u) ∧
    oldestReady ((delivering .reverse b (approval .reverse) none .invalid).link 0).replies =
      some ({ waiting .reverse with bound := b, state := .ready (approval .reverse) none none }, approval .reverse, none) ∧
    oldestReady ((delivering .reverse .free (trainingReply (msg .reverse 0) 0) none .invalid).link 0).replies =
      some ({ waiting .reverse with state := .ready (trainingReply (msg .reverse 0) 0) none none }, trainingReply (msg .reverse 0) 0, none) :=
  ⟨rfl, rfl, rfl, rfl, rfl⟩

theorem witness_DeliveryOfAHoldAndACompleteSettleTheHold_other :
    oldestReady ((delivering .redeem .free (declinedOf .redeem) none .invalid).link 0).replies =
      some ({ waiting .redeem with state := .ready (declinedOf .redeem) none none }, declinedOf .redeem, none) ∧
    (declinedOf .redeem).outcome = .declined ∧
    oldestReady ((delivering .enquiry .free (approval .enquiry) none .invalid).link 0).replies =
      some ({ waiting .enquiry with state := .ready (approval .enquiry) none none }, approval .enquiry, none) ∧
    (TillKind.enquiry ≠ .redeem ∧ TillKind.enquiry ≠ .complete ∧ TillKind.enquiry ≠ .reload ∧ TillKind.enquiry ≠ .reverse) ∧
    oldestReady ((delivering .reload .free { approval .reload with outcome := .partly } none .invalid).link 0).replies =
      some ({ waiting .reload with state := .ready { approval .reload with outcome := .partly } none none },
        { approval .reload with outcome := .partly }, none) := ⟨rfl, rfl, rfl, by decide, rfl⟩

/-- The part with a GATED stand-in approval of 900 on business date 100, the card in no way. -/
def standing (total : Nat) : State :=
  { part .invalid (linkUp 2 [] [{ waiting .redeem with state := .gated standInReply stoodIn 1 1500 }]) with
    journal := ⟨[journalled 1], 2, 1, 1, true, false, 0⟩, nextSlot := 1
    exposures := Table.empty.set Exposure.none card ⟨total, 2⟩ }

/-- R57, R121: withdrawn on the day of the approval, it gives the exposure back. -/
theorem test_stand_in_undo :
    (match exec (.gateTimeout 0 1) (standing 1500) with
     | .next t => (t.exposure card, t.journal.records.map (fun r => (r.kind, r.coreDelta, r.undone)), t.journal.reserved)
     | _ => (⟨0, 0⟩, [], 9)) = (⟨600, 1⟩, [(.debit, -450, none), (.undo, 900, some 1)], 0) := by decide +kernel

/-- R79, R142, R165: two links reach till 19. The loss of link 0 empties a REVERSE that was declined already, and the mark that link 1's
REVERSE has set since stays; a REVERSE of link 0 that had not ended would have cleared it. -/
theorem test_mark_of_another_link :
    let entry (st : ReplyState) : ReplyEntry := { waiting .reverse with bound := .entry debit, state := st }
    let s (st : ReplyState) : State := { part .invalid (linkUp 2 [] [entry st]) with
      tills := Table.empty.set Till.default 19 ⟨true, 1, 900, 0, 1, 0, false, [{ debit with reversing := true }]⟩ }
    let marks (st : ReplyState) : List Bool := match exec (.presenceTimeout 0) (s st) with
      | .next t => (t.till 19).stack.map (fun x => x.reversing)
      | _ => []
    marks (.ready (declinedReply (msg .reverse 0) .unavailable none) none none) = [true] ∧ marks .reserved = [false] := by decide +kernel

def reversal : UndoRecord := ⟨card, .reverse 450 450, some 0, some 1, some ⟨371, 19, 7#32⟩⟩

/-- A part with one entry in link 0's reply queue, a hold CAPTURING and an exposure. -/
def unmaking (way : WayState) (st : ReplyState) : State :=
  { part way (linkUp 2 [] [{ waiting .redeem with state := st }]) with
    journal := ⟨[journalled 1], 2, 1, 1, true, false, 0⟩, nextSlot := 1, nextHold := 1
    holds := [{ hold with bonus := 0, core := 0, state := .capturing 300 700 200 }], siteHolds := Table.empty.set 0 5 1
    exposures := Table.empty.set Exposure.none card ⟨900, 1⟩ }

theorem undoable_of {s : State} {u : UndoRecord} (hc : u.card = card) (hu : ∀ id, u.effect ≠ .hold id)
    (hs : ∀ x date, u.effect = .standIn x date → u.stay = none ∧ x = 900) (d : (s.dirSet 5).inOrder 5)
    (hf : ∀ a b f g, s.fetchAt a = some f → s.fetchAt b = some g → a = b)
    (hr : ∀ r stay, s.recordOf card = some (r, stay) → r.verifies = true ∧ r.data.core + 900 ≤ 9999999)
    (hh : ∀ h ∈ s.holds, s.now.ms < h.expiry.ms) : s.Undoable u := by
  have h5 : setOf u.card = 5 := by rw [hc]; decide
  refine ⟨hu, fun r stay h => ?_, ?_, ?_, fun x date h => ⟨(hs x date h).1, fun r stay hx => ?_⟩, fun _ _ _ _ _ h hm _ => Or.inr (hh h hm)⟩
  · rw [hc] at h; exact (hr r stay h).1
  · rw [h5]; exact d
  · exact fun a b f g ha hb _ _ => hf a b f g ha hb
  · rw [hc] at hx; rw [(hs x date h).2]; exact (hr r stay hx).2

theorem unmaking_undoable (st : ReplyState) {u : UndoRecord} (hc : u.card = card) (hu : ∀ id, u.effect ≠ .hold id)
    (hs : ∀ x date, u.effect = .standIn x date → u.stay = none ∧ x = 900) :
    (unmaking (.valid counted 0) st).Undoable u ∧ (unmaking .invalid st).Undoable u := by
  have held : ∀ way, ∀ h ∈ (unmaking way st).holds, (unmaking way st).now.ms < h.expiry.ms := by
    intro way h hh
    have hh : h = { hold with bonus := 0, core := 0, state := .capturing 300 700 200 } := by simpa [unmaking] using hh
    rw [hh]
    exact (by decide : (Reading.mk 100 43200000).ms < hold.expiry.ms)
  have r : (unmaking (.valid counted 0) st).recordOf card = some (counted, 0) := rfl
  have r' : (unmaking .invalid st).recordOf card = none := rfl
  refine ⟨undoable_of hc hu hs (dir_inOrder (.valid counted 0) (by decide) rfl 5) (fun a b f g h => (nomatch h)) (fun x y h => ?_) (held _),
    undoable_of hc hu hs (dir_inOrder .invalid (by decide) rfl 5) (fun a b f g h => (nomatch h)) (fun x y h => ?_) (held _)⟩
  · rw [r] at h
    cases h
    exact ⟨sealRecord_verifies _ _, by decide⟩
  · rw [r'] at h
    cases h

/-- Each effect with a journal record, in its stay and in a later one. -/
def undos : List UndoRecord :=
  [redeemed, { redeemed with stay := some 7 }, reloaded, { reloaded with stay := some 7 }, reversal, { reversal with stay := some 7 },
   capturedUndo, { capturedUndo with stay := some 7 }, stoodIn]

theorem undos_good (u : UndoRecord) (h : u ∈ undos) (st : ReplyState) :
    u.sequence = some 1 ∧ (unmaking (.valid counted 0) st).Undoable u ∧ (unmaking .invalid st).Undoable u := by
  simp only [undos, List.mem_cons, List.not_mem_nil, or_false] at h
  rcases h with rfl | rfl | rfl | rfl | rfl | rfl | rfl | rfl | rfl <;>
    exact ⟨rfl, unmaking_undoable st rfl (fun _ h => by cases h) (fun _ _ h => by cases h <;> exact ⟨rfl, rfl⟩)⟩

/-- The same part with the card's way RESERVED and its fetch SENT in tag 0. -/
def refetching (st : ReplyState) : State :=
  { unmaking (.reserved card) st with
    requests := Table.empty.set none 0 (some ⟨1, [], 400, .fetch (fetch true [])⟩), generations := Table.empty.set 0 0 1 }

theorem refetching_undoable (st : ReplyState) : (refetching st).Undoable redeemed ∧ (refetching st).fetchAt 0 = some (fetch true []) := by
  have fetches : ∀ a f, (refetching st).fetchAt a = some f → a = 0 := by
    intro a f h
    have hr : (refetching st).request a = if a = 0 then some ⟨1, [], 400, .fetch (fetch true [])⟩ else none :=
      Table.get_set none Table.empty 0 a _
    rw [State.fetchAt, hr] at h
    by_cases h0 : a = 0
    · exact h0
    · rw [if_neg h0] at h
      cases h
  refine ⟨undoable_of rfl (fun _ h => by cases h) (fun _ _ h => by cases h) (dir_inOrder (.reserved card) (by decide) rfl 5)
    (fun a b f g ha hb => (fetches a f ha).trans (fetches b g hb).symm) (fun r stay h => ?_) (fun h hh => ?_), rfl⟩
  · rw [show (refetching st).recordOf card = none from rfl] at h
    cases h
  · have hh : h = { hold with bonus := 0, core := 0, state := .capturing 300 700 200 } := by simpa [refetching, unmaking] using hh
    rw [hh]
    exact (by decide : (Reading.mk 100 43200000).ms < hold.expiry.ms)

theorem witness_GateTimeoutUndoesTheDebit_regated :
    let st : ReplyState := .gated (approval .redeem) redeemed 1 1500
    gatedOn 1 ((refetching st).link 0).replies = some ({ waiting .redeem with state := st }, approval .redeem, redeemed) ∧
    (refetching st).Undoable redeemed ∧ (refetching st).fetchAt 0 = some (fetch true []) ∧ (refetching st).dirMode.isFlushing = false :=
  ⟨rfl, (refetching_undoable _).1, (refetching_undoable _).2, rfl⟩

/-- R109: the UNDO record of a gate timeout re-gates the SENT fetch of its card. -/
theorem test_regate :
    (match exec (.gateTimeout 0 1) (refetching (.gated (approval .redeem) redeemed 1 1500)) with
     | .next t => (t.request 0, t.generation 0)
     | _ => (none, 0)) = (some ⟨2, [1], 1500, .fetch (fetch false [])⟩, 2) := by decide +kernel

theorem witness_GateTimeoutUndoesTheDebit : ∀ u ∈ undos, ∀ way ∈ [WayState.valid counted 0, .invalid],
    let st : ReplyState := .gated (approval .redeem) u 1 1500
    let s := unmaking way st
    gatedOn 1 (s.link 0).replies = some ({ waiting .redeem with state := st }, approval .redeem, u) ∧ u.sequence = some 1 ∧ s.Undoable u ∧
    s.dirMode.isFlushing = false ∧ s.journal.records.length ≠ 3072 := by
  intro u hu way hw
  refine ⟨rfl, (undos_good u hu .reserved).1, ?_, rfl, (by decide : (1 : Nat) ≠ 3072)⟩
  simp only [List.mem_cons, List.not_mem_nil, or_false] at hw
  rcases hw with rfl | rfl
  · exact (undos_good u hu _).2.1
  · exact (undos_good u hu _).2.2

/-- R56, R136: the gate timeout of a COMPLETE whose card is in no way gives its hold back and carries the full reversal. -/
theorem test_capture_undo :
    (match exec (.gateTimeout 0 1) (unmaking .invalid (.gated (approval .complete) capturedUndo 1 1500)) with
     | .next t => (t.holds, t.journal.records.map (fun r => (r.bonusDelta, r.coreDelta, r.undone)))
     | _ => ([], [])) = ([hold], [(-450, -450, none), (300, 900, some 1)]) := by decide +kernel

/-- The worked case of the site links chapter (R165, R166), its cards in no way: a REDEEM and a COMPLETE undone, a HOLD freed without a
record, an ENQUIRY abandoned, a relayed REDEEM reported undelivered. -/
def losing : State :=
  let e (slot : Nat) (st : ReplyState) : ReplyEntry := { waiting .redeem with slot := slot, state := st }
  { unmaking .invalid .reserved with
    holds := [{ hold with id := 1, ref := 77#32, bonus := 0, core := 2000, state := .new },
      { hold with bonus := 0, core := 0, state := .capturing 0 3000 300 }]
    siteHolds := Table.empty.set 0 5 2, nextHold := 2, nextSlot := 5
    journal := ⟨[journalled 1], 30010, 1, 6, true, false, 0⟩
    events := ⟨0#16, 16#16, false, true⟩
    requests := Table.empty.set none 9 (some ⟨1, [], 400, .fetch ⟨card + 16384, 5, 3, true, [⟨0, 3⟩]⟩⟩)
    links := Table.empty.set Link.default 0 (linkUp 2 []
      [e 0 (.ready (approval .redeem) (some ⟨card, .redeem 100 900, some 0, some 30001, none⟩) none),
       e 1 (.ready (approval .hold) (some ⟨card, .hold 1, some 0, none, none⟩) none),
       e 2 (.gated (approval .complete) ⟨card, .capture 0 0 3000 300, some 0, some 30004, none⟩ 30004 1500),
       e 3 .reserved,
       e 4 (.ready hostReply none (some (12, 40)))]) }

/-- R165, R166: the figures of the worked case: "two entries undone, one freed without a record, one abandoned, one reported
undelivered". -/
theorem test_worked_link_loss :
    (match exec (.presenceTimeout 0) losing with
     | .next t => t.out.drop 2
     | _ => []) = [.undelivered 12 40 hostReply, .notice .linkLost ⟨100, 43200000⟩ (.linkLost 0 false 2 1 1)] ∧
    (match exec (.presenceTimeout 0) losing with
     | .next t => t.journal.records.map (fun r => (r.sequence, r.bonusDelta, r.coreDelta, r.undone))
     | _ => []) = [(1, -450, -450, none), (30010, 100, 900, some 30001), (30011, 0, 3300, some 30004)] ∧
    (match exec (.presenceTimeout 0) losing with
     | .next t => t.holds
     | _ => []) = [{ hold with bonus := 0, core := 3000 }] := by decide +kernel

/-- R182: RESET-ENGINE reports the same figures, and both holds as freed (notes/assumptions/16). -/
theorem test_reset_figures :
    (match exec (.resetEngine (.body 1#32 ())) losing with
     | .next t => t.out.getLast?
     | _ => none) = some (.result Kind.resetEngine 1#32 (.done (.engineReset 2 1 1 2 0 1))) := by decide +kernel

/-- The part with the READY reply of a HOLD alone on link 0. -/
def heldAlone : State := settling .hold .free .new heldUndo ⟨100, 53999999⟩

theorem witness_LosingALinkEmptiesItsQueues :
    let relayed : ReplyState := .ready hostReply none (some (12, 40))
    ((commanded .invalid).link 0).state = .up ∧ ((commanded .invalid).link 0).presenceTimer.isSome = true ∧
    (listening.link 0).state = .listening ∧ (LinkState.listening ≠ .disabled ∧ LinkState.up ≠ .disabled) ∧
    ((commanded .invalid).link 1).state = .disabled ∧
    (∀ n, ((fetching .enquiry true [⟨0, 0⟩]).dirSet n).inOrder n) ∧
    ((fetching .enquiry true [⟨0, 0⟩]).link 0).replies = [waiting .enquiry] ∧ (waiting .enquiry).state = .reserved ∧
    (∀ e ∈ ((unmaking .invalid relayed).link 0).replies, ∃ reply origin, e.state = .ready reply none origin) ∧
    (∀ n, ((unmaking .invalid relayed).dirSet n).inOrder n) ∧
    (∀ u ∈ undos, ∀ st ∈ [ReplyState.ready (approval .redeem) (some u) none, .gated (approval .redeem) u 1 1500],
      ((unmaking (.valid counted 0) st).link 0).replies = [{ waiting .redeem with state := st }] ∧ u.sequence = some 1 ∧
      (unmaking (.valid counted 0) st).Undoable u ∧ ∀ n, ((unmaking (.valid counted 0) st).dirSet n).inOrder n) ∧
    (heldAlone.link 0).replies = [{ waiting .hold with state := .ready (approval .hold) (some heldUndo) none }] ∧
    heldUndo.effect = .hold hold.id ∧ heldUndo.sequence = none ∧ heldAlone.holdById hold.id = some { hold with state := .new } ∧
    (∀ n, (heldAlone.dirSet n).inOrder n) ∧ heldAlone.recordOf heldUndo.card = some (sealRecord data 0, 0) ∧
    (sealRecord data 0).verifies = true ∧ inDate data heldAlone.date = true := by
  refine ⟨by decide, by decide, by decide, by decide, by decide, dir_inOrder (.reserved card) (by decide) rfl, rfl, rfl, ?_,
    dir_inOrder .invalid (by decide) rfl, fun u hu st _ => ⟨rfl, (undos_good u hu st).1, (undos_good u hu st).2.1,
    dir_inOrder (.valid counted 0) (by decide) rfl⟩, rfl, rfl, rfl, rfl, dir_inOrder (.valid (sealRecord data 0) 0) (by decide) rfl, rfl,
    sealRecord_verifies _ _, rfl⟩
  intro e he
  have he : e = { waiting .redeem with state := .ready hostReply none (some (12, 40)) } := by
    simpa [unmaking, linkUp, part, State.link] using he
  subst he
  exact ⟨_, _, rfl⟩

/-! ### States that meet the invariants and take a step -/

/-- The part about to take the REDEEM at the front of link 0. -/
def stepping : State := { asking (msg .redeem 900) with pending := [.redeem 0] }

theorem stepping_step : ∃ t, step stepping = .next t := ⟨_, rfl⟩

theorem stepping_program (n : Nat) : stepping.program n = if n = 0 then program else Program.default :=
  Table.get_set Program.default Table.empty 0 n program

theorem stepping_link (l : Nat) : stepping.link l = if l = 0 then linkUp 2 [msg .redeem 900] [] else Link.default :=
  Table.get_set Link.default Table.empty 0 l _

theorem stepping_till (n : Nat) : stepping.till n = if n = 19 then ⟨true, 1, 900, 0, 1, 0, false, [debit]⟩ else Till.default :=
  Table.get_set Till.default Table.empty 19 n _

theorem stepping_siteId (n : Nat) : stepping.siteId n = if n = 5 then 371 else 0 := Table.get_set 0 Table.empty 5 n 371

theorem witness_EveryStepKeepsTheTablesCanonical : TablesCanonical stepping := canonical_part _

theorem witness_EveryStepKeepsTheLayoutInOrder :
    ProgramsInOrder stepping ∧ ActiveProgramsApart stepping ∧ SitesDistinct stepping ∧ CommissioningUnassigned stepping ∧
    LimitsInBounds stepping ∧ ExposuresBounded stepping := by
  refine ⟨fun n => ?_, fun m n _ _ hmn hm hn => ?_, fun i j hij hi he => ?_, ⟨rfl, rfl⟩, by unfold LimitsInBounds; decide, fun c => Nat.zero_le _⟩
  · rw [stepping_program]
    split
    · exact ⟨by unfold ProgramLimits.inRange; decide, by decide, by decide, by decide⟩
    · exact ⟨by unfold ProgramLimits.inRange; decide, by decide, by decide, by decide⟩
  · rw [stepping_program] at hm hn
    split at hm
    · split at hn
      · omega
      · exact absurd hn (by decide)
    · exact absurd hm (by decide)
  · rw [stepping_siteId] at hi
    rw [stepping_siteId, stepping_siteId] at he
    split at hi
    · split at he <;> split at he <;> omega
    · exact hi rfl

theorem witness_LockedProgramsNeverChange :
    let s : State := { stepping with
      programs := Table.empty.set Program.default 0 { program with locked := true }, pending := [.programDeactivate (.body 1#32 0#8)] }
    (s.program 0).locked = true ∧ (s.program 0).state = .active ∧ s.pending.head? ≠ some .powerOnReset ∧ ∃ t, step s = .next t :=
  ⟨rfl, rfl, by decide, _, rfl⟩

theorem witness_EveryStepKeepsLinksAndTillsInOrder : StandbyLinksDisabled stepping ∧ LinksInOrder stepping ∧ TillsInOrder stepping := by
  refine ⟨fun h => absurd h (by decide), fun l => ?_, fun n => ?_⟩
  · rw [State.slotsInOrder, stepping_link]
    split
    · exact ⟨⟨fun h => absurd rfl h, fun _ => by decide, by decide, by decide⟩, by decide, by simp [linkUp]⟩
    · exact ⟨⟨fun _ => by decide, fun h => absurd h (by decide), by decide, by decide⟩, by decide, by simp [Link.default]⟩
  · rw [stepping_till]
    split
    · exact ⟨by decide, by decide, by decide, by decide, by decide, by decide, by decide⟩
    · exact ⟨by decide, by decide, by decide, by decide, by decide, by decide, by decide⟩

theorem witness_EveryStepKeepsTheJournalInOrder :
    JournalInOrder { posting with pending := [.posted (.body 1#32)] } ∧ ∃ t, step { posting with pending := [.posted (.body 1#32)] } = .next t :=
  ⟨⟨⟨rfl, rfl, trivial⟩, by decide, by decide⟩, _, rfl⟩

/-- The part about to withdraw a GATED debit: one undo slot reserved, one record that names the resident card. -/
def withdrawing : State :=
  { confirming counted (.gated (approval .redeem) redeemed 1 1500) .redeem with pending := [.gateTimeout 0 1] }

theorem withdrawing_canonical : TablesCanonical withdrawing := by
  refine ⟨?_, ?_, ?_, ?_, ?_, ?_, ?_, ?_, ?_, ?_, ?_⟩ <;> rfl

theorem withdrawing_dirSet (n : Nat) : withdrawing.dirSet n = if n = 5 then setWith (.valid counted 0) else DirSet.default :=
  Table.get_set DirSet.default Table.empty 5 n _

theorem withdrawing_links : LinksInOrder withdrawing := by
  intro l
  have h : withdrawing.link l = if l = 0 then
      linkUp 2 [] [{ waiting .redeem with state := .gated (approval .redeem) redeemed 1 1500 }] else Link.default :=
    Table.get_set Link.default Table.empty 0 l _
  rw [State.slotsInOrder, h]
  split
  · exact ⟨⟨fun h => absurd rfl h, fun _ => by decide, by decide, by decide⟩, by decide, by simp [linkUp, waiting, withdrawing]; decide⟩
  · exact ⟨⟨fun _ => by decide, fun h => absurd h (by decide), by decide, by decide⟩, by decide, by simp [Link.default]⟩

theorem witness_EveryStepKeepsTheJournalWithinBounds :
    TablesCanonical withdrawing ∧ LinksInOrder withdrawing ∧ WaitersInOrder withdrawing ∧ SlotsInOrder withdrawing ∧
    JournalWithinBounds withdrawing ∧ withdrawing.journal.reserved = 1 ∧
    WaitersInOrder (fetching .enquiry true [⟨0, 0⟩]) ∧ (fetching .enquiry true [⟨0, 0⟩]).waiting = [⟨0, 0⟩] := by
  refine ⟨withdrawing_canonical, withdrawing_links, ⟨List.nodup_nil, fun w h => absurd h List.not_mem_nil⟩, ⟨rfl, ?_⟩,
    by unfold JournalWithinBounds; decide, rfl, ⟨by decide, ?_⟩, rfl⟩
  · intro u hu
    rw [show withdrawing.undoRecords = [redeemed] from rfl, List.mem_singleton] at hu
    subst hu
    exact ⟨fun h => (nomatch h), fun ⟨_, h⟩ => (nomatch h)⟩
  · intro w hw
    rw [show (fetching .enquiry true [⟨0, 0⟩]).waiting = [⟨0, 0⟩] from rfl, List.mem_singleton] at hw
    subst hw
    exact ⟨by decide, waiting .enquiry, rfl, rfl⟩

theorem witness_EveryStepKeepsTheUnpostedCounts :
    TablesCanonical withdrawing ∧ DirectoryInOrder withdrawing ∧ UnpostedCounted withdrawing ∧
    withdrawing.recordOf card = some (counted, 0) ∧ counted.unposted = 1 := by
  have hw : ∀ c w, withdrawing.findWay c = some w → w = ⟨3, .valid counted 0⟩ ∧ c = card := by
    intro c w h
    obtain ⟨hm, hc⟩ := DirSet.holding_some h
    rw [withdrawing_dirSet] at hm
    split at hm
    · simp only [setWith, List.mem_cons, List.not_mem_nil, or_false] at hm
      rcases hm with rfl | rfl | rfl | rfl
      · cases hc
      · cases hc
      · cases hc
      · exact ⟨rfl, (Option.some.inj hc).symm⟩
    · simp only [DirSet.default, List.mem_cons, List.not_mem_nil, or_false] at hm
      rcases hm with rfl | rfl | rfl | rfl <;> cases hc
  refine ⟨withdrawing_canonical, ⟨dir_inOrder (.valid counted 0) (by decide) rfl, fun tag f (h : none = some f) => (nomatch h),
    fun c no h => ?_, fun a b f g (h : none = some f) => (nomatch h)⟩, ⟨fun c r stay h _ => ?_, fun tag f (h : none = some f) => (nomatch h)⟩,
    rfl, rfl⟩
  · have h2 := congrArg Way.st (hw c _ h).1
    cases h2
  · obtain ⟨no, hf⟩ := State.recordOf_some h
    obtain ⟨h2, rfl⟩ := hw c _ hf
    have h3 : WayState.valid r stay = .valid counted 0 := congrArg Way.st h2
    cases h3
    rfl

theorem witness_TheBusinessDateNeverDecreases :
    TimesValid stepping ∧ stepping.pending.head? ≠ some .powerOnReset :=
  ⟨⟨by decide, by decide, by decide, by decide⟩, by decide⟩

theorem witness_EveryStepKeepsTheDirectoryInOrder :
    DirectoryInOrder stepping ∧
    (∀ set way x r stay, stepping.pending.head? = some (.storedContentAltered set way x) →
      (⟨way.val, .valid r stay⟩ : Way) ∈ (stepping.dirSet set.val).ways → x.data.card = r.data.card) := by
  have hd : ∀ n, stepping.dirSet n = if n = 5 then setWith (.valid record 0) else DirSet.default :=
    fun n => Table.get_set DirSet.default Table.empty 5 n _
  refine ⟨⟨dir_inOrder _ valid_card rfl, fun tag f (h : none = some f) => (nomatch h), fun c no h => ?_,
    fun a b f g (h : none = some f) => (nomatch h)⟩, fun set way x r stay h => by simp [stepping] at h⟩
  rw [State.findWay, hd] at h
  have hm := List.mem_of_find?_eq_some h
  split at hm <;> simp [setWith, DirSet.default] at hm

theorem witness_EveryStepKeepsTheHoldTableInOrder : HoldsInOrder { holding (msg .complete 900) with pending := [.complete 0] } := by
  have hs : ∀ n, ({ holding (msg .complete 900) with pending := [.complete 0] } : State).siteHoldCount n = if n = 5 then 1 else 0 :=
    fun n => Table.get_set 0 Table.empty 5 n 1
  refine ⟨by decide, by decide, by decide, fun n => ?_, fun n => ?_, fun c => ?_, by decide, by decide, by decide, by decide⟩
  · rw [hs]
    by_cases h : n = 5
    · subst h; rfl
    · simp [holding, hold, h, Ne.symm h]
  · rw [hs]; split <;> decide
  · exact Nat.le_trans (List.length_filter_le _ _) (by decide)

theorem witness_FramesDecodeToWhatTheyEncode :
    wellFormed (.timeSet (.body 9#32 ⟨812#16, 7#32, .malformed⟩)) = true ∧
    (encodeServiceFrame (.timeSet (.body 9#32 ⟨812#16, 7#32, .malformed⟩))).isSome = true ∧
    wellFormed (.tillMessageArrival 7 (.good (msg (.unknown 32#16) 900))) = true ∧
    (encodeSiteFrame (.tillMessageArrival 7 (.good (msg (.unknown 32#16) 900)))).isSome = true ∧
    (5 < 6 ∧ (List.replicate 5 (7#8 : Byte)).length = 5) := by decide +kernel

end Sys2Proof.Tests
end

section
/-! The directory's order and the unposted counts, as one relation between two states (`Keeps`), kept by every operation that
writes a way, an entry of the Host Request Table or the journal. -/

namespace Sys2Proof.Machine

/-! ### What is read of the directory and of the Host Request Table -/

theorem State.dirSet_congr {s t : State} (h : t.dir = s.dir) (n : Nat) : t.dirSet n = s.dirSet n := by unfold State.dirSet; rw [h]

theorem State.findWay_congr {s t : State} (h : t.dir = s.dir) (card : Nat) : t.findWay card = s.findWay card :=
  congrArg (·.holding card) (State.dirSet_congr h _)

theorem State.recordOf_congr {s t : State} {card : Nat} (h : t.findWay card = s.findWay card) : t.recordOf card = s.recordOf card := by
  unfold State.recordOf; rw [h]

theorem State.fetchAt_congr {s t : State} (h : t.requests = s.requests) (tag : Nat) : t.fetchAt tag = s.fetchAt tag := by
  unfold State.fetchAt State.request; rw [h]

theorem State.names_congr {s t : State} (h : t.journal.records = s.journal.records) (card : Nat) : t.names card = s.names card := by
  unfold State.names; rw [h]

/-- The FETCH entries after one tag was written. -/
theorem State.fetchAt_setRequest (s : State) (tag : Nat) (x : Option HostEntry) (k : Nat) :
    (s.setRequest tag x).fetchAt k = if k = tag then x.bind HostEntry.fetch? else s.fetchAt k := by
  unfold State.fetchAt; rw [State.setRequest_request]; split <;> rfl

theorem State.fetchAt_some {s : State} {tag : Nat} {f : Fetch} : s.fetchAt tag = some f ↔
    ∃ x, s.request tag = some x ∧ x.kind = .fetch f := by
  unfold State.fetchAt HostEntry.fetch?
  cases s.request tag with
  | none => simp
  | some x => cases hk : x.kind <;> simp [hk]

/-- The entry that `fetchFor` finds is a FETCH entry of the card. -/
theorem State.fetchFor_some {s : State} {card tag : Nat} {x : HostEntry} {f : Fetch} (h : s.fetchFor card = some (tag, x, f)) :
    s.request tag = some x ∧ x.kind = .fetch f ∧ f.card = card := by
  obtain ⟨t, -, ht⟩ := List.exists_of_findSome?_eq_some h
  split at ht
  · next y hy =>
    split at ht
    · next g hg =>
      split at ht
      · next hc => simp only [Option.some.injEq, Prod.mk.injEq] at ht; obtain ⟨rfl, rfl, rfl⟩ := ht; exact ⟨hy, hg, hc⟩
      · cases ht
    · cases ht
  · cases ht

/-- Where `fetchFor` finds no entry, no FETCH entry is for the card. -/
theorem State.fetchFor_none {s : State} {card : Nat} (h : s.fetchFor card = none) {tag : Nat} {f : Fetch} (hf : s.fetchAt tag = some f) :
    f.card ≠ card := by
  obtain ⟨x, hx, hk⟩ := State.fetchAt_some.1 hf
  intro hc
  have hmem : tag ∈ s.requests.keys := Table.mem_keys_of_get_ne none _ _ (by change s.request tag ≠ none; rw [hx]; simp)
  have := List.findSome?_eq_none_iff.1 h tag hmem
  simp [hx, hk, hc] at this

/-- Of a card with one FETCH entry, `fetchFor` finds that one. -/
theorem State.fetchFor_of_single {s : State} {card tag : Nat} {x : HostEntry} {f : Fetch} (hx : s.request tag = some x)
    (hk : x.kind = .fetch f) (hc : f.card = card) (hone : ∀ a g, s.fetchAt a = some g → g.card = card → a = tag) :
    s.fetchFor card = some (tag, x, f) := by
  cases h : s.fetchFor card with
  | none => exact absurd hc (State.fetchFor_none h (State.fetchAt_some.2 ⟨x, hx, hk⟩))
  | some p =>
    obtain ⟨a, y, g⟩ := p
    obtain ⟨hy, hky, hcy⟩ := State.fetchFor_some h
    obtain rfl := hone a g (State.fetchAt_some.2 ⟨y, hy, hky⟩) hcy
    rw [hx] at hy; cases hy
    rw [hk] at hky; cases hky
    rfl

/-- What stands in a card's way after way `no` of a set took the state `st`, in whatever order the set's ways now stand. -/
theorem State.findWay_place {s : State} {n no : Nat} {st : WayState} {d : DirSet} (h : (s.dirSet n).inOrder n) (hno : no < 4)
    (hput : ((s.dirSet n).put no st).inOrder n) (p : d.ways.Perm ((s.dirSet n).put no st).ways) (c : Nat) :
    (s.setDirSet n d).findWay c = if setOf c = n then
      (if st.card = some c then some ⟨no, st⟩ else (s.findWay c).filter (fun w => decide (w.no ≠ no))) else s.findWay c := by
  rw [State.findWay_setDirSet]
  by_cases hs : setOf c = n
  · rw [if_pos hs, if_pos hs, DirSet.holding_of_perm hput p, DirSet.holding_put h hno hput]
    unfold State.findWay; rw [hs]
  · rw [if_neg hs, if_neg hs]

/-- Two cards of one set that find ways of one number find one way. -/
theorem State.findWay_unique {s : State} {n a b : Nat} {v w : Way} (h : (s.dirSet n).inOrder n) (ha : setOf a = n) (hb : setOf b = n)
    (hv : s.findWay a = some v) (hw : s.findWay b = some w) (e : v.no = w.no) : v = w := by
  subst ha
  unfold State.findWay at hv hw
  rw [hb] at hw
  exact DirSet.way_unique h (DirSet.holding_some hv).1 (DirSet.holding_some hw).1 e

theorem State.findWay_card {s : State} {c : Nat} {w : Way} (h : s.findWay c = some w) : w.st.card = some c := (DirSet.holding_some h).2

/-- A way that a card finds keeps its set in order when it takes no card. -/
theorem DirSet.inOrder_put_invalid {n no : Nat} {d : DirSet} (h : d.inOrder n) : (d.put no .invalid).inOrder n :=
  DirSet.inOrder_put h (fun _ hc => by cases hc) (fun _ hc => by cases hc)

/-! ### The directory in order, and the unposted counts -/

/-- The number of records of the queue that name the card. -/
def State.recordsNaming (s : State) (card : Nat) : Nat := (s.journal.records.filter (fun x => decide (x.card = card))).length

theorem State.recordsNaming_eq_zero {s : State} {card : Nat} (h : s.names card = false) : s.recordsNaming card = 0 := by
  unfold State.names at h; unfold State.recordsNaming
  rw [List.any_eq_false] at h
  rw [List.length_eq_zero_iff, List.filter_eq_nil_iff]
  exact h

/-- `DirectoryInOrder` item by item, with the canonical form of the two tables it is read from. -/
structure Ordered (s : State) : Prop where
  dirWf : s.dir.wf DirSet.default = true
  requestsWf : s.requests.wf none = true
  sets : ∀ n, (s.dirSet n).inOrder n
  fetched : ∀ tag f, s.fetchAt tag = some f → s.reservedFor f
  reserved : ∀ card no, s.findWay card = some ⟨no, .reserved card⟩ → ∃ tag f, s.fetchAt tag = some f ∧ f.card = card
  single : ∀ a b f g, s.fetchAt a = some f → s.fetchAt b = some g → f.card = g.card → a = b

theorem ordered_iff (s : State) : Ordered s ↔
    s.dir.wf DirSet.default = true ∧ s.requests.wf none = true ∧ DirectoryInOrder s :=
  ⟨fun h => ⟨h.dirWf, h.requestsWf, h.sets, h.fetched, h.reserved, h.single⟩, fun ⟨a, b, c, d, e, f⟩ => ⟨a, b, c, d, e, f⟩⟩

/-- From a directory in order the change leads to a directory in order, and keeps the unposted counts where they were kept. -/
def Keeps (s t : State) : Prop := Ordered s → Ordered t ∧ (UnpostedCounted s → UnpostedCounted t)

theorem Keeps.refl (s : State) : Keeps s s := fun o => ⟨o, id⟩

theorem Keeps.trans {s t u : State} (h : Keeps s t) (k : Keeps t u) : Keeps s u := fun o =>
  have ⟨ot, ct⟩ := h o
  have ⟨ou, cu⟩ := k ot
  ⟨ou, cu ∘ ct⟩

/-- The order of the state that a change begins at may be used to show that the change keeps it. -/
theorem Keeps.of_ordered {s t : State} (h : Ordered s → Keeps s t) : Keeps s t := fun o => h o o

theorem Keeps.foldl {α : Type} {f : State → α → State} (h : ∀ s x, Keeps s (f s x)) :
    ∀ (xs : List α) (s : State), Keeps s (xs.foldl f s)
  | [], s => Keeps.refl s
  | x :: xs, s => (h s x).trans (Keeps.foldl h xs (f s x))

/-- Which card a FETCH entry is for, and the way it has reserved. -/
def Fetch.home (f : Fetch) : Nat × Nat × Nat := (f.card, f.set, f.way)

theorem fetch_home_some {a b : Option Fetch} (h : a.map Fetch.home = b.map Fetch.home) {f : Fetch} (ha : a = some f) :
    ∃ g, b = some g ∧ g.card = f.card ∧ g.set = f.set ∧ g.way = f.way := by
  subst ha
  cases b with
  | none => cases h
  | some g =>
    simp only [Option.map_some, Option.some.injEq, Fetch.home, Prod.mk.injEq] at h
    obtain ⟨hc, hs, hw⟩ := h
    exact ⟨g, rfl, hc.symm, hs.symm, hw.symm⟩

/-- The order is read from the sets, from which ways stand reserved, and from which card each FETCH entry is for. -/
theorem Ordered.of_reads {s t : State} (o : Ordered s) (hd : t.dir.wf DirSet.default = true) (hr : t.requests.wf none = true)
    (hsets : ∀ n, (t.dirSet n).inOrder n)
    (hways : ∀ card no, t.findWay card = some ⟨no, .reserved card⟩ ↔ s.findWay card = some ⟨no, .reserved card⟩)
    (hfetch : ∀ tag, (t.fetchAt tag).map Fetch.home = (s.fetchAt tag).map Fetch.home) : Ordered t where
  dirWf := hd
  requestsWf := hr
  sets := hsets
  fetched tag f hf := by
    obtain ⟨g, hg, hc, hs, hw⟩ := fetch_home_some (hfetch tag) hf
    obtain ⟨hset, hway⟩ := o.fetched tag g hg
    rw [hc, hw] at hway
    exact ⟨by rw [← hs, ← hc]; exact hset, (hways _ _).2 hway⟩
  reserved card no h := by
    obtain ⟨tag, g, hg, hgc⟩ := o.reserved card no ((hways _ _).1 h)
    obtain ⟨f, hf, hc, -, -⟩ := fetch_home_some (hfetch tag).symm hg
    exact ⟨tag, f, hf, hc.trans hgc⟩
  single a b f g hf hg e := by
    obtain ⟨f', hf', hc, -, -⟩ := fetch_home_some (hfetch a) hf
    obtain ⟨g', hg', hc', -, -⟩ := fetch_home_some (hfetch b) hg
    exact o.single a b f' g' hf' hg' (by rw [hc, hc', e])

/-- The counts are read from the verified records, from the queue's records and from the SENT fetches. -/
theorem UnpostedCounted.of_reads {s t : State} (c : UnpostedCounted s) (hj : t.journal.records = s.journal.records)
    (hrec : ∀ card r stay, t.recordOf card = some (r, stay) → r.verifies = true →
      ∃ r' stay', s.recordOf card = some (r', stay') ∧ r'.verifies = true ∧ r'.unposted = r.unposted)
    (hsent : ∀ tag f, t.fetchAt tag = some f → f.sent = true → ∃ k g, s.fetchAt k = some g ∧ g.sent = true ∧ g.card = f.card) :
    UnpostedCounted t := by
  refine ⟨fun card r stay hr hv => ?_, fun tag f hf hs => ?_⟩
  · obtain ⟨r', stay', hr', hv', hu⟩ := hrec card r stay hr hv
    rw [← hu, hj]
    exact c.1 card r' stay' hr' hv'
  · obtain ⟨k, g, hg, hgs, hgc⟩ := hsent tag f hf hs
    rw [State.names_congr hj, ← hgc]
    exact c.2 k g hg hgs

theorem sent_fetch_refl {s t : State} (h : ∀ tag, t.fetchAt tag = s.fetchAt tag) (tag : Nat) (f : Fetch) (hf : t.fetchAt tag = some f)
    (hs : f.sent = true) : ∃ k g, s.fetchAt k = some g ∧ g.sent = true ∧ g.card = f.card := ⟨tag, f, (h tag) ▸ hf, hs, rfl⟩

/-- A change outside the directory, the requests and the queue's records. -/
theorem Keeps.of_frame {s t : State} (hd : t.dir = s.dir) (hr : t.requests = s.requests) (hj : t.journal.records = s.journal.records) :
    Keeps s t := fun o =>
  have hw : ∀ card, t.findWay card = s.findWay card := State.findWay_congr hd
  have hf : ∀ tag, t.fetchAt tag = s.fetchAt tag := State.fetchAt_congr hr
  ⟨o.of_reads (hd ▸ o.dirWf) (hr ▸ o.requestsWf) (fun n => State.dirSet_congr hd n ▸ o.sets n) (fun _ _ => by rw [hw])
      (fun _ => by rw [hf]),
   fun c => c.of_reads hj (fun card r stay h hv => ⟨r, stay, (State.recordOf_congr (hw card)) ▸ h, hv, rfl⟩) (sent_fetch_refl hf)⟩

/-- Whether a frame leaves the directory, the host requests and the journal alone. -/
def asideOfCards (may : List Piece) : Bool := !(may.contains .dir || may.contains .requests || may.contains .journal)

theorem Only.keeps {may : List Piece} {s t : State} (h : Only may s t) (hm : asideOfCards may = true) : Keeps s t := by
  simp only [asideOfCards, Bool.not_eq_true', Bool.or_eq_false_iff, List.contains_eq_mem, decide_eq_false_iff_not] at hm
  obtain ⟨⟨hd, hr⟩, hj⟩ := hm
  exact Keeps.of_frame (h.dir hd) (h.requests hr) (congrArg _ (h.journal hj))

/-- A change of the directory by which every card finds what it found. -/
theorem Keeps.of_findWay {s t : State} (hr : t.requests = s.requests) (hj : t.journal.records = s.journal.records)
    (hwf : t.dir.wf DirSet.default = true) (hsets : ∀ n, (t.dirSet n).inOrder n) (hw : ∀ card, t.findWay card = s.findWay card) :
    Keeps s t := fun o =>
  have hf : ∀ tag, t.fetchAt tag = s.fetchAt tag := State.fetchAt_congr hr
  ⟨o.of_reads hwf (hr ▸ o.requestsWf) hsets (fun _ _ => by rw [hw]) (fun _ => by rw [hf]),
   fun c => c.of_reads hj (fun card r stay h hv => ⟨r, stay, (State.recordOf_congr (hw card)) ▸ h, hv, rfl⟩) (sent_fetch_refl hf)⟩

/-- A change of the Host Request Table by which no FETCH entry comes, goes, moves or becomes SENT. -/
theorem Keeps.of_fetchAt {s t : State} (hd : t.dir = s.dir) (hj : t.journal.records = s.journal.records)
    (hwf : Ordered s → t.requests.wf none = true)
    (hf : Ordered s → ∀ tag, (t.fetchAt tag).map (fun f => (f.home, f.sent)) = (s.fetchAt tag).map (fun f => (f.home, f.sent))) :
    Keeps s t := fun o => by
  have hw : ∀ card, t.findWay card = s.findWay card := State.findWay_congr hd
  have hhome : ∀ tag, (t.fetchAt tag).map Fetch.home = (s.fetchAt tag).map Fetch.home := fun tag => by
    have := congrArg (Option.map Prod.fst) (hf o tag)
    simpa [Option.map_map, Function.comp_def] using this
  refine ⟨o.of_reads (hd ▸ o.dirWf) (hwf o) (fun n => State.dirSet_congr hd n ▸ o.sets n) (fun _ _ => by rw [hw]) hhome, fun c => ?_⟩
  refine c.of_reads hj (fun card r stay h hv => ⟨r, stay, (State.recordOf_congr (hw card)) ▸ h, hv, rfl⟩) (fun tag f h hs => ?_)
  have ht := hf o tag
  rw [h] at ht
  cases hg : s.fetchAt tag with
  | none => rw [hg] at ht; cases ht
  | some g =>
    rw [hg] at ht
    simp only [Option.map_some, Option.some.injEq, Prod.mk.injEq, Fetch.home] at ht
    obtain ⟨⟨hc, -, -⟩, hsent⟩ := ht
    exact ⟨tag, g, hg, hsent ▸ hs, hc.symm⟩

/-! ### One way takes a state that reserves nothing -/

theorem Ordered.place {s : State} (o : Ordered s) {n no : Nat} {st : WayState} {d : DirSet} (hno : no < 4)
    (hput : ((s.dirSet n).put no st).inOrder n) (p : d.ways.Perm ((s.dirSet n).put no st).ways) (hst : st.isReserved = false)
    (hfree : ∀ c, setOf c = n → s.findWay c ≠ some ⟨no, .reserved c⟩) : Ordered (s.setDirSet n d) := by
  refine o.of_reads (Table.wf_set _ _ _ o.dirWf) o.requestsWf (fun m => ?_) (fun c k => ?_) (fun _ => rfl)
  · rw [State.setDirSet_dirSet]; split
    · next h => subst h; exact DirSet.inOrder_of_perm hput p
    · exact o.sets m
  · rw [State.findWay_place (o.sets n) hno hput p]
    by_cases hs : setOf c = n
    · rw [if_pos hs]; split
      · constructor
        · intro h
          simp only [Option.some.injEq, Way.mk.injEq] at h
          obtain ⟨-, rfl⟩ := h
          cases hst
        · next hc =>
          intro h
          have hk : k ≠ no := fun e => hfree c hs (e ▸ h)
          have hmem : (⟨k, .reserved c⟩ : Way) ∈ ((s.dirSet n).put no st).ways :=
            (DirSet.mem_put no st _ _).2 (.inl ⟨by have := (DirSet.holding_some h).1; rwa [hs] at this, hk⟩)
          have hex : ∃ v ∈ (s.dirSet n).ways, v.no = no := by
            have : no ∈ (s.dirSet n).ways.map (fun w => w.no) := (o.sets n).1.mem_iff.2 (by simp; omega)
            exact List.mem_map.1 this
          have hnew : (⟨no, st⟩ : Way) ∈ ((s.dirSet n).put no st).ways := (DirSet.mem_put no st _ _).2 (.inr ⟨rfl, rfl, hex⟩)
          have := DirSet.card_unique hput hmem hnew rfl hc
          simp only [Way.mk.injEq] at this
          exact absurd this.1 hk
      · rw [Option.filter_eq_some_iff]
        exact ⟨fun h => h.1, fun h => ⟨h, decide_eq_true (fun e : k = no => hfree c hs (e ▸ h))⟩⟩
    · rw [if_neg hs]

theorem UnpostedCounted.place {s : State} (c : UnpostedCounted s) {n no : Nat} {st : WayState} {d : DirSet} (h : (s.dirSet n).inOrder n)
    (hno : no < 4) (hput : ((s.dirSet n).put no st).inOrder n) (p : d.ways.Perm ((s.dirSet n).put no st).ways)
    (hst : ∀ r stay, st = .valid r stay → r.verifies = true → r.unposted = s.recordsNaming r.data.card) :
    UnpostedCounted (s.setDirSet n d) := by
  refine ⟨fun card r stay hr hv => ?_, c.2⟩
  obtain ⟨k, hw⟩ := State.recordOf_some hr
  rw [State.findWay_place h hno hput p] at hw
  split at hw
  · split at hw
    · next hc =>
      simp only [Option.some.injEq, Way.mk.injEq] at hw
      obtain ⟨-, rfl⟩ := hw
      obtain rfl := Option.some.inj hc
      exact hst r stay rfl hv
    · exact c.1 card r stay (State.recordOf_of_findWay (Option.filter_eq_some_iff.1 hw).1) hv
  · exact c.1 card r stay (State.recordOf_of_findWay hw) hv

/-- A way that no fetch has reserved takes a state that reserves nothing, its record's count right where it verifies. -/
theorem Keeps.place {s : State} {n no : Nat} {st : WayState} {d : DirSet} (hno : no < 4)
    (hput : ((s.dirSet n).put no st).inOrder n) (p : d.ways.Perm ((s.dirSet n).put no st).ways) (hst : st.isReserved = false)
    (hfree : ∀ c, setOf c = n → s.findWay c ≠ some ⟨no, .reserved c⟩)
    (hcount : UnpostedCounted s → ∀ r stay, st = .valid r stay → r.verifies = true → r.unposted = s.recordsNaming r.data.card) :
    Keeps s (s.setDirSet n d) := fun o =>
  ⟨o.place hno hput p hst hfree, fun c => c.place (o.sets n) hno hput p (hcount c)⟩

/-- The way of a VALID record is reserved for no card of its set. -/
theorem Ordered.not_reserved_of_valid {s : State} (o : Ordered s) {card no : Nat} {r : CardRecord} {stay : Nat}
    (h : s.findWay card = some ⟨no, .valid r stay⟩) (c : Nat) (hc : setOf c = setOf card) : s.findWay c ≠ some ⟨no, .reserved c⟩ :=
  fun hw => by
    have := State.findWay_unique (o.sets _) hc rfl hw h rfl
    simp at this

theorem Keeps.dropWay_valid {s : State} {card no : Nat} {r : CardRecord} {stay : Nat} (h : s.findWay card = some ⟨no, .valid r stay⟩) :
    Keeps s (s.dropWay (setOf card) no) := Keeps.of_ordered fun o =>
  Keeps.place (State.findWay_no (o.sets _) h) (DirSet.inOrder_put_invalid (o.sets _)) (DirSet.toLru_perm _ _) rfl
    (o.not_reserved_of_valid h) (fun _ _ _ e => by cases e)

theorem Keeps.checkFault_valid {s : State} {card no : Nat} {r : CardRecord} {stay : Nat} (h : s.findWay card = some ⟨no, .valid r stay⟩) :
    Keeps s (s.checkFault card no) := (Keeps.dropWay_valid h).trans (Keeps.of_frame rfl rfl rfl)

theorem readRecord_keeps (s : State) (card : Nat) : Keeps s (s.readRecord card).1 := by
  unfold State.readRecord; split
  · next h =>
    split
    · exact Keeps.refl s
    · exact Keeps.checkFault_valid h
  · exact Keeps.refl s

theorem readRecord_keeps_of_eq {s s1 : State} {card : Nat} {x : Option (CardRecord × Nat)} (h : s.readRecord card = (s1, x)) :
    Keeps s s1 := by have := readRecord_keeps s card; rwa [h] at this

/-- A record that was read stands in its way and verifies. -/
theorem State.readRecord_verified {s s1 : State} {card : Nat} {r : CardRecord} {stay : Nat}
    (h : s.readRecord card = (s1, some (r, stay))) : s1 = s ∧ s.recordOf card = some (r, stay) ∧ r.verifies = true := by
  refine ⟨State.readRecord_some h, ?_⟩
  unfold State.readRecord at h; split at h
  · next hf =>
    split at h
    · next hv =>
      simp only [Prod.mk.injEq, Option.some.injEq] at h
      obtain ⟨-, rfl, rfl⟩ := h
      exact ⟨State.recordOf_of_findWay hf, hv⟩
    · simp at h
  · simp at h

/-- After a read that found no record, no record of the card is resident. -/
theorem State.readRecord_gone {s s1 : State} (o : Ordered s) {card : Nat} (h : s.readRecord card = (s1, none)) :
    s1.recordOf card = none := by
  unfold State.readRecord at h; split at h
  · next no r stay hf =>
    split at h
    · simp at h
    · obtain rfl := (Prod.mk.inj h).1
      have hw : (s.checkFault card no).findWay card = none := by
        show (s.dropWay (setOf card) no).findWay card = none
        rw [State.findWay_dropWay (o.sets _) (State.findWay_no (o.sets _) hf), if_pos rfl, hf]; simp
      unfold State.recordOf; rw [hw]
  · next hn =>
    obtain rfl := (Prod.mk.inj h).1
    unfold State.recordOf; split
    · next hf => exact absurd hf (hn _ _ _)
    · rfl

/-- The record of a card in a set in order is the card's. -/
theorem State.recordOf_card {s : State} {card : Nat} {r : CardRecord} {stay : Nat} (h : s.recordOf card = some (r, stay)) :
    r.data.card = card := by
  obtain ⟨no, hf⟩ := State.recordOf_some h
  exact Option.some.inj (State.findWay_card hf)

/-- The writing of a record that verifies keeps the order, where it keeps the card and a verified record's count is right. -/
theorem Keeps.writeRecord {s : State} {card : Nat} {r : CardRecord} {stay : Nat} (f : CardRecord → CardRecord)
    (h : s.recordOf card = some (r, stay)) (hc : (f r).data.card = card)
    (hcount : UnpostedCounted s → (f r).verifies = true → (f r).unposted = s.recordsNaming card) :
    Keeps s (s.writeRecord card f) := Keeps.of_ordered fun o => by
  obtain ⟨no, hf⟩ := State.recordOf_some h
  unfold State.writeRecord; rw [hf]
  refine Keeps.place (State.findWay_no (o.sets _) hf) (State.inOrder_put_record (o.sets _) hf (by simp [WayState.card, hc]))
    (List.Perm.refl _) rfl (o.not_reserved_of_valid hf) (fun c r' stay' e hv => ?_)
  obtain ⟨rfl, -⟩ := WayState.valid.inj e
  rw [hc]; exact hcount c hv

/-- The writing of supplied fields of a record that verifies. -/
theorem Keeps.writeData {s : State} {card : Nat} {r : CardRecord} {stay : Nat} (f : CardData → CardData)
    (h : s.recordOf card = some (r, stay)) (hv : r.verifies = true) (hc : (f r.data).card = card) :
    Keeps s (s.writeData card f) :=
  Keeps.writeRecord _ h hc (fun c _ => c.1 card r stay h hv)

theorem touch_keeps (s : State) (card : Nat) : Keeps s (s.touch card) := Keeps.of_ordered fun o => by
  refine Keeps.of_findWay (s.touch_only card).requests (congrArg _ (s.touch_only card).journal) ?_
    (fun n => State.inOrder_touch (o.sets n)) (fun c => State.findWay_touch (o.sets _) c)
  unfold State.touch; split
  · exact Table.wf_set _ _ _ o.dirWf
  · exact o.dirWf

/-- A record is installed, in a stay of its own, into a way that no fetch has reserved and that no other way shares its card with. -/
theorem Keeps.install {s : State} {no : Nat} {d : CardData} (hno : no < 4)
    (hfree : ∀ c, setOf c = setOf d.card → s.findWay c ≠ some ⟨no, .reserved c⟩)
    (hone : ∀ w, s.findWay d.card = some w → w.no = no) (hn : UnpostedCounted s → s.names d.card = false) :
    Keeps s (s.install no d) := Keeps.of_ordered fun o => by
  have hput : ((s.dirSet (setOf d.card)).put no (.valid (sealRecord d 0) s.nextStay)).inOrder (setOf d.card) :=
    DirSet.inOrder_put (o.sets _) (fun c hc => by obtain rfl := Option.some.inj hc; rfl)
      (fun c hc w hw hwc => hone w (by
        obtain rfl := Option.some.inj hc
        exact (DirSet.holding_iff (o.sets _) _ _).2 ⟨hw, hwc⟩))
  refine Keeps.trans (Keeps.place hno hput (DirSet.toMru_perm no _) rfl hfree (fun c r stay e _ => ?_)) (Keeps.of_frame rfl rfl rfl)
  obtain ⟨rfl, -⟩ := WayState.valid.inj e
  exact (State.recordsNaming_eq_zero (hn c)).symm

/-! ### The victim way (R8) -/

/-- The victim way is a way of the set, and no fetch has reserved it. -/
theorem State.victim_spec {s : State} {card no : Nat} (hv : s.victim card = some no) :
    ∃ w ∈ (s.dirSet (setOf card)).ways, w.no = no ∧ w.st.isReserved = false := by
  unfold State.victim at hv; split at hv
  · next w hw =>
    obtain rfl := Option.some.inj hv
    refine ⟨w, List.mem_of_find?_eq_some hw, rfl, ?_⟩
    have := List.find?_some hw
    revert this; cases w.st <;> simp [WayState.isInvalid, WayState.isReserved]
  · obtain ⟨w, hw, rfl⟩ := Option.map_eq_some_iff.1 hv
    refine ⟨w, List.mem_of_find?_eq_some hw, rfl, ?_⟩
    have := List.find?_some hw
    revert this; cases w.st <;> simp [WayState.isValid, WayState.isReserved]

theorem State.victim_lt {s : State} {card no : Nat} (h : (s.dirSet (setOf card)).inOrder (setOf card)) (hv : s.victim card = some no) :
    no < 4 := by
  obtain ⟨w, hw, rfl, -⟩ := State.victim_spec hv
  have : w.no ∈ [0, 1, 2, 3] := h.1.mem_iff.1 (List.mem_map_of_mem hw)
  simp at this; omega

theorem State.victim_not_reserved {s : State} {card no : Nat} (h : (s.dirSet (setOf card)).inOrder (setOf card))
    (hv : s.victim card = some no) (c : Nat) (hc : setOf c = setOf card) : s.findWay c ≠ some ⟨no, .reserved c⟩ := fun hw => by
  obtain ⟨w, hmem, hno, hr⟩ := State.victim_spec hv
  unfold State.findWay at hw; rw [hc] at hw
  have := DirSet.way_unique h hmem (DirSet.holding_some hw).1 hno
  subst this; cases hr

end Sys2Proof.Machine
end

section
/-! The writes that touch the order and the counts together: a record that joins the journal, the making and the ending of a
fetch, and a POSTED. -/

namespace Sys2Proof.Machine

/-! ### A record joins the journal (R128, R109) -/

theorem Ordered.of_frame {s t : State} (o : Ordered s) (hd : t.dir = s.dir) (hr : t.requests = s.requests) : Ordered t :=
  o.of_reads (hd ▸ o.dirWf) (hr ▸ o.requestsWf) (fun n => State.dirSet_congr hd n ▸ o.sets n)
    (fun _ _ => by rw [State.findWay_congr hd]) (fun _ => by rw [State.fetchAt_congr hr])

theorem Ordered.writeRecord {s : State} (o : Ordered s) {card : Nat} {r : CardRecord} {stay : Nat} (f : CardRecord → CardRecord)
    (h : s.recordOf card = some (r, stay)) (hc : (f r).data.card = card) : Ordered (s.writeRecord card f) := by
  obtain ⟨no, hf⟩ := State.recordOf_some h
  unfold State.writeRecord; rw [hf]
  exact o.place (State.findWay_no (o.sets _) hf) (State.inOrder_put_record (o.sets _) hf (by simp [WayState.card, hc]))
    (List.Perm.refl _) rfl (o.not_reserved_of_valid hf)

theorem countUnposted_ordered {s : State} (o : Ordered s) (card : Nat) : Ordered (s.countUnposted card) := by
  unfold State.countUnposted; split
  · next s1 x h =>
    obtain ⟨r, stay⟩ := x
    obtain ⟨rfl, hr, -⟩ := State.readRecord_verified h
    exact o.writeRecord _ hr (State.recordOf_card hr :)
  · next h => exact (readRecord_keeps_of_eq h o).1

theorem filter_other_way {no : Nat} {x : Option Way} (h : ∀ v, x = some v → v.no ≠ no) :
    x.filter (fun w => decide (w.no ≠ no)) = x := by
  cases x with
  | none => rfl
  | some v => simp [h v rfl]

/-- The records after a way of the card's set is dropped, where the card found it. -/
theorem State.recordOf_dropWay {s : State} {card no : Nat} {w : Way} (h : (s.dirSet (setOf card)).inOrder (setOf card))
    (hf : s.findWay card = some w) (hno : w.no = no) (c : Nat) :
    (s.dropWay (setOf card) no).recordOf c = if c = card then none else s.recordOf c := by
  subst hno
  have hw := State.findWay_dropWay h (State.findWay_no h hf) c
  by_cases hc : c = card
  · subst hc
    rw [if_pos rfl, hf] at hw
    rw [if_pos rfl]; unfold State.recordOf; rw [hw, Option.filter_some_neg (by simp)]
  · rw [if_neg hc]
    refine State.recordOf_congr (hw.trans ?_)
    split
    · next hs =>
      refine filter_other_way fun v hv e => hc ?_
      have := State.findWay_unique h hs rfl hv hf e
      subst this
      exact Option.some.inj ((State.findWay_card hv).symm.trans (State.findWay_card hf))
    · rfl

/-- The records after the unposted count of a card rises. -/
theorem State.recordOf_countUnposted {s : State} {card : Nat} (h : (s.dirSet (setOf card)).inOrder (setOf card)) (c : Nat) :
    (s.countUnposted card).recordOf c = if c = card then
      (s.recordOf card).bind (fun x => if x.1.verifies then some (sealRecord x.1.data (x.1.unposted + 1), x.2) else none)
    else s.recordOf c := by
  unfold State.countUnposted
  cases hr : s.recordOf card with
  | none =>
    rw [State.readRecord_absent hr]
    by_cases hc : c = card
    · subst hc; simp [hr]
    · simp [hc]
  | some x =>
    obtain ⟨r, stay⟩ := x
    cases hv : r.verifies with
    | true =>
      rw [State.readRecord_good hr hv]
      dsimp only
      rw [State.recordOf_writeUnposted _ h hr (State.recordOf_card hr)]
      simp [hv]
    | false =>
      obtain ⟨no, hf⟩ := State.recordOf_some hr
      rw [State.readRecord_damaged hf hv]
      show (s.dropWay (setOf card) no).recordOf c = _
      rw [State.recordOf_dropWay h hf rfl]
      simp [hv]

/-- R109: after a regate the card's FETCH entry is not SENT, and every other entry is as it was. -/
theorem State.fetchAt_regate {s : State} {card : Nat}
    (hone : ∀ a b f g, s.fetchAt a = some f → s.fetchAt b = some g → f.card = card → g.card = card → a = b) (k : Nat) :
    (s.regate card).fetchAt k = (s.fetchAt k).map (fun f => if f.card = card then { f with sent := false } else f) := by
  have hkeep : ∀ o : Option Fetch, (∀ f, o = some f → f.card = card → f.sent = false) →
      o.map (fun f => if f.card = card then { f with sent := false } else f) = o := by
    intro o ho
    cases o with
    | none => rfl
    | some f =>
      rw [Option.map_some]
      split
      · next hc => rw [← ho f rfl hc]
      · rfl
  have hreq := State.regate_request s card k
  cases hf : s.fetchFor card with
  | none =>
    rw [hf] at hreq
    rw [hkeep _ (fun f h hc => absurd hc (State.fetchFor_none hf h))]
    unfold State.fetchAt; rw [hreq]
  | some p =>
    obtain ⟨tag, x, f⟩ := p
    obtain ⟨hx, hk, hc⟩ := State.fetchFor_some hf
    have hft : s.fetchAt tag = some f := State.fetchAt_some.2 ⟨x, hx, hk⟩
    rw [hf] at hreq
    dsimp only at hreq
    split at hreq
    · next h =>
      obtain ⟨hs, rfl⟩ := h
      rw [hft]
      simp [State.fetchAt, hreq, HostEntry.fetch?, hc]
    · next h =>
      rw [hkeep _ (fun g hg hgc => ?_)]
      · unfold State.fetchAt; rw [hreq]
      · obtain rfl := hone _ _ g f hg hft hgc hc
        rw [hft] at hg; cases hg
        simpa using h

theorem regate_ordered {s : State} (o : Ordered s) (card : Nat) : Ordered (s.regate card) := by
  have hwf : (s.regate card).requests.wf none = true := by
    unfold State.regate; split
    · split
      · exact Table.wf_set _ _ _ o.requestsWf
      · exact o.requestsWf
    · exact o.requestsWf
  have hd := (s.regate_only card).dir
  refine o.of_reads (hd ▸ o.dirWf) hwf (fun n => State.dirSet_congr hd n ▸ o.sets n) (fun _ _ => by rw [State.findWay_congr hd])
    (fun tag => ?_)
  rw [State.fetchAt_regate (fun a b f g ha hb hc hc' => o.single a b f g ha hb (hc.trans hc'.symm)), Option.map_map]
  refine congrArg (fun x => Option.map x (s.fetchAt tag)) (funext fun f => ?_)
  dsimp only [Function.comp]; split <;> rfl

theorem State.joinRecord_dir (s : State) (d : Draft) : (s.joinRecord d).dir = ((s.appendRecord (d.record s)).countUnposted d.card).dir :=
  (((State.regate_only _ d.card).mono (b := [.generations, .requests, .out, .journal, .events]) (by decide)).trans
    (((State.queue_only _ _).mono (by decide)).trans ((State.warnHigh_only _).mono (by decide)))).dir

theorem State.joinRecord_requests (s : State) (d : Draft) : (s.joinRecord d).requests =
    (((s.appendRecord (d.record s)).countUnposted d.card).regate d.card).requests :=
  (((State.queue_only _ (.journal (d.record s) 0)).mono (b := [.out, .journal, .events]) (by decide)).trans
    ((State.warnHigh_only _).mono (by decide))).requests

/-- The records after a record joins: its card's count rises where it verifies. -/
theorem State.recordOf_joinRecord {s : State} {d : Draft} (h : (s.dirSet (setOf d.card)).inOrder (setOf d.card)) (c : Nat) :
    (s.joinRecord d).recordOf c = if c = d.card then
      (s.recordOf d.card).bind (fun x => if x.1.verifies then some (sealRecord x.1.data (x.1.unposted + 1), x.2) else none)
    else s.recordOf c :=
  (State.recordOf_congr (State.findWay_congr (s.joinRecord_dir d) c)).trans (State.recordOf_countUnposted (s := s.appendRecord _) h c)

theorem State.recordsNaming_joinRecord (s : State) (d : Draft) (c : Nat) :
    (s.joinRecord d).recordsNaming c = s.recordsNaming c + if c = d.card then 1 else 0 := by
  have h : (decide (d.card = c)) = decide (c = d.card) := by simp [eq_comm]
  unfold State.recordsNaming
  rw [State.joinRecord_journal]
  by_cases hc : c = d.card <;> simp [List.filter_append, Draft.record, h, hc]

theorem State.fetchAt_joinRecord {s : State} {d : Draft}
    (hone : ∀ a b f g, s.fetchAt a = some f → s.fetchAt b = some g → f.card = d.card → g.card = d.card → a = b) (k : Nat) :
    (s.joinRecord d).fetchAt k = (s.fetchAt k).map (fun f => if f.card = d.card then { f with sent := false } else f) := by
  have hc : ∀ k, ((s.appendRecord (d.record s)).countUnposted d.card).fetchAt k = s.fetchAt k :=
    State.fetchAt_congr (State.countUnposted_only _ _).requests
  rw [State.fetchAt_congr (s.joinRecord_requests d), State.fetchAt_regate (by simpa only [hc] using hone), hc]

theorem joinRecord_keeps (s : State) (d : Draft) : Keeps s (s.joinRecord d) := fun o => by
  have o0 : Ordered (s.appendRecord (d.record s)) := o.of_frame rfl rfl
  have o1 := regate_ordered (countUnposted_ordered o0 d.card) d.card
  refine ⟨o1.of_frame ?_ (s.joinRecord_requests d), fun c => ⟨fun card r stay hr hv => ?_, fun tag f hf hs => ?_⟩⟩
  · rw [State.joinRecord_dir, (State.regate_only _ _).dir]
  · refine Eq.trans ?_ (State.recordsNaming_joinRecord s d card).symm
    rw [State.recordOf_joinRecord (o.sets _)] at hr
    split at hr
    · next hc =>
      subst hc
      obtain ⟨⟨r', stay'⟩, hr', h⟩ := Option.bind_eq_some_iff.1 hr
      dsimp only at h
      split at h
      · next hv' =>
        simp only [Option.some.injEq, Prod.mk.injEq] at h
        obtain ⟨rfl, rfl⟩ := h
        rw [sealRecord_unposted, c.1 _ r' stay' hr' hv', if_pos rfl]; rfl
      · cases h
    · next hc => rw [if_neg hc]; exact c.1 card r stay hr hv
  · rw [State.fetchAt_joinRecord (fun a b f g ha hb hc hc' => o.single a b f g ha hb (hc.trans hc'.symm))] at hf
    obtain ⟨g, hg, rfl⟩ := Option.map_eq_some_iff.1 hf
    rw [State.joinRecord_names]
    split at hs
    · cases hs
    · next hc => rw [if_neg hc, c.2 tag g hg hs, decide_eq_false (Ne.symm hc)]; rfl

theorem joinUndoable_keeps (s : State) (d : Draft) : Keeps s (joinUndoable d s) :=
  Keeps.trans (t := s.reserveSlot) (Keeps.of_frame rfl rfl rfl) (joinRecord_keeps _ d)

/-! ### The entries of the Host Request Table (R101, R109 to R114) -/

/-- A tag that holds no FETCH entry takes a REFERRAL entry or is emptied. -/
theorem Keeps.setRequest_unfetched {s : State} {tag : Nat} {x : Option HostEntry} (hs : s.fetchAt tag = none)
    (hx : x.bind HostEntry.fetch? = none) : Keeps s (s.setRequest tag x) :=
  Keeps.of_fetchAt rfl rfl (fun o => Table.wf_set _ _ _ o.requestsWf) (fun _ k => by
    rw [State.fetchAt_setRequest]; split
    · next h => rw [h, hs, hx]
    · rfl)

/-- A FETCH entry is written again for the same card and way, SENT as it was. -/
theorem Keeps.setRequest_same {s : State} {tag : Nat} {y : HostEntry} {f g : Fetch} (hs : s.fetchAt tag = some f)
    (hy : y.kind = .fetch g) (hh : g.home = f.home) (hsent : g.sent = f.sent) : Keeps s (s.setRequest tag (some y)) :=
  Keeps.of_fetchAt rfl rfl (fun o => Table.wf_set _ _ _ o.requestsWf) (fun _ k => by
    rw [State.fetchAt_setRequest]; split
    · next h => rw [h, hs]; simp [HostEntry.fetch?, hy, hh, hsent]
    · rfl)

section
variable {s : State} (o : Ordered s) {tag : Nat} {f : Fetch} (hf : s.fetchAt tag = some f) {st : WayState}
  (hcard : ∀ c, st.card = some c → c = f.card)
include o hf hcard

theorem Ordered.put_fetched : ((s.dirSet f.set).put f.way st).inOrder f.set := by
  obtain ⟨hset, hway⟩ := o.fetched tag f hf
  have hmem := DirSet.holding_some hway
  rw [← hset] at hmem
  exact DirSet.inOrder_put (o.sets _) (fun c hc => by rw [hcard c hc, hset]) (fun c hc w hw hwc => by
    rw [DirSet.card_unique (o.sets _) hw hmem.1 hwc (hmem.2.trans (by rw [hcard c hc]))])

variable {d : DirSet} (p : d.ways.Perm ((s.dirSet f.set).put f.way st).ways)
include p

theorem Ordered.findWay_closeFetch (c : Nat) : ((s.setRequest tag none).setDirSet f.set d).findWay c = if setOf c = f.set then
    (if st.card = some c then some ⟨f.way, st⟩ else (s.findWay c).filter (fun w => decide (w.no ≠ f.way))) else s.findWay c :=
  State.findWay_place (s := s.setRequest tag none) (o.sets _) (State.findWay_no (o.sets _) (o.fetched tag f hf).2)
    (o.put_fetched hf hcard) p c

/-- The other fetches have their ways after one has ended. -/
theorem Ordered.reservedFor_closeFetch {k : Nat} {g : Fetch} (hg : s.fetchAt k = some g) (hk : k ≠ tag) :
    ((s.setRequest tag none).setDirSet f.set d).reservedFor g := by
  obtain ⟨hset, hway⟩ := o.fetched tag f hf
  obtain ⟨hgs, hgw⟩ := o.fetched k g hg
  have hne : g.card ≠ f.card := fun e => hk (o.single k tag g f hg hf e)
  refine ⟨hgs, ?_⟩
  rw [o.findWay_closeFetch hf hcard p]; split
  · next hs =>
    rw [if_neg (fun h => hne (hcard _ h)), hgw]
    refine filter_other_way fun v hv e => ?_
    cases hv
    have := State.findWay_unique (o.sets _) hs hset.symm hgw hway e
    simp only [Way.mk.injEq, WayState.reserved.injEq] at this
    exact hne this.2
  · exact hgw

/-- A way that stands RESERVED after a fetch has ended stood so before, and for another fetch. -/
theorem Ordered.reserved_before_closeFetch (hst : st.isReserved = false) {c no : Nat}
    (h : ((s.setRequest tag none).setDirSet f.set d).findWay c = some ⟨no, .reserved c⟩) :
    s.findWay c = some ⟨no, .reserved c⟩ ∧ c ≠ f.card := by
  obtain ⟨hset, hway⟩ := o.fetched tag f hf
  rw [o.findWay_closeFetch hf hcard p] at h
  split at h
  · split at h
    · cases h; cases hst
    · obtain ⟨hold, hno⟩ := Option.filter_eq_some_iff.1 h
      refine ⟨hold, ?_⟩
      rintro rfl
      rw [hway] at hold; cases hold
      exact of_decide_eq_true hno rfl
  · next hs => exact ⟨h, fun e => hs (e ▸ hset.symm)⟩

theorem Ordered.closeFetch (hst : st.isReserved = false) : Ordered ((s.setRequest tag none).setDirSet f.set d) := by
  have hfetch : ∀ k, ((s.setRequest tag none).setDirSet f.set d).fetchAt k = if k = tag then none else s.fetchAt k :=
    State.fetchAt_setRequest s tag none
  refine ⟨Table.wf_set _ _ _ o.dirWf, Table.wf_set _ _ _ o.requestsWf, fun n => ?_, fun k g hg => ?_, fun c no h => ?_,
    fun a b x y hx hy e => ?_⟩
  · rw [State.setDirSet_dirSet]; split
    · next h => subst h; exact DirSet.inOrder_of_perm (o.put_fetched hf hcard) p
    · exact o.sets n
  · rw [hfetch] at hg; split at hg
    · cases hg
    · next hk => exact o.reservedFor_closeFetch hf hcard p hg hk
  · obtain ⟨hold, hc⟩ := o.reserved_before_closeFetch hf hcard p hst h
    obtain ⟨k, g, hg, hgc⟩ := o.reserved c no hold
    refine ⟨k, g, ?_, hgc⟩
    rw [hfetch, if_neg]
    · exact hg
    · rintro rfl
      rw [hf] at hg; cases hg
      exact hc hgc.symm
  · rw [hfetch] at hx hy
    split at hx
    · cases hx
    · split at hy
      · cases hy
      · exact o.single a b x y hx hy e

end

/-- A fetch ends: its entry leaves the table and its way takes a state that reserves nothing and holds no other card. -/
theorem Keeps.closeFetch {s : State} {tag : Nat} {f : Fetch} {st : WayState} {d : DirSet} (hf : s.fetchAt tag = some f)
    (hst : st.isReserved = false) (hcard : ∀ c, st.card = some c → c = f.card)
    (p : d.ways.Perm ((s.dirSet f.set).put f.way st).ways)
    (hcount : UnpostedCounted s → ∀ r stay, st = .valid r stay → r.verifies = true → r.unposted = s.recordsNaming r.data.card) :
    Keeps s ((s.setRequest tag none).setDirSet f.set d) := fun o => by
  refine ⟨o.closeFetch hf hcard p hst, fun c => ?_⟩
  have c1 : UnpostedCounted (s.setRequest tag none) := c.of_reads rfl (fun _ r stay h hv => ⟨r, stay, h, hv, rfl⟩)
    (fun k g hg hs => by
      rw [State.fetchAt_setRequest] at hg; split at hg
      · cases hg
      · exact ⟨k, g, hg, hs, rfl⟩)
  exact c1.place (o.sets _) (State.findWay_no (o.sets _) (o.fetched tag f hf).2) (o.put_fetched hf hcard) p (hcount c)

/-- R10: a fetch ends without a record. -/
theorem endFetch_keeps {s : State} {tag : Nat} {f : Fetch} (hf : s.fetchAt tag = some f) : Keeps s (s.endFetch tag f) :=
  Keeps.closeFetch hf rfl (fun _ h => by cases h) (DirSet.toLru_perm _ _) (fun _ _ _ e => by cases e)

/-- R111: a SENT fetch ends with the card's record in its way. -/
theorem installFetched_keeps {s : State} {tag : Nat} {f : Fetch} {d : CardData} (hf : s.fetchAt tag = some f) (hs : f.sent = true)
    (hd : d.card = f.card) : Keeps s ((s.setRequest tag none).install f.way d) := Keeps.of_ordered fun o => by
  have hset : setOf d.card = f.set := by rw [hd]; exact (o.fetched tag f hf).1.symm
  have h := Keeps.closeFetch (st := .valid (sealRecord d 0) s.nextStay) hf rfl (fun c hc => (Option.some.inj hc).symm.trans hd)
    (DirSet.toMru_perm f.way _) (fun c r stay e _ => by
      obtain ⟨rfl, -⟩ := WayState.valid.inj e
      rw [sealRecord_data, hd]
      exact (State.recordsNaming_eq_zero (c.2 tag f hf hs)).symm)
  refine h.trans (Keeps.of_frame ?_ rfl rfl)
  unfold State.install
  rw [hset]; rfl

section
variable {s : State} {card no : Nat} (o : Ordered s) (hcard : s.findWay card = none) (hno : no < 4)
include o hcard

theorem Ordered.put_reserved : ((s.dirSet (setOf card)).put no (.reserved card)).inOrder (setOf card) :=
  DirSet.inOrder_put (o.sets _) (fun c hc => by obtain rfl := Option.some.inj hc; rfl) (fun c hc w hw hwc => by
    obtain rfl := Option.some.inj hc
    exact absurd hwc (DirSet.holding_none.1 hcard w hw))

include hno

theorem Ordered.findWay_reserveWay (c : Nat) : (s.reserveWay card no).findWay c = if setOf c = setOf card then
    (if (WayState.reserved card).card = some c then some ⟨no, .reserved card⟩
      else (s.findWay c).filter (fun w => decide (w.no ≠ no))) else s.findWay c :=
  State.findWay_place (o.sets _) hno (o.put_reserved hcard) (DirSet.toMru_perm no _) c

theorem Ordered.findWay_reserved : (s.reserveWay card no).findWay card = some ⟨no, .reserved card⟩ := by
  rw [o.findWay_reserveWay hcard hno, if_pos rfl]; exact if_pos rfl

variable (hfree : ∀ c, setOf c = setOf card → s.findWay c ≠ some ⟨no, .reserved c⟩)
include hfree

/-- The ways reserved for other cards stay reserved. -/
theorem Ordered.reserved_reserveWay {c : Nat} (hc : c ≠ card) (k : Nat) :
    s.findWay c = some ⟨k, .reserved c⟩ ↔ (s.reserveWay card no).findWay c = some ⟨k, .reserved c⟩ := by
  rw [o.findWay_reserveWay hcard hno]; split
  · next hs =>
    rw [if_neg (show ¬ (WayState.reserved card).card = some c from fun h => hc (Option.some.inj h).symm), Option.filter_eq_some_iff]
    exact ⟨fun h => ⟨h, decide_eq_true (fun e : k = no => hfree c hs (e ▸ h))⟩, fun h => h.1⟩
  · rfl

theorem Ordered.openFetch {tag timer : Nat} {sent : Bool} {ws : List Waiter} (htag : s.fetchAt tag = none) :
    Ordered ((s.reserveWay card no).makeEntry tag timer (.fetch ⟨card, setOf card, no, sent, ws⟩)) := by
  have hfetch : ∀ k, ((s.reserveWay card no).makeEntry tag timer (.fetch ⟨card, setOf card, no, sent, ws⟩)).fetchAt k =
      if k = tag then some ⟨card, setOf card, no, sent, ws⟩ else s.fetchAt k := State.fetchAt_setRequest _ _ _
  have hother : ∀ k g, s.fetchAt k = some g → g.card ≠ card := fun k g hg e => by
    have := (o.fetched k g hg).2
    rw [e, hcard] at this; cases this
  refine ⟨Table.wf_set _ _ _ o.dirWf, Table.wf_set _ _ _ o.requestsWf, fun n => ?_, fun k g hg => ?_, fun c k h => ?_,
    fun a b x y hx hy e => ?_⟩
  · show ((s.reserveWay card no).dirSet n).inOrder n
    unfold State.reserveWay; rw [State.setDirSet_dirSet]; split
    · next h => subst h; exact DirSet.inOrder_of_perm (o.put_reserved hcard) (DirSet.toMru_perm no _)
    · exact o.sets n
  · rw [hfetch] at hg; split at hg
    · cases hg; exact ⟨rfl, o.findWay_reserved hcard hno⟩
    · obtain ⟨hgs, hgw⟩ := o.fetched k g hg
      exact ⟨hgs, (o.reserved_reserveWay hcard hno hfree (hother k g hg) _).1 hgw⟩
  · by_cases hc : c = card
    · exact ⟨tag, ⟨card, setOf card, no, sent, ws⟩, by rw [hfetch, if_pos rfl], hc.symm⟩
    · obtain ⟨a, g, hg, hgc⟩ := o.reserved c k ((o.reserved_reserveWay hcard hno hfree hc k).2 h)
      refine ⟨a, g, ?_, hgc⟩
      rw [hfetch, if_neg]
      · exact hg
      · rintro rfl; rw [htag] at hg; cases hg
  · rw [hfetch] at hx hy
    split at hx <;> split at hy
    · next ha hb => rw [ha, hb]
    · cases hx; exact absurd e.symm (hother b y hy)
    · cases hy; exact absurd e (hother a x hx)
    · exact o.single a b x y hx hy e

end

/-- R8, R106: a fetch of a card in no way is issued into a free tag, with a way that no other fetch has reserved. -/
theorem openFetch_keeps {s : State} {card no tag timer : Nat} {sent : Bool} {ws : List Waiter} (hcard : s.findWay card = none)
    (hno : no < 4) (hfree : ∀ c, setOf c = setOf card → s.findWay c ≠ some ⟨no, .reserved c⟩) (htag : s.fetchAt tag = none)
    (hsent : sent = true → s.names card = false) :
    Keeps s ((s.reserveWay card no).makeEntry tag timer (.fetch ⟨card, setOf card, no, sent, ws⟩)) := fun o => by
  have hfetch : ∀ k, ((s.reserveWay card no).makeEntry tag timer (.fetch ⟨card, setOf card, no, sent, ws⟩)).fetchAt k =
      if k = tag then some ⟨card, setOf card, no, sent, ws⟩ else s.fetchAt k := State.fetchAt_setRequest _ _ _
  refine ⟨o.openFetch hcard hno hfree htag, fun c => ?_⟩
  have c1 := c.place (o.sets _) hno (o.put_reserved hcard) (DirSet.toMru_perm no _) (fun _ _ e => by cases e)
  refine ⟨c1.1, fun k g hg hs => ?_⟩
  rw [hfetch] at hg; split at hg
  · cases hg; exact hsent hs
  · exact c.2 k g hg hs

/-! ### POSTED (R130, R108) -/

/-- Each resident record that verifies counts the records of a list that name its card. -/
def State.countedBy (s : State) (records : List JournalRecord) : Prop :=
  ∀ card r stay, s.recordOf card = some (r, stay) → r.verifies = true →
    r.unposted = (records.filter (fun x => decide (x.card = card))).length

/-- What uncounting a removed record does to the order and to the records: none comes, the card's own count falls. -/
theorem State.uncountUnposted_spec {s : State} (o : Ordered s) (card : Nat) : Ordered (s.uncountUnposted card) ∧
    ∀ c r stay, (s.uncountUnposted card).recordOf c = some (r, stay) → r.verifies = true →
      ∃ r', s.recordOf c = some (r', stay) ∧ r'.verifies = true ∧ r.unposted = r'.unposted - if c = card then 1 else 0 := by
  unfold State.uncountUnposted; split
  · next no r0 stay0 hf =>
    have hr0 := State.recordOf_of_findWay hf
    split
    · next hv0 =>
      have hw : Ordered (s.writeUnposted card (fun n => n - 1)) := o.writeRecord _ hr0 (State.recordOf_card hr0 :)
      have hrec := State.recordOf_writeUnposted (fun n => n - 1) (o.sets _) hr0 (State.recordOf_card hr0)
      have key : ∀ c r stay, (s.writeUnposted card (fun n => n - 1)).recordOf c = some (r, stay) → r.verifies = true →
          ∃ r', s.recordOf c = some (r', stay) ∧ r'.verifies = true ∧ r.unposted = r'.unposted - if c = card then 1 else 0 := by
        intro c r stay h hv
        rw [hrec] at h
        split at h
        · next hc =>
          simp only [Option.some.injEq, Prod.mk.injEq] at h
          obtain ⟨rfl, rfl⟩ := h
          exact ⟨r0, hc ▸ hr0, hv0, by rw [if_pos hc, sealRecord_unposted]⟩
        · next hc => exact ⟨r, h, hv, by rw [if_neg hc]; rfl⟩
      dsimp only; split
      · have hfw : (s.writeUnposted card (fun n => n - 1)).findWay card = some ⟨no, .valid (sealRecord r0.data (r0.unposted - 1)) stay0⟩ :=
          (State.findWay_writeRecord _ (o.sets _) hf (State.recordOf_card hr0 :) card).trans (if_pos rfl)
        refine ⟨(Keeps.dropWay_valid hfw hw).1, fun c r stay h hv => key c r stay ?_ hv⟩
        rw [State.recordOf_dropWay (hw.sets _) hfw rfl] at h
        split at h
        · cases h
        · exact h
      · exact ⟨hw, key⟩
    · refine ⟨(Keeps.checkFault_valid hf o).1, fun c r stay h hv => ?_⟩
      have h' : (s.dropWay (setOf card) no).recordOf c = some (r, stay) := h
      rw [State.recordOf_dropWay (o.sets _) hf rfl] at h'
      split at h'
      · cases h'
      · next hc => exact ⟨r, h', hv, by rw [if_neg hc]; rfl⟩
  · next hn =>
    refine ⟨o, fun c r stay h hv => ⟨r, h, hv, ?_⟩⟩
    split
    · next hc =>
      subst hc
      obtain ⟨no, hf⟩ := State.recordOf_some h
      exact absurd hf (hn _ _ _)
    · rfl

theorem State.retire_spec {s : State} (o : Ordered s) {r : JournalRecord} {rs : List JournalRecord} (c : s.countedBy (r :: rs)) :
    Ordered (s.retire r) ∧ (s.retire r).countedBy rs := by
  obtain ⟨o1, h⟩ := State.uncountUnposted_spec o r.card
  refine ⟨o1.of_frame rfl rfl, fun card x stay hx hv => ?_⟩
  obtain ⟨x', hx', hv', hu⟩ := h card x stay hx hv
  rw [hu, c card x' stay hx' hv']
  by_cases hc : card = r.card
  · simp [hc]
  · simp [hc, Ne.symm hc]

theorem retire_ordered {s : State} (o : Ordered s) (r : JournalRecord) : Ordered (s.retire r) :=
  (State.uncountUnposted_spec o r.card).1.of_frame rfl rfl

/-- R130: the retiring of the removed records leaves each verified record the count of those that are left. -/
theorem retired_spec : ∀ (removed left : List JournalRecord) (s : State), Ordered s →
    Ordered (removed.foldl State.retire s) ∧ (s.countedBy (removed ++ left) → (removed.foldl State.retire s).countedBy left)
  | [], _, _, o => ⟨o, id⟩
  | r :: rs, left, _, o =>
    have h := retired_spec rs left _ (retire_ordered o r)
    ⟨h.1, fun c => h.2 (State.retire_spec o c).2⟩

/-- R4: the ways that fell in one event take their order, and every card finds what it found. -/
theorem Keeps.inFallOrder {s t : State} (h : Keeps s t) : Keeps s (s.inFallOrder t) := Keeps.of_ordered fun o =>
  have ot := (h o).1
  have hwf : ∀ (ks : List Nat) (u : State), u.dir.wf DirSet.default = true →
      (ks.foldl (fun u n => u.setDirSet n ((s.dirSet n).inFallOrder (u.dirSet n))) u).dir.wf DirSet.default = true := by
    intro ks
    induction ks with
    | nil => exact fun _ hu => hu
    | cons k ks ih => exact fun u hu => ih _ (Table.wf_set _ _ _ hu)
  h.trans (Keeps.of_findWay (s.inFallOrder_only t).requests (congrArg _ (s.inFallOrder_only t).journal) (hwf _ t ot.dirWf)
    (State.inOrder_inFallOrder o.sets ot.sets) (State.findWay_inFallOrder o.sets ot.sets))

theorem splitAtSequence_append {n : Nat} : ∀ {rs removed left : List JournalRecord}, splitAtSequence n rs = some (removed, left) →
    rs = removed ++ left
  | [], _, _, h => by cases h
  | r :: t, removed, left, h => by
    unfold splitAtSequence at h; split at h
    · cases h; rfl
    · obtain ⟨⟨a, b⟩, hab, e⟩ := Option.map_eq_some_iff.1 h
      simp only [Prod.mk.injEq] at e
      obtain ⟨rfl, rfl⟩ := e
      rw [splitAtSequence_append hab]; rfl

theorem Journal.postable_append {j : Journal} {n : Nat} {removed left : List JournalRecord} (h : j.postable n = some (removed, left)) :
    j.records = removed ++ left := by
  unfold Journal.postable at h; split at h
  · exact splitAtSequence_append h
  · cases h

/-- R108: the gate of a WAITING-POST fetch opens where no record left names its card. -/
theorem openFetchGate_keeps (removed : List JournalRecord) (s : State) (tag : Nat) : Keeps s (State.openFetchGate removed s tag) := by
  unfold State.openFetchGate; split
  · next gen oldGens timer f hx =>
    have hf : s.fetchAt tag = some f := State.fetchAt_some.2 ⟨_, hx, rfl⟩
    split
    · next hg =>
      simp only [Bool.and_eq_true, Bool.not_eq_true'] at hg
      obtain ⟨-, hn⟩ := hg
      refine Keeps.trans (t := s.setRequest tag _) (fun o => ⟨?_, fun c => ⟨c.1, fun k g hgk hs => ?_⟩⟩) (Keeps.of_frame rfl rfl rfl)
      · refine o.of_reads o.dirWf (Table.wf_set _ _ _ o.requestsWf) o.sets (fun _ _ => Iff.rfl) (fun k => ?_)
        rw [State.fetchAt_setRequest]; split
        · next h => rw [h, hf]; rfl
        · rfl
      · rw [State.fetchAt_setRequest] at hgk; split at hgk
        · cases hgk; exact hn
        · exact c.2 k g hgk hs
    · exact Keeps.refl s
  · exact Keeps.refl s

theorem rearm_keeps (s : State) : Keeps s s.rearm := by
  unfold State.rearm; split
  · exact Keeps.of_frame rfl rfl rfl
  · exact Keeps.refl _

theorem post_keeps {s : State} {n : Nat} {removed left : List JournalRecord} (h : s.journal.records = removed ++ left) :
    Keeps s (s.post n removed left) := by
  have hfold : ∀ t : State, Only (Piece.ofRecord ++ [.links]) t (removed.foldl State.retire t) :=
    Only.foldl (fun t r => t.retire_only r) removed
  have key : ∀ s1 : State, s1 = { s with journal := { s.journal with records := left, highestPosted := n } } →
      Keeps s (removed.foldl State.retire s1) := by
    intro s1 hs1 o
    have o1 : Ordered s1 := o.of_frame (by rw [hs1]) (by rw [hs1])
    have hrec : ∀ card, s1.recordOf card = s.recordOf card := fun card => State.recordOf_congr (State.findWay_congr (by rw [hs1]) card)
    have hleft : s1.journal.records = left := by rw [hs1]
    obtain ⟨o2, c2⟩ := retired_spec removed left s1 o1
    refine ⟨o2, fun c => ⟨fun card r stay hr hv => ?_, fun tag f hf hs => ?_⟩⟩
    · rw [(hfold s1).journal, hleft]
      exact c2 (fun card r stay h' => by rw [← h]; rw [hrec] at h'; exact c.1 card r stay h') card r stay hr hv
    · rw [State.fetchAt_congr (hfold s1).requests, State.fetchAt_congr (s := s) (by rw [hs1])] at hf
      have hn := c.2 tag f hf hs
      unfold State.names at hn ⊢
      rw [(hfold s1).journal, hleft]
      rw [h, List.any_append, Bool.or_eq_false_iff] at hn
      exact hn.2
  unfold State.post; dsimp only
  exact ((key _ rfl).inFallOrder.trans (Keeps.foldl (openFetchGate_keeps removed) _ _)).trans (rearm_keeps _)

end Sys2Proof.Machine
end

section
/-! Every operation of the evaluation, the undos, the deliveries, the fetches and the clock keeps the directory's order and the
unposted counts: one lemma an operation, in the order of the model. -/

namespace Sys2Proof.Machine

/-! ### The journal and the holds -/

theorem admission_keeps (s : State) (need : Nat) (kind : Word16) : Keeps s (s.admission need kind).1 := by
  unfold State.admission; split
  · exact Keeps.of_frame rfl rfl rfl
  · split
    · exact Keeps.refl s
    · exact Keeps.of_frame rfl rfl rfl

theorem settle_keeps (s : State) : Keeps s s.settle := s.settle_only.keeps rfl

/-- R2: the record stands in its card's way and matches its check code. -/
structure State.Verified (s : State) (r : CardRecord) (stay : Nat) : Prop where
  record : s.recordOf r.data.card = some (r, stay)
  verifies : r.verifies = true

theorem State.Verified.congr {s t : State} {r : CardRecord} {stay : Nat} (h : s.Verified r stay) (hd : t.dir = s.dir) :
    t.Verified r stay := ⟨(State.recordOf_congr (State.findWay_congr hd _)).trans h.record, h.verifies⟩

theorem State.Verified.writeData_keeps {s : State} {r : CardRecord} {stay : Nat} (h : s.Verified r stay) (f : CardData → CardData)
    (hc : (f r.data).card = r.data.card) : Keeps s (s.writeData r.data.card f) := Keeps.writeData f h.record h.verifies hc

theorem State.Verified.of_read {s s1 : State} {card : Nat} {r : CardRecord} {stay : Nat} (h : s.readRecord card = (s1, some (r, stay))) :
    s1 = s ∧ r.data.card = card ∧ s.Verified r stay := by
  obtain ⟨h1, hr, hv⟩ := State.readRecord_verified h
  have hc := State.recordOf_card hr
  exact ⟨h1, hc, hc ▸ hr, hv⟩

theorem forfeitTest_keeps (s : State) (card : Nat) : Keeps s (s.forfeitTest card) := by
  unfold State.forfeitTest; split
  · exact readRecord_keeps_of_eq ‹_›
  · next s1 r stay h =>
    obtain ⟨rfl, rfl, hv⟩ := State.Verified.of_read h
    dsimp only; split
    · exact (hv.writeData_keeps _ rfl).trans (joinRecord_keeps _ _)
    · exact Keeps.refl _

/-- After the forfeit test the card's record, where one stands, matches its check code. -/
theorem State.forfeitTest_verified {s : State} (o : Ordered s) {card : Nat} {r : CardRecord} {stay : Nat}
    (h : (s.forfeitTest card).recordOf card = some (r, stay)) : (s.forfeitTest card).Verified r stay := by
  have hc := State.recordOf_card h
  refine ⟨by rw [hc]; exact h, ?_⟩
  unfold State.forfeitTest at h; split at h
  · next h0 => rw [State.readRecord_gone o h0] at h; cases h
  · next s1 r0 stay0 h0 =>
    obtain ⟨rfl, rfl, hv⟩ := State.Verified.of_read h0
    dsimp only at h; split at h
    · rw [State.recordOf_joinRecord ((hv.writeData_keeps _ rfl o).1.sets _), if_pos rfl] at h
      obtain ⟨x, -, hx⟩ := Option.bind_eq_some_iff.1 h
      split at hx
      · cases hx; simp
      · cases hx
    · rw [hv.record] at h; cases h; exact hv.verifies

theorem expireHold_keeps (s : State) (h : Hold) : Keeps s (s.expireHold h) :=
  (((s.freeHold_only h).keeps rfl).trans ((withNotes_only _ _).keeps rfl)).trans (forfeitTest_keeps _ _)

theorem expireIfDue_keeps (s : State) (id : Nat) : Keeps s (s.expireIfDue id) := by
  unfold State.expireIfDue; split
  · split
    · exact expireHold_keeps _ _
    · exact Keeps.refl s
  · exact Keeps.refl s

/-! ### Undos and the emptying of a link -/

theorem undoInStay_card (f : Effect) (date : Nat) (d : CardData) : (undoInStay f date d).card = d.card := by
  cases f <;> simp only [undoInStay, uncountUse] <;> split <;> rfl

theorem undoLater_card (f : Effect) (date b c : Nat) (d : CardData) : (undoLater f date b c d).data.card = d.card := by
  cases f <;> simp only [undoLater, uncountUse] <;> split <;> rfl

theorem undoPurses_keeps (s : State) (u : UndoRecord) : Keeps s (s.undoPurses u).1 := by
  unfold State.undoPurses; split
  · exact readRecord_keeps_of_eq ‹_›
  · next s1 r stay h =>
    obtain ⟨rfl, hc, hv⟩ := State.Verified.of_read h
    rw [← hc]; split
    · exact hv.writeData_keeps _ (undoInStay_card _ _ _)
    · exact hv.writeData_keeps (fun _ => _) (undoLater_card _ _ _ _ _)

theorem undoHold_keeps (s : State) (u : UndoRecord) (id : Nat) : Keeps s (s.undoHold u id) := by
  have h : ∀ t, Keeps s t → Keeps s (((t.undoPurses u).1).forfeitTest u.card) := fun t ht =>
    (ht.trans (undoPurses_keeps _ _)).trans (forfeitTest_keeps _ _)
  unfold State.undoHold
  refine h _ ?_
  split
  · exact (s.freeHold_only _).keeps rfl
  · exact Keeps.refl s

theorem undoAfter_keeps (s : State) (u : UndoRecord) : Keeps s (s.undoAfter u) := by
  unfold State.undoAfter; split
  · exact expireIfDue_keeps _ _
  · exact Keeps.refl s

theorem releaseSlot_keeps (s : State) : Keeps s s.releaseSlot := Keeps.of_frame rfl rfl rfl

theorem undo_keeps (s : State) (u : UndoRecord) : Keeps s (s.undo u) := by
  unfold State.undo; split
  · exact undoHold_keeps _ _ _
  · exact Keeps.refl s
  · exact ((((undoPurses_keeps s u).trans ((State.undoBeside_only _ u).keeps rfl)).trans (releaseSlot_keeps _)).trans
      (joinRecord_keeps _ _)).trans (undoAfter_keeps _ _)

theorem abandonIn_fetch (l slot : Nat) (x : HostEntry) :
    (abandonIn l slot x).fetch?.map (fun f => (f.home, f.sent)) = x.fetch?.map (fun f => (f.home, f.sent)) := by
  obtain ⟨gen, old, timer, kind⟩ := x
  cases kind with
  | fetch f => rfl
  | referral r => simp only [abandonIn]; split <;> rfl

/-- R110, R118: the abandoning of a request takes it from wait lists and marks its REFERRAL. -/
theorem abandon_keeps (s : State) (l slot : Nat) : Keeps s (s.abandon l slot) := by
  unfold State.abandon
  refine Keeps.foldl (fun s t => ?_) _ s
  split
  · next x hx =>
    refine Keeps.of_fetchAt rfl rfl (fun o => Table.wf_set _ _ _ o.requestsWf) (fun _ k => ?_)
    rw [State.fetchAt_setRequest]; split
    · next h => subst h; unfold State.fetchAt; rw [hx]; exact abandonIn_fetch l slot x
    · rfl
  · exact Keeps.refl s

theorem emptyEntry_keeps (l : Nat) (e : ReplyEntry) (a : State × Emptied) : Keeps a.1 (State.emptyEntry l e a).1 := by
  have h : Keeps a.1 ((a.1.dropEntry l e.slot).endMark e) := ((State.dropEntry_only _ _ _).keeps rfl).trans ((State.endMark_only _ _).keeps rfl)
  unfold State.emptyEntry; dsimp only; split
  · exact h.trans (abandon_keeps _ _ _)
  · exact h.trans (undo_keeps _ _)
  · exact h.trans (undo_keeps _ _)
  · exact h.trans ((State.queue_only _ _).keeps rfl)
  · exact h

theorem emptied_keeps {l : Nat} : ∀ (es : List ReplyEntry) (a : State × Emptied),
    Keeps a.1 (es.foldl (fun acc e => State.emptyEntry l e acc) a).1
  | [], a => Keeps.refl a.1
  | e :: es, a => (emptyEntry_keeps l e a).trans (emptied_keeps es _)

theorem emptyLink_keeps (s : State) (l : Nat) (st : LinkState) (n : Emptied) : Keeps s (s.emptyLink l st n).1 :=
  (Keeps.inFallOrder (emptied_keeps _ (s, n))).trans ((State.closeSession_only _ _ _).keeps rfl)

theorem loseLink_keeps (s : State) (l : Nat) (b : Bool) : Keeps s (s.loseLink l b) :=
  (emptyLink_keeps s l _ _).trans ((State.raise_only _ _ _).keeps rfl)

theorem emptiedLinks_keeps : ∀ (ls : List Nat) (a : State × Emptied),
    Keeps a.1 (ls.foldl (fun acc l => State.emptyLink acc.1 l .disabled acc.2) a).1
  | [], a => Keeps.refl a.1
  | _ :: ls, _ => (emptyLink_keeps _ _ _ _).trans (emptiedLinks_keeps ls _)

/-! ### Delivery (R63, R64, R164) and the gate timeout (R135) -/

theorem credit_keeps (s : State) (card : Nat) (stay : Option Nat) (b c : Nat) : Keeps s (s.credit card stay b c) := by
  unfold State.credit; split
  · split
    · split
      · next s1 x h =>
        obtain ⟨r, stay'⟩ := x
        obtain ⟨rfl, rfl, hv⟩ := State.Verified.of_read h
        exact hv.writeData_keeps _ rfl
      · exact readRecord_keeps_of_eq ‹_›
    · exact Keeps.refl s
  · exact Keeps.refl s

theorem confirm_keeps (s : State) (u : UndoRecord) : Keeps s (s.confirm u) := by
  unfold State.confirm; split
  · exact Keeps.refl s
  · exact Keeps.refl s
  · exact ((s.modHold_only _ _).keeps rfl).trans (expireIfDue_keeps _ _)
  · split
    · exact (s.freeHold_only _).keeps rfl
    · exact Keeps.refl s
  · exact credit_keeps _ _ _ _ _
  · exact credit_keeps _ _ _ _ _

theorem releaseOf_keeps (s : State) (u : UndoRecord) : Keeps s (s.releaseOf u) := by
  unfold State.releaseOf; split
  · exact releaseSlot_keeps s
  · exact Keeps.refl s

theorem deliver_keeps (s : State) (l : Nat) (e : ReplyEntry) (reply : TillReply) (u : Option UndoRecord) :
    Keeps s (s.deliver l e reply u) := by
  have h1 : Keeps s ((s.transmit l (.tillReply reply)).dropEntry l e.slot) :=
    ((s.transmit_only _ _).keeps rfl).trans ((State.dropEntry_only _ _ _).keeps rfl)
  have key : ∀ t, Keeps s t → Keeps s (match (t.lowerExposure e reply).acceptedAt e with
      | some n => (t.lowerExposure e reply).atTill n e reply u
      | none => t.lowerExposure e reply) := by
    intro t ht
    have h2 := ht.trans ((t.lowerExposure_only e reply).keeps rfl)
    split
    · exact h2.trans ((State.atTill_only _ _ _ _ _).keeps rfl)
    · exact h2
  cases u with
  | some x => exact key _ ((h1.trans (confirm_keeps _ x)).trans (releaseOf_keeps _ x))
  | none => exact key _ h1

theorem gateTimeout_keeps (s : State) (l : Nat) (e : ReplyEntry) (reply : TillReply) (u : UndoRecord) :
    Keeps s (s.gateTimeout l e reply u) :=
  ((undo_keeps s u).trans ((State.clearMark_only _ e).keeps rfl)).trans ((State.finish_only _ _ _ _).keeps rfl)

/-! ### The evaluation of a request against a resident record (R41) -/

theorem decline_keeps (l : Nat) (e : ReplyEntry) (r : Reason) (free : Option Nat) (s : State) : Keeps s (decline l e r free s) :=
  (decline_only s l e r free).keeps rfl

theorem unexpected_keeps (l : Nat) (e : ReplyEntry) (s : State) : Keeps s (unexpected l e s) := decline_keeps _ _ _ _ _

theorem withRecord_keeps {s : State} {l : Nat} {e : ReplyEntry} {card : Nat} {act : CardData → Nat → State → State}
    (h : ∀ r stay t, t.Verified r stay → Keeps t (act r.data stay t)) : Keeps s (s.withRecord l e card act) :=
  Keeps.of_ordered fun o => by
    unfold State.withRecord; dsimp only
    refine (forfeitTest_keeps s card).trans ?_
    split
    · next hr => exact h _ _ _ (State.forfeitTest_verified o hr)
    · exact unexpected_keeps _ _ _

theorem admitted_keeps {s : State} {l : Nat} {e : ReplyEntry} {free : Option Nat} {act : State → State}
    (h : ∀ t, t.dir = s.dir → Keeps t (act t)) : Keeps s (s.admitted l e free act) := by
  have ha := admission_keeps s 2 (kindCode e.msg.kind)
  unfold State.admitted; split
  · next h0 => rw [h0] at ha; exact ha.trans (h _ (State.admission_frame h0).dir)
  · next h0 => rw [h0] at ha; exact ha.trans (decline_keeps _ _ _ _ _)

theorem underProgram_keeps {s : State} {l : Nat} {e : ReplyEntry} {card : Nat} {act : Program → State}
    (h : ∀ p, Keeps s (act p)) : Keeps s (s.underProgram l e card act) := by
  unfold State.underProgram; split
  · exact decline_keeps _ _ _ _ _
  · exact h _

section
variable {s : State} {l : Nat} {e : ReplyEntry} {r : CardRecord} {stay : Nat}

theorem evalEnquiry_keeps (d : CardData) : Keeps s (evalEnquiry l e d s) := (evalEnquiry_only s l e d).keeps rfl

theorem applyRedeem_keeps (h : s.Verified r stay) (p : Program) (x : Debit) : Keeps s (applyRedeem l e p r.data stay x s) := by
  unfold applyRedeem; dsimp only
  refine Keeps.trans ?_ ((gate_only _ _ _ _ _ _ _).keeps rfl)
  refine Keeps.trans (h.writeData_keeps _ ?_) (joinUndoable_keeps _ _)
  rfl

theorem evalRedeem_keeps (h : s.Verified r stay) (p : Program) : Keeps s (evalRedeem l e p r.data stay s) := by
  unfold evalRedeem; dsimp only; split
  · exact decline_keeps _ _ _ _ _
  · split
    · exact decline_keeps _ _ _ _ _
    · split
      · exact decline_keeps _ _ _ _ _
      · exact admitted_keeps (fun t ht => applyRedeem_keeps (h.congr ht) _ _)

theorem applyReload_keeps (d : CardData) (p : Program) : Keeps s (applyReload l e p d stay s) := by
  unfold applyReload; dsimp only
  exact (joinUndoable_keeps _ _).trans ((gate_only _ _ _ _ _ _ _).keeps rfl)

theorem evalReload_keeps (d : CardData) (p : Program) : Keeps s (evalReload l e p d stay s) := by
  unfold evalReload; dsimp only; split
  · exact decline_keeps _ _ _ _ _
  · split
    · exact decline_keeps _ _ _ _ _
    · exact admitted_keeps (fun _ _ => applyReload_keeps _ _)

theorem evalReverse_keeps (d : CardData) (p : Option Program) (x : StackEntry) : Keeps s (evalReverse l e p x d stay s) := by
  unfold evalReverse; dsimp only; split
  · exact decline_keeps _ _ _ _ _
  · refine admitted_keeps (fun _ _ => ?_)
    unfold applyReverse; dsimp only
    exact (joinUndoable_keeps _ _).trans ((gate_only _ _ _ _ _ _ _).keeps rfl)

theorem applyHold_keeps (h : s.Verified r stay) (p : Program) (site : Nat) (x : Debit) :
    Keeps s (applyHold l e p site r.data stay x s) := by
  unfold applyHold; dsimp only
  refine Keeps.trans ?_ ((ready_only _ _ _ _ _).keeps rfl)
  have hkeep : ∀ t : State, t.dir = s.dir → t.requests = s.requests → t.journal.records = s.journal.records →
      Keeps s (t.writeData r.data.card (fun _ => countUse r.data s.date)) := fun t hd hr hj =>
    (Keeps.of_frame hd hr hj).trans ((h.congr hd).writeData_keeps _ rfl)
  exact hkeep _ rfl rfl rfl

theorem evalHold_keeps (h : s.Verified r stay) (p : Program) (site : Nat) : Keeps s (evalHold l e p site r.data stay s) := by
  unfold evalHold; dsimp only; split
  · exact decline_keeps _ _ _ _ _
  · split
    · exact decline_keeps _ _ _ _ _
    · split
      · exact decline_keeps _ _ _ _ _
      · split
        · exact decline_keeps _ _ _ _ _
        · split
          · exact decline_keeps _ _ _ _ _
          · exact admitted_keeps (fun t ht => applyHold_keeps (h.congr ht) _ _ _)

theorem applyComplete_keeps (h : s.Verified r stay) (p : Option Program) (y : Hold) (x : Capture) :
    Keeps s (applyComplete l e p y r.data stay x s) := by
  unfold applyComplete; dsimp only
  refine Keeps.trans ?_ ((gate_only _ _ _ _ _ _ _).keeps rfl)
  refine Keeps.trans (Keeps.trans (h.writeData_keeps _ ?_) ((State.modHold_only _ _ _).keeps rfl)) (joinUndoable_keeps _ _)
  rfl

theorem evalComplete_keeps (h : s.Verified r stay) (p : Option Program) (id : Nat) :
    Keeps s (evalComplete l e p id r.data stay s) := by
  unfold evalComplete; dsimp only; split
  · exact decline_keeps _ _ _ _ _
  · exact decline_keeps _ _ _ _ _
  · split
    · exact decline_keeps _ _ _ _ _
    · exact admitted_keeps (fun t ht => applyComplete_keeps (h.congr ht) _ _ _)

theorem evalRelease_keeps (d : CardData) (id : Nat) : Keeps s (evalRelease l e id d s) := by
  unfold evalRelease; dsimp only; split
  · exact decline_keeps _ _ _ _ _
  · exact decline_keeps _ _ _ _ _
  · exact (((s.freeHold_only _).keeps rfl).trans (forfeitTest_keeps _ _)).trans ((ready_only _ _ _ _ _).keeps rfl)

end

theorem evaluate_keeps (l : Nat) (e : ReplyEntry) (card : Nat) (s : State) : Keeps s (evaluate l e card s) := by
  unfold evaluate; dsimp only
  refine (touch_keeps s card).trans ?_
  split
  · exact underProgram_keeps (fun _ => withRecord_keeps (fun _ _ _ _ => evalEnquiry_keeps _))
  · exact underProgram_keeps (fun _ => withRecord_keeps (fun _ _ _ h => evalRedeem_keeps h _))
  · split
    · exact underProgram_keeps (fun _ => withRecord_keeps (fun _ _ _ h => evalHold_keeps h _ _))
    · exact unexpected_keeps _ _ _
  · exact underProgram_keeps (fun _ => withRecord_keeps (fun _ _ _ _ => evalReload_keeps _ _))
  · split
    · exact withRecord_keeps (fun _ _ _ h => evalComplete_keeps h _ _)
    · exact unexpected_keeps _ _ _
  · split
    · exact withRecord_keeps (fun _ _ _ _ => evalRelease_keeps _ _)
    · exact unexpected_keeps _ _ _
  · split
    · exact withRecord_keeps (fun _ _ _ _ => evalReverse_keeps _ _ _)
    · exact unexpected_keeps _ _ _
  · exact unexpected_keeps _ _ _
  · exact unexpected_keeps _ _ _
  · exact unexpected_keeps _ _ _

/-! ### The directory's decision (R6 to R8, R15) -/

theorem State.freeTag_some {s : State} {tag : Nat} (h : s.freeTag = some tag) : s.request tag = none := by
  have := List.find?_some h
  simpa using this

theorem State.fetchAt_of_free {s : State} {tag : Nat} (h : s.request tag = none) : s.fetchAt tag = none := by
  unfold State.fetchAt; rw [h]; rfl

theorem refer_keeps (l : Nat) (e : ReplyEntry) (s : State) : Keeps s (refer l e s) := by
  unfold refer; split
  · exact decline_keeps _ _ _ _ _
  · next tag h =>
    have htag := State.fetchAt_of_free (State.freeTag_some h)
    dsimp only
    refine Keeps.trans ?_ ((State.queue_only _ _).keeps rfl)
    exact Keeps.trans (t := s.bumpGeneration tag) (Keeps.of_frame rfl rfl rfl) (Keeps.setRequest_unfetched htag rfl)

theorem issueFetch_keeps {l : Nat} {e : ReplyEntry} {card no tag : Nat} {s : State} (hcard : s.findWay card = none)
    (hv : s.victim card = some no) (ht : s.freeTag = some tag) : Keeps s (issueFetch l e card no tag s) := Keeps.of_ordered fun o => by
  have h : ∀ timer, Keeps s ((s.reserveWay card no).makeEntry tag timer
      (.fetch ⟨card, setOf card, no, !s.names card, [⟨l, e.slot⟩]⟩)) := fun timer =>
    openFetch_keeps hcard (State.victim_lt (o.sets _) hv) (State.victim_not_reserved (o.sets _) hv)
      (State.fetchAt_of_free (State.freeTag_some ht)) (fun h => by simpa using h)
  unfold issueFetch; dsimp only; split
  · exact (h _).trans ((State.queue_only _ _).keeps rfl)
  · exact h _

theorem joinWaitList_keeps (l : Nat) (e : ReplyEntry) (card : Nat) (s : State) : Keeps s (joinWaitList l e card s) := by
  unfold joinWaitList; split
  · next tag x f h =>
    obtain ⟨hx, hk, -⟩ := State.fetchFor_some h
    split
    · exact Keeps.setRequest_same (State.fetchAt_some.2 ⟨x, hx, hk⟩) rfl rfl rfl
    · exact decline_keeps _ _ _ _ _
  · exact unexpected_keeps _ _ _

theorem releaseWithoutCard_keeps (l : Nat) (e : ReplyEntry) (id : Nat) (s : State) : Keeps s (releaseWithoutCard l e id s) :=
  (releaseWithoutCard_only s l e id).keeps rfl

theorem missUnfetched_keeps (l : Nat) (e : ReplyEntry) (s : State) : Keeps s (missUnfetched l e s) := by
  unfold missUnfetched; split
  · exact releaseWithoutCard_keeps _ _ _ _
  · exact decline_keeps _ _ _ _ _
  · exact refer_keeps _ _ _

theorem miss_keeps {l : Nat} {e : ReplyEntry} {card : Nat} {s : State} (h : s.findWay card = none) : Keeps s (miss l e card s) := by
  unfold miss; split
  · unfold missNormal; split
    · exact missUnfetched_keeps _ _ _
    · split
      · exact decline_keeps _ _ _ _ _
      · exact issueFetch_keeps h ‹_› ‹_›
  · exact missUnfetched_keeps _ _ _

theorem meetReserved_keeps (l : Nat) (e : ReplyEntry) (card : Nat) (s : State) : Keeps s (meetReserved l e card s) := by
  unfold meetReserved; split
  · exact missUnfetched_keeps _ _ _
  · exact joinWaitList_keeps _ _ _ _

/-- After a check fault its card is in no way. -/
theorem State.findWay_checkFault {s : State} {card no : Nat} {r : CardRecord} {stay : Nat}
    (h : (s.dirSet (setOf card)).inOrder (setOf card)) (hf : s.findWay card = some ⟨no, .valid r stay⟩) :
    (s.checkFault card no).findWay card = none := by
  show (s.dropWay (setOf card) no).findWay card = none
  rw [State.findWay_dropWay h (State.findWay_no h hf), if_pos rfl, hf, Option.filter_some_neg (by simp)]

/-- A lookup goes on with a miss where its card is in no way, the one with a check fault among them. -/
theorem lookup_keeps {l : Nat} {e : ReplyEntry} {card : Nat} {onMiss : State → State} {s : State}
    (h : ∀ t, t.findWay card = none → Keeps t (onMiss t)) : Keeps s (lookup l e card onMiss s) := Keeps.of_ordered fun o => by
  unfold lookup; split
  · exact h _ ‹_›
  · next w hw =>
    obtain ⟨no, st⟩ := w
    cases st with
    | valid r stay =>
      dsimp only; split
      · next h0 => exact (readRecord_keeps_of_eq h0).trans (evaluate_keeps _ _ _ _)
      · next h0 =>
        refine (readRecord_keeps_of_eq h0).trans (h _ ?_)
        unfold State.readRecord at h0; rw [hw] at h0
        dsimp only at h0; split at h0
        · simp at h0
        · obtain rfl := (Prod.mk.inj h0).1
          exact State.findWay_checkFault (o.sets _) hw
    | reserved c => exact meetReserved_keeps _ _ _ _
    | invalid => cases State.findWay_card hw

theorem flushingDecision_keeps {l : Nat} {e : ReplyEntry} {card : Nat} {onMiss : State → State} {s : State}
    (h : ∀ t, Keeps t (onMiss t)) : Keeps s (flushingDecision l e card onMiss s) := by
  unfold flushingDecision; split
  · exact h s
  · split
    · exact decline_keeps _ _ _ _ _
    · exact joinWaitList_keeps _ _ _ _
    · exact h s

theorem directoryDecision_keeps (l : Nat) (e : ReplyEntry) (card : Nat) (s : State) : Keeps s (directoryDecision l e card s) := by
  unfold directoryDecision; split
  · exact refer_keeps _ _ _
  · split
    · exact refer_keeps _ _ _
    · exact refer_keeps _ _ _
    · exact flushingDecision_keeps (refer_keeps l e)
    · exact lookup_keeps (fun _ h => miss_keeps h)
    · exact lookup_keeps (fun _ h => miss_keeps h)

theorem journalOnly_keeps (l : Nat) (e : ReplyEntry) (x : StackEntry) (s : State) : Keeps s (journalOnly l e x s) := by
  refine admitted_keeps (fun _ _ => ?_)
  unfold applyJournalOnly; dsimp only
  exact (joinUndoable_keeps _ _).trans ((gate_only _ _ _ _ _ _ _).keeps rfl)

theorem standInReverse_keeps (l : Nat) (e : ReplyEntry) (x : StackEntry) (s : State) : Keeps s (standInReverse l e x s) := by
  unfold standInReverse; split
  · exact lookup_keeps (fun t _ => journalOnly_keeps l e x t)
  · exact lookup_keeps (fun t _ => journalOnly_keeps l e x t)
  · exact flushingDecision_keeps (journalOnly_keeps l e x)
  all_goals
    split
    · exact refer_keeps _ _ _
    · exact joinWaitList_keeps _ _ _ _
    · exact journalOnly_keeps _ _ _ _

/-! ### Stand-in and the endings of a fetch (R59, R110 to R114) -/

theorem applyStandIn_keeps (l : Nat) (e : ReplyEntry) (p : Program) (card x : Nat) (partly : Bool) (s : State) :
    Keeps s (applyStandIn l e p card x partly s) := by
  unfold applyStandIn; dsimp only
  refine Keeps.trans ?_ ((gate_only _ _ _ _ _ _ _).keeps rfl)
  exact (((s.setExposure_only _ _).keeps rfl).trans (joinUndoable_keeps _ _)).trans ((countersThenRaise_only _ _ _ _).keeps rfl)

theorem standInDecision_keeps (l : Nat) (e : ReplyEntry) (card : Nat) (s : State) : Keeps s (standInDecision l e card s) := by
  unfold standInDecision
  refine underProgram_keeps (fun p => ?_)
  split
  · exact decline_keeps _ _ _ _ _
  · split
    · exact decline_keeps _ _ _ _ _
    · exact admitted_keeps (fun _ _ => applyStandIn_keeps _ _ _ _ _ _ _)

theorem serveWaiters_keeps {s : State} {ws : List Waiter} {act : Nat → ReplyEntry → State → State} (h : ∀ l e t, Keeps t (act l e t)) :
    Keeps s (s.serveWaiters ws act) := by
  unfold State.serveWaiters
  refine Keeps.foldl (fun t w => ?_) _ s
  split
  · exact h _ _ _
  · exact Keeps.refl t

theorem recheckReverse_keeps {s : State} {l : Nat} {e : ReplyEntry} {x : StackEntry} {act : State → State} (h : ∀ t, Keeps t (act t)) :
    Keeps s (recheckReverse l e x act s) := by
  unfold recheckReverse; split
  · exact h s
  · exact decline_keeps _ _ _ _ _
  · exact decline_keeps _ _ _ _ _

theorem serveInstalled_keeps (card l : Nat) (e : ReplyEntry) (s : State) : Keeps s (serveInstalled card l e s) := by
  unfold serveInstalled; split
  · exact recheckReverse_keeps (evaluate_keeps l e card)
  · exact evaluate_keeps _ _ _ _

theorem serveUnknown_keeps (l : Nat) (e : ReplyEntry) (s : State) : Keeps s (serveUnknown l e s) := by
  unfold serveUnknown; split
  · exact releaseWithoutCard_keeps _ _ _ _
  · exact decline_keeps _ _ _ _ _

theorem serveTimedOut_keeps (card l : Nat) (e : ReplyEntry) (s : State) : Keeps s (serveTimedOut card l e s) := by
  unfold serveTimedOut; split
  · exact standInDecision_keeps _ _ _ _
  · split
    · exact recheckReverse_keeps (journalOnly_keeps l e _)
    · exact decline_keeps _ _ _ _ _
  · exact releaseWithoutCard_keeps _ _ _ _
  · exact decline_keeps _ _ _ _ _

theorem serveFlushed_keeps (l : Nat) (e : ReplyEntry) (s : State) : Keeps s (serveFlushed l e s) := by
  unfold serveFlushed; split
  · split
    · exact recheckReverse_keeps (journalOnly_keeps l e _)
    · exact refer_keeps _ _ _
  · exact refer_keeps _ _ _

section
variable {tag : Nat} {f : Fetch} {s : State}

theorem fetchInstalled_keeps {d : CardData} (hf : s.fetchAt tag = some f) (hs : f.sent = true) (hd : d.card = f.card) :
    Keeps s (fetchInstalled tag f d s) :=
  (installFetched_keeps hf hs hd).trans (serveWaiters_keeps (serveInstalled_keeps f.card))

theorem fetchUnknown_keeps (hf : s.fetchAt tag = some f) : Keeps s (fetchUnknown tag f s) := by
  refine (endFetch_keeps hf).trans (serveWaiters_keeps (fun l e t => ?_))
  split
  · exact serveFlushed_keeps _ _ _
  · exact serveUnknown_keeps _ _ _

theorem fetchFlushed_keeps (hf : s.fetchAt tag = some f) : Keeps s (fetchFlushed tag f s) :=
  (endFetch_keeps hf).trans (serveWaiters_keeps serveFlushed_keeps)

theorem fetchTimedOut_keeps (hf : s.fetchAt tag = some f) : Keeps s (fetchTimedOut tag f s) := by
  refine ((endFetch_keeps hf).trans ((State.raise_only _ _ _).keeps rfl)).trans (serveWaiters_keeps (fun l e t => ?_))
  split
  · exact serveFlushed_keeps _ _ _
  · exact serveTimedOut_keeps _ _ _ _

theorem fetchAt_of_referral {x : HostEntry} {r : Referral} (hx : s.request tag = some x) (hk : x.kind = .referral r) :
    s.fetchAt tag = none := by
  unfold State.fetchAt; rw [hx]; simp [HostEntry.fetch?, hk]

theorem referralTimedOut_keeps (hf : s.fetchAt tag = none) (r : Referral) : Keeps s (referralTimedOut tag r s) := by
  have h : ∀ d, Keeps s ((s.setRequest tag none).raise .hostTimeout d) := fun d =>
    (Keeps.setRequest_unfetched hf rfl).trans ((State.raise_only _ _ _).keeps rfl)
  unfold referralTimedOut; dsimp only; split
  · exact h _
  · split
    · exact (h _).trans (decline_keeps _ _ _ _ _)
    · exact h _

theorem hostTimeout_keeps {x : HostEntry} (hx : s.request tag = some x) : Keeps s (hostTimeout tag x s) := by
  unfold hostTimeout; split
  · next hk => exact fetchTimedOut_keeps (State.fetchAt_some.2 ⟨x, hx, hk⟩)
  · next hk => exact referralTimedOut_keeps (fetchAt_of_referral hx hk) _

end

/-! ### The host's answers (R103, R111, R112, R116) -/

theorem warmRecord_keeps (s : State) (d : CardData) : Keeps s (s.warmRecord d) := Keeps.of_ordered fun o => by
  unfold State.warmRecord; split
  · exact Keeps.refl s
  · next hn =>
    have hn' : s.names d.card = false := by simp at hn; exact hn.1
    split
    · next no hno =>
      unfold State.warmingWay at hno
      split at hno
      · next w hw =>
        split at hno
        · next hv =>
          obtain rfl := Option.some.inj hno
          obtain ⟨no, st⟩ := w
          cases st with
          | valid r stay =>
            exact Keeps.install (State.findWay_no (o.sets _) hw) (o.not_reserved_of_valid hw)
              (fun v hv => by rw [hw] at hv; cases hv; rfl) (fun _ => hn')
          | reserved c => cases hv
          | invalid => cases hv
        · cases hno
      · next hw =>
        exact Keeps.install (State.victim_lt (o.sets _) hno) (State.victim_not_reserved (o.sets _) hno)
          (fun v hv => by rw [hw] at hv; cases hv) (fun _ => hn')
    · exact Keeps.refl s

theorem warm_keeps (s : State) (m : TillMsg) (b : Binding) (w : Option CardWire) : Keeps s (s.warm m b w) := by
  unfold State.warm; split
  · split
    · exact warmRecord_keeps _ _
    · exact Keeps.refl s
  · exact Keeps.refl s

theorem takeReferralAnswer_keeps {s : State} {tag gen : Nat} {x : HostEntry} (hx : s.request tag = some x) (y : ReferralFields) :
    Keeps s (takeReferralAnswer tag gen x.kind y s) := by
  unfold takeReferralAnswer; split
  · exact (s.refuseAnswer_only _ _ _).keeps rfl
  · next r hk =>
    split
    · exact (s.refuseAnswer_only _ _ _).keeps rfl
    · have h := Keeps.setRequest_unfetched (x := none) (fetchAt_of_referral hx hk) rfl
      dsimp only; split
      · exact h.trans ((State.queue_only _ _).keeps rfl)
      · exact (h.trans ((State.relay_only _ _ _ _ _).keeps rfl)).trans (warm_keeps _ _ _ _)

theorem takenRecord_card {f : Fetch} {w : CardWire} {s : State} {d : CardData} (h : takenRecord f w s = some d) : d.card = f.card := by
  unfold takenRecord at h; split at h
  · split at h
    · next hc => cases h; exact hc.1
    · cases h
  · cases h

theorem takeCardData_keeps {s : State} {tag gen : Nat} {x : HostEntry} (hx : s.request tag = some x)
    (hs : ∀ f, x.kind = .fetch f → f.sent = true) (w : CardWire) : Keeps s (takeCardData tag gen x.kind w s) := by
  unfold takeCardData; split
  · exact (s.refuseAnswer_only _ _ _).keeps rfl
  · next f hk =>
    have hf : s.fetchAt tag = some f := State.fetchAt_some.2 ⟨x, hx, hk⟩
    split
    · exact (s.refuseAnswer_only _ _ _).keeps rfl
    · next hd =>
      split
      · exact fetchFlushed_keeps hf
      · exact fetchInstalled_keeps hf (hs f hk) (takenRecord_card hd)

theorem takeNoSuchCard_keeps {s : State} {tag gen : Nat} {x : HostEntry} (hx : s.request tag = some x) (y : Unit) :
    Keeps s (takeNoSuchCard tag gen x.kind y s) := by
  unfold takeNoSuchCard; split
  · exact (s.refuseAnswer_only _ _ _).keeps rfl
  · next hk => exact fetchUnknown_keeps (State.fetchAt_some.2 ⟨x, hx, hk⟩)

theorem State.matching_some {s : State} {tag gen : Nat} {x : HostEntry} (h : s.matching tag gen = some x) : s.request tag = some x := by
  unfold State.matching at h; split at h
  · split at h
    · cases h; assumption
    · cases h
  · cases h

/-- R103: an answer is taken against the entry that its tag names, a FETCH only while it is SENT. -/
theorem hostAnswer_keeps {α : Type} {kind : Word16} {f : AnswerFrame α} {s : State} {act : Nat → Nat → HostKind → α → State → State}
    (h : ∀ tag gen x y, s.request tag = some x → (∀ f, x.kind = .fetch f → f.sent = true) → Keeps s (act tag gen x.kind y s)) :
    Keeps s (hostAnswer kind f s act) := by
  unfold hostAnswer; split
  · exact Keeps.refl s
  · exact (State.queue_only _ _).keeps rfl
  · split
    · exact (s.lateAnswer_only _ _ _).keeps rfl
    · next x hx =>
      have hx := State.matching_some hx
      split
      · next f hf =>
        split
        · next hs =>
          refine (h _ _ x _ hx (fun g hg => ?_)).trans (settle_keeps _)
          simp only [HostEntry.fetch?, hg, Option.some.injEq] at hf
          exact hf ▸ hs
        · exact (s.lateAnswer_only _ _ _).keeps rfl
      · next hf =>
        refine (h _ _ x _ hx (fun g hg => ?_)).trans (settle_keeps _)
        simp [HostEntry.fetch?, hg] at hf

theorem takePosted_keeps (f : PostedFrame) (s : State) : Keeps s (takePosted f s) := by
  unfold takePosted; split
  · exact Keeps.refl s
  · exact s.badPosted_only.keeps rfl
  · split
    · next h => exact (post_keeps (Journal.postable_append h)).trans (settle_keeps _)
    · exact s.badPosted_only.keeps rfl

/-! ### The clock and the timers (R172, R176) -/

theorem countDown_keeps (s : State) (n : Nat) : Keeps s (s.countDown n) :=
  Keeps.of_fetchAt rfl rfl (fun o => Table.wf_mapEntries _ _ o.requestsWf) (fun o k => by
    have h : (s.countDown n).request k = (s.request k).map (HostEntry.countDown n) :=
      Table.get_mapEntries none (fun x : Option HostEntry => x.map (HostEntry.countDown n)) rfl o.requestsWf k
    unfold State.fetchAt
    rw [h]; cases s.request k <;> rfl)

theorem elapseTo_keeps (s : State) (r : Reading) : Keeps s (s.elapseTo r) := (countDown_keeps _ _).trans ((State.runTo_only _ _).keeps rfl)

theorem reachInstant_keeps (s : State) (h : Hold) : Keeps s (s.reachInstant h) := by
  have h1 : Keeps s (if s.now.le h.expiry then s.elapseTo h.expiry else s) := by
    split
    · exact elapseTo_keeps _ _
    · exact Keeps.refl s
  exact (h1.trans (expireHold_keeps _ _)).trans (settle_keeps _)

theorem advanceTo_keeps (s : State) (r : Reading) : Keeps s (s.advanceTo r) :=
  (Keeps.foldl reachInstant_keeps _ s).trans (elapseTo_keeps _ _)

theorem elapse_keeps (s : State) (n : Nat) : Keeps s (s.elapse n) := by
  unfold State.elapse; split
  · exact countDown_keeps _ _
  · exact (advanceTo_keeps _ _).trans (countDown_keeps _ _)

theorem moveClock_keeps (c : Clock) (s : State) : Keeps s (moveClock c s).1 := by
  have h : Keeps s (if decide (s.date < c.businessDate) then ({ s with clock := c } : State).rollover true else { s with clock := c }) := by
    split
    · exact ((withClock_only s c).keeps rfl).trans ((State.rollover_only _ _).keeps rfl)
    · exact (withClock_only s c).keeps rfl
  exact Keeps.inFallOrder (h.trans (Keeps.foldl expireHold_keeps _ _))

theorem fireTag_keeps (s : State) (tag : Nat) : Keeps s (s.fireTag tag) := by
  unfold State.fireTag; split
  · next h =>
    split
    · exact hostTimeout_keeps h
    · exact Keeps.refl s
  · exact Keeps.refl s

theorem fireGates_keeps (s : State) (l : Nat) : Keeps s (s.fireGates l) := by
  unfold State.fireGates
  refine Keeps.foldl (fun t e => ?_) _ s
  split
  · exact gateTimeout_keeps _ _ _ _ _
  · exact Keeps.refl t

theorem firePresence_keeps (s : State) (l : Nat) : Keeps s (s.firePresence l) := by
  unfold State.firePresence; split
  · exact loseLink_keeps _ _ _
  · exact Keeps.refl s

theorem fireTimers_keeps (s : State) : Keeps s s.fireTimers :=
  ((Keeps.foldl fireTag_keeps _ s).trans (Keeps.foldl fireGates_keeps _ _)).trans (Keeps.foldl firePresence_keeps _ _)

theorem pass_keeps (s : State) (n : Nat) : Keeps s (s.pass n) :=
  ((elapse_keeps s n).trans (fireTimers_keeps _)).trans (settle_keeps _)

theorem runFor_keeps (r : Reading) : ∀ (n : Nat) (s : State), Keeps s (State.runFor r n s)
  | 0, s => advanceTo_keeps _ _
  | n + 1, s => by
    unfold State.runFor; dsimp only; split
    · exact advanceTo_keeps _ _
    · exact (pass_keeps _ _).trans (runFor_keeps r n _)

theorem runUntil_keeps (s : State) (r : Reading) : Keeps s (s.runUntil r) := runFor_keeps r _ s

end Sys2Proof.Machine
end

section
/-! Every command and event but an alteration of stored content keeps the directory's order and the unposted counts. -/

namespace Sys2Proof.Machine

/-! ### The commands of the service link -/

/-- R192: a command's frame leads to what its body's work keeps, and to a RESULT. -/
theorem command_keeps {α : Type} {kind : Word16} {f : HostFrame α} {s : State} {act : α → State → Answer}
    (h : ∀ x, Keeps s (act x s).1) : Keeps s (command kind f s act) := by
  unfold command; split
  · exact Keeps.refl s
  · exact (State.queue_only s _).keeps rfl
  · exact (State.queue_only s _).keeps rfl
  · exact (h _).trans ((State.queue_only _ _).keeps rfl)

theorem settled_keeps {s : State} {a : Answer} (h : Keeps s a.1) : Keeps s (settled a).1 := h.trans (settle_keeps _)

theorem DirSet.inOrder_default (n : Nat) : DirSet.default.inOrder n :=
  ⟨List.Perm.refl _, List.nodup_nil, by simp [DirSet.default, WayState.card]⟩

/-- An empty directory with no entry in the Host Request Table is in order. -/
theorem Ordered.of_empty {t : State} (hd : t.dir = Table.empty) (hr : t.requests = Table.empty) : Ordered t := by
  have hf : ∀ card, t.findWay card = none := State.findWay_congr (s := State.reset) hd
  have hq : ∀ tag, t.fetchAt tag = none := State.fetchAt_congr (s := State.reset) hr
  refine ⟨hd ▸ rfl, hr ▸ rfl, fun n => ?_, fun tag f h => ?_, fun card no h => ?_, fun a b f g h => ?_⟩
  · rw [State.dirSet_congr (s := State.reset) hd]; exact DirSet.inOrder_default n
  · rw [hq] at h; cases h
  · rw [hf] at h; cases h
  · rw [hq] at h; cases h

theorem UnpostedCounted.of_empty {t : State} (hd : t.dir = Table.empty) (hr : t.requests = Table.empty) : UnpostedCounted t := by
  refine ⟨fun card r stay h => ?_, fun tag f h => ?_⟩
  · obtain ⟨no, hw⟩ := State.recordOf_some h
    rw [State.findWay_congr (s := State.reset) hd] at hw; cases hw
  · rw [State.fetchAt_congr (s := State.reset) hr] at h; cases h

theorem Keeps.of_empty {s t : State} (hd : t.dir = Table.empty) (hr : t.requests = Table.empty) : Keeps s t :=
  fun _ => ⟨Ordered.of_empty hd hr, fun _ => UnpostedCounted.of_empty hd hr⟩

theorem emptyAllLinks_keeps (s : State) : Keeps s s.emptyAllLinks.1 := by
  unfold State.emptyAllLinks; exact emptiedLinks_keeps linkNumbers (s, Emptied.zero)

theorem engineReset_keeps (s : State) : Keeps s (engineReset s).1 := by
  have h := emptyAllLinks_keeps s
  unfold engineReset
  generalize s.emptyAllLinks = a at h
  exact h.trans (Keeps.of_empty rfl rfl)

theorem withPart_keeps (s : State) (p : PartState) : Keeps s { s with part := p } := Keeps.of_frame rfl rfl rfl

theorem startPart_keeps (s : State) : Keeps s (startPart s).1 := by
  unfold startPart; split
  · exact Keeps.refl s
  · split
    · exact Keeps.refl s
    · exact (s.listenAll_only.keeps rfl).trans (withPart_keeps _ _)

theorem setLimits_keeps (x : LimitsFields) (s : State) : Keeps s (setLimits x s).1 := by
  unfold setLimits; dsimp only; split <;> exact Keeps.of_frame rfl rfl rfl

theorem timeSet_keeps (x : TimeFields) (s : State) : Keeps s (timeSet x s).1 := by
  unfold timeSet; split
  · exact Keeps.refl s
  · split
    · exact Keeps.refl s
    · dsimp only; split
      · exact Keeps.of_frame rfl rfl rfl
      · split
        · exact Keeps.refl s
        · exact moveClock_keeps _ _

theorem setNotices_keeps (x : NoticeFields) (s : State) : Keeps s (setNotices x s).1 := by
  unfold setNotices; split
  · exact Keeps.refl s
  · exact Keeps.refl s
  · split
    · exact Keeps.refl s
    · exact Keeps.of_frame rfl rfl rfl

section
variable (b : Byte) (s : State)

/-- R27: a command that carries a program number keeps what its work on a program keeps. -/
theorem withProgram_keeps {act : Nat → State → Answer} (h : ∀ n, Keeps s (act n s).1) : Keeps s (withProgram b s act).1 := by
  unfold withProgram; split
  · exact h _
  · exact Keeps.refl s

theorem programSet_keeps (x : ProgramFields) : Keeps s (programSet x s).1 := by
  refine withProgram_keeps _ s (fun n => ?_)
  split
  · exact Keeps.refl s
  · split
    · exact Keeps.refl s
    · split
      · exact Keeps.refl s
      · exact (s.setProgram_only _ _).keeps rfl

theorem programActivate_keeps : Keeps s (programActivate b s).1 := by
  refine withProgram_keeps _ s (fun n => ?_)
  split
  · exact Keeps.refl s
  · split
    · exact Keeps.refl s
    · split
      · exact (s.setProgram_only _ _).keeps rfl
      · exact Keeps.refl s

theorem programDeactivate_keeps : Keeps s (programDeactivate b s).1 := by
  refine withProgram_keeps _ s (fun n => ?_)
  split
  · exact Keeps.refl s
  · split
    · exact Keeps.refl s
    · exact (s.setProgram_only _ _).keeps rfl

theorem programLock_keeps : Keeps s (programLock b s).1 := by
  refine withProgram_keeps _ s (fun n => ?_)
  split
  · exact Keeps.refl s
  · split
    · exact Keeps.refl s
    · exact (s.setProgram_only _ _).keeps rfl

theorem rangeProbe_keeps : Keeps s (rangeProbe b s).1 := by
  refine withProgram_keeps _ s (fun n => ?_)
  split <;> exact Keeps.refl s

end

/-! ### The commands of the Card Directory -/

theorem passRangeSet_keeps (x : PassRangeFields) (s : State) : Keeps s (passRangeSet x s).1 := by
  unfold passRangeSet; split
  · exact Keeps.refl s
  · dsimp only; split
    · exact Keeps.refl s
    · exact Keeps.of_frame rfl rfl rfl

/-- R14: the ways of a set as a flush is entered, by number and state. -/
theorem State.mem_flushSet (s : State) (d : DirSet) (w : Way) : w ∈ (s.flushSet d).ways ↔
    (∃ v ∈ d.ways, s.unpinned v = true ∧ w = { v with st := .invalid }) ∨ (w ∈ d.ways ∧ s.unpinned w = false) := by
  simp only [State.flushSet, List.mem_append, List.mem_map, List.mem_filter, Bool.not_eq_true']
  constructor
  · rintro (⟨v, ⟨hv, hu⟩, rfl⟩ | h)
    · exact .inl ⟨v, hv, hu, rfl⟩
    · exact .inr h
  · rintro (⟨v, hv, hu, rfl⟩ | h)
    · exact .inl ⟨v, ⟨hv, hu⟩, rfl⟩
    · exact .inr h

theorem State.inOrder_flushSet {s : State} {n : Nat} {d : DirSet} (h : d.inOrder n) : (s.flushSet d).inOrder n := by
  refine ⟨?_, ?_, fun w hw card hc => ?_⟩
  · have hp : (d.ways.filter s.unpinned ++ d.ways.filter (fun w => !s.unpinned w)).Perm d.ways := List.filter_append_perm _ _
    refine (List.Perm.of_eq ?_).trans ((hp.map (fun w => w.no)).trans h.1)
    simp [State.flushSet, Function.comp_def]
  · have hnil : ((d.ways.filter s.unpinned).map (fun w => { w with st := .invalid })).filterMap (fun w : Way => w.st.card) = [] := by
      simp [List.filterMap_map, WayState.card]
    simp only [State.flushSet, List.filterMap_append, hnil, List.nil_append]
    exact List.Nodup.sublist (List.filter_sublist.filterMap _) h.2.1
  · rcases (s.mem_flushSet d w).1 hw with ⟨v, -, -, rfl⟩ | ⟨hw, -⟩
    · cases hc
    · exact h.2.2 w hw card hc

theorem State.holding_flushSet {s : State} {n : Nat} {d : DirSet} (h : d.inOrder n) (card : Nat) :
    (s.flushSet d).holding card = (d.holding card).filter (fun w => !s.unpinned w) := by
  refine Option.ext fun w => ?_
  rw [DirSet.holding_iff (State.inOrder_flushSet h), State.mem_flushSet, Option.filter_eq_some_iff, DirSet.holding_iff h, Bool.not_eq_true']
  constructor
  · rintro ⟨⟨v, -, -, rfl⟩ | ⟨hw, hu⟩, hc⟩
    · cases hc
    · exact ⟨⟨hw, hc⟩, hu⟩
  · rintro ⟨⟨hw, hc⟩, hu⟩
    exact ⟨.inr ⟨hw, hu⟩, hc⟩

theorem State.enterFlush_dirSet {s : State} (h : s.dir.wf DirSet.default = true) (t : FlushTarget) (n : Nat) :
    (s.enterFlush t).dirSet n = s.flushSet (s.dirSet n) := Table.get_mapEntries DirSet.default s.flushSet rfl h n

theorem enterFlush_keeps (s : State) (t : FlushTarget) : Keeps s (s.enterFlush t) := fun o => by
  have hset := State.enterFlush_dirSet o.dirWf t
  have hway : ∀ card, (s.enterFlush t).findWay card = (s.findWay card).filter (fun w => !s.unpinned w) := fun card => by
    unfold State.findWay; rw [hset]; exact State.holding_flushSet (o.sets _) card
  have hfetch : ∀ tag, (s.enterFlush t).fetchAt tag = s.fetchAt tag := fun _ => rfl
  refine ⟨o.of_reads (Table.wf_mapEntries _ _ o.dirWf) o.requestsWf (fun n => hset n ▸ State.inOrder_flushSet (o.sets n)) (fun c k => ?_)
    (fun tag => by rw [hfetch]), fun c => c.of_reads rfl (fun card r stay h hv => ⟨r, stay, ?_, hv, rfl⟩) (sent_fetch_refl hfetch)⟩
  · rw [hway, Option.filter_eq_some_iff]
    exact ⟨fun h => h.1, fun h => ⟨h, rfl⟩⟩
  · obtain ⟨no, hw⟩ := State.recordOf_some h
    rw [hway, Option.filter_eq_some_iff] at hw
    exact State.recordOf_of_findWay hw.1

theorem directoryMode_keeps (b : Byte) (s : State) : Keeps s (directoryMode b s).1 := by
  unfold directoryMode; split
  · exact Keeps.refl s
  · split
    · exact Keeps.refl s
    · split
      · exact Keeps.refl s
      · exact Keeps.of_frame rfl rfl rfl
      · exact Keeps.of_frame rfl rfl rfl
      · split
        · exact enterFlush_keeps _ _
        · exact Keeps.refl s

theorem withCard_keeps {w : Word64} {s : State} {act : Nat → State → Answer} (h : ∀ card, Keeps s (act card s).1) :
    Keeps s (withCard w s act).1 := by
  unfold withCard; split
  · exact Keeps.refl s
  · exact h _

theorem cardEvict_keeps (w : Word64) (s : State) : Keeps s (cardEvict w s).1 := withCard_keeps (fun card => by
  split
  · next hf =>
    split
    · exact Keeps.refl s
    · exact Keeps.dropWay_valid hf
  · exact Keeps.refl s
  · exact Keeps.refl s)

/-- R20: the common tests lead to the form's work on a record that matches its check code. -/
theorem adjusting_keeps {w : Word64} {s : State} {act : Nat → CardRecord → State → Answer}
    (h : ∀ r stay, s.Verified r stay → Keeps s (act r.data.card r s).1) : Keeps s (adjusting w s act).1 := by
  unfold adjusting; split
  · exact Keeps.refl s
  · refine withCard_keeps (fun card => ?_)
    split
    · exact Keeps.refl s
    · split
      · exact Keeps.refl s
      · split
        · next hr =>
          obtain ⟨rfl, rfl, hv⟩ := State.Verified.of_read hr
          exact h _ _ hv
        · next hr => exact readRecord_keeps_of_eq hr

theorem readCard_card {w : CardWire} {d : CardData} (h : readCard w = some d) : cardOfBcd w.card = some d.card := by
  unfold readCard at h; split at h
  · next hc _ _ => cases h; exact hc
  · cases h

/-- R21: once a LOAD has found the card not to stand in a way, it stands in none. -/
theorem State.occupied_absent {s s1 : State} {card : Nat} (h : s.occupied card = (s1, false)) :
    Keeps s s1 ∧ s1.findWay card = none := by
  unfold State.occupied at h; split at h
  · simp at h
  · next hr =>
    simp only [Prod.mk.injEq] at h
    obtain ⟨rfl, hn⟩ := h
    refine ⟨readRecord_keeps_of_eq hr, ?_⟩
    simpa using hn

theorem loadAbsent_keeps {d : Option CardData} {card : Nat} {s : State} (hd : ∀ x, d = some x → x.card = card)
    (h : s.findWay card = none) : Keeps s (loadAbsent d card s).1 := Keeps.of_ordered fun o => by
  unfold loadAbsent; split
  · exact Keeps.refl s
  · next hn =>
    split
    · exact Keeps.refl s
    · next x =>
      obtain rfl := hd x rfl
      split
      · exact Keeps.refl s
      · split
        · exact Keeps.refl s
        · next no hv =>
          exact Keeps.install (State.victim_lt (o.sets _) hv) (State.victim_not_reserved (o.sets _) hv)
            (fun w hw => by rw [h] at hw; cases hw) (fun _ => by simpa using hn)

theorem cardAdjustLoad_keeps (w : CardWire) (s : State) : Keeps s (cardAdjustLoad w s).1 := by
  unfold cardAdjustLoad; split
  · exact Keeps.refl s
  · split
    · exact Keeps.refl s
    · next card hc =>
      unfold loadRecord; split
      · next s1 ho =>
        have hk : Keeps s (s.occupied card).1 := by
          unfold State.occupied; split <;> exact readRecord_keeps_of_eq ‹_›
        rw [ho] at hk; exact hk
      · next s1 ho =>
        obtain ⟨hk, hn⟩ := State.occupied_absent ho
        refine hk.trans (loadAbsent_keeps (fun x hx => ?_) hn)
        rw [readCard_card hx] at hc; exact Option.some.inj hc

theorem cardAdjustUnload_keeps (w : Word64) (s : State) : Keeps s (cardAdjustUnload w s).1 := adjusting_keeps (fun r stay hv => by
  obtain ⟨no, hf⟩ := State.recordOf_some hv.record
  split
  · exact Keeps.refl s
  · rw [hf]; exact Keeps.dropWay_valid hf)

theorem setBonusTo_keeps {s : State} {r : CardRecord} {stay : Nat} (hv : s.Verified r stay) (bonus : Nat) (carried : Option Nat) :
    Keeps s (setBonusTo bonus carried r.data.card r s).1 := by
  unfold setBonusTo; dsimp only; split
  · exact Keeps.refl s
  · split
    · exact hv.writeData_keeps (fun d => { d with expiry := _ }) rfl
    · have ha := admission_keeps s 1 Kind.cardAdjust
      split
      · next h0 => rw [h0] at ha; exact ha
      · next h0 =>
        rw [h0] at ha
        refine ha.trans (Keeps.trans ((hv.congr (State.admission_frame h0).dir).writeData_keeps _ ?_) (joinRecord_keeps _ _))
        rfl

theorem cardAdjustSetBonus_keeps (x : SetBonusFields) (s : State) : Keeps s (cardAdjustSetBonus x s).1 :=
  adjusting_keeps (fun r stay hv => by
    unfold setBonus; split
    · exact Keeps.refl s
    · split
      · exact Keeps.refl s
      · exact setBonusTo_keeps hv _ _)

theorem setStatus_keeps (status : CardStatus) (w : Word64) (s : State) : Keeps s (setStatus status w s).1 :=
  adjusting_keeps (fun _ _ hv => hv.writeData_keeps (fun d => { d with status := status }) rfl)

theorem directoryReadCard_keeps (w : Word64) (s : State) : Keeps s (directoryReadCard w s).1 := withCard_keeps (fun card => by
  have h : Keeps s (s.cardReport card).1 := by
    unfold State.cardReport; split
    · next hf =>
      split
      · exact Keeps.refl s
      · exact Keeps.checkFault_valid hf
    · exact Keeps.refl s
    · exact Keeps.refl s
  exact h)

theorem directoryReadSet_keeps (w : Word16) (s : State) : Keeps s (directoryReadSet w s).1 := by
  unfold directoryReadSet; split <;> exact Keeps.refl s

/-! ### The commands of the layout and of the links -/

theorem siteSet_keeps (x : SiteFields) (s : State) : Keeps s (siteSet x s).1 := by
  unfold siteSet; split
  · exact Keeps.refl s
  · split
    · exact Keeps.refl s
    · split
      · exact Keeps.refl s
      · exact Keeps.of_frame rfl rfl rfl

theorem sliceAssign_keeps (x : SliceFields) (s : State) : Keeps s (sliceAssign x s).1 := by
  unfold sliceAssign; split
  · exact Keeps.refl s
  · split
    · exact Keeps.refl s
    · split
      · exact Keeps.refl s
      · split
        · exact Keeps.refl s
        · exact Keeps.of_frame rfl rfl rfl

theorem windowSet_keeps (x : WindowFields) (s : State) : Keeps s (windowSet x s).1 := by
  unfold windowSet; dsimp only; split
  · exact Keeps.refl s
  · split
    · exact Keeps.refl s
    · split
      · exact Keeps.refl s
      · split <;> exact (s.setLink_only _ _).keeps rfl

theorem withLink_keeps {b : Byte} {s : State} {act : Nat → State → Answer} (h : ∀ l, Keeps s (act l s).1) :
    Keeps s (withLink b s act).1 := by
  unfold withLink; split
  · exact h _
  · exact Keeps.refl s

theorem setEnabled_keeps (s : State) (l : Nat) (b : Bool) : Keeps s (s.setEnabled l b) := (s.setLink_only _ _).keeps rfl

theorem linkEnable_keeps (b : Byte) (s : State) : Keeps s (linkEnable b s).1 := withLink_keeps (fun l => by
  dsimp only; split
  · exact (setEnabled_keeps _ _ _).trans ((State.setLink_only _ _ _).keeps rfl)
  · exact setEnabled_keeps _ _ _)

theorem linkDisable_keeps (b : Byte) (s : State) : Keeps s (linkDisable b s).1 := withLink_keeps (fun l => by
  dsimp only; split
  · exact setEnabled_keeps _ _ _
  · exact (setEnabled_keeps _ _ _).trans (emptyLink_keeps _ _ _ _))

theorem linkReset_keeps (b : Byte) (s : State) : Keeps s (linkReset b s).1 := withLink_keeps (fun l => by
  split
  · exact Keeps.refl s
  · exact emptyLink_keeps _ _ _ _)

theorem setExpectedIdentity_keeps (x : IdentityFields) (s : State) : Keeps s (setExpectedIdentity x s).1 :=
  withLink_keeps (fun _ => (s.setLink_only _ _).keeps rfl)

/-! ### Site links and take-off -/

theorem siteFrame_keeps {α : Type} {l : Nat} {f : SiteFrame α} {s : State} {listening up : α → State → State}
    (h : ∀ x, Keeps s (listening x s)) (k : ∀ x, Keeps s (up x s)) : Keeps s (siteFrame l f s listening up) := by
  unfold siteFrame; split
  · exact Keeps.refl s
  · exact (s.badFrame_only l).keeps rfl
  · exact (s.badFrame_only l).keeps rfl
  · exact h _
  · exact k _

theorem take_keeps (s : State) (l : Nat) (e : ReplyEntry) (rest : List TillMsg) : Keeps s (s.take l e rest) := (s.take_only l e rest).keeps rfl

theorem takeOff_keeps {l : Nat} {want : TillKind → Bool} {s : State} {act : ReplyEntry → NotedTill → State → State}
    (h : ∀ e n t, Keeps t (act e n t)) : Keeps s (takeOff l want s act) := by
  unfold takeOff; split
  · exact Keeps.refl s
  · split
    · dsimp only; split
      · exact (take_keeps _ _ _ _).trans (decline_keeps _ _ _ _ _)
      · exact (take_keeps _ _ _ _).trans (h _ _ _)
    · exact Keeps.refl s

theorem moneyChecks_keeps {l : Nat} {e : ReplyEntry} {n : NotedTill} {a b : Bool} {amount : Nat} {s : State} {act : State → State}
    (h : Keeps s (act s)) : Keeps s (moneyChecks l e n a b amount s act) := by
  unfold moneyChecks; split
  · exact (declineField_only _ _ _ _ _).keeps rfl
  · split
    · exact (declineField_only _ _ _ _ _).keeps rfl
    · split
      · exact (ready_only _ _ _ _ _).keeps rfl
      · split
        · exact decline_keeps _ _ _ _ _
        · exact h.trans (settle_keeps _)

theorem bindTo_keeps {l : Nat} {e : ReplyEntry} {b : Binding} {s : State} {act : ReplyEntry → State → State}
    (h : ∀ e t, Keeps t (act e t)) : Keeps s (bindTo l e b s act) := ((s.modEntry_only l e.slot _).keeps rfl).trans (h _ _)

theorem withCardProgram_keeps (l : Nat) (e : ReplyEntry) (s : State) : Keeps s (withCardProgram l e s) := by
  unfold withCardProgram; split
  · exact unexpected_keeps _ _ _
  · exact underProgram_keeps (fun _ => directoryDecision_keeps _ _ _ _)

theorem reverseEntry_keeps (l : Nat) (n : NotedTill) (x : StackEntry) (e : ReplyEntry) (s : State) :
    Keeps s (reverseEntry l n x e s) := by
  unfold reverseEntry; dsimp only
  refine Keeps.trans ((s.setMark_only n.till x.id true).keeps rfl) ?_
  split
  · exact standInReverse_keeps _ _ _ _
  · exact directoryDecision_keeps _ _ _ _

theorem reverseFrom_keeps (l : Nat) (e : ReplyEntry) (n : NotedTill) (s : State) : Keeps s (reverseFrom l e n s) := by
  unfold reverseFrom; split
  · exact decline_keeps _ _ _ _ _
  · exact decline_keeps _ _ _ _ _
  · exact bindTo_keeps (reverseEntry_keeps _ _ _)

theorem holdFrom_keeps (l : Nat) (e : ReplyEntry) (n : NotedTill) (s : State) : Keeps s (holdFrom l e n s) := by
  unfold holdFrom; split
  · exact unexpected_keeps _ _ _
  · split
    · exact decline_keeps _ _ _ _ _
    · exact withCardProgram_keeps _ _ _

theorem settleHold_keeps (l : Nat) (e : ReplyEntry) (n : NotedTill) (s : State) : Keeps s (settleHold l e n s) := by
  unfold settleHold; split
  · exact unexpected_keeps _ _ _
  · split
    · split
      · exact bindTo_keeps (fun e t => directoryDecision_keeps _ _ _ _)
      · exact decline_keeps _ _ _ _ _
    · split
      · exact decline_keeps _ _ _ _ _
      · exact refer_keeps _ _ _

theorem openTillAt_keeps (l : Nat) (e : ReplyEntry) (n : NotedTill) (s : State) : Keeps s (openTillAt l e n s) := by
  unfold openTillAt; dsimp only; split
  · exact (declineField_only _ _ _ _ _).keeps rfl
  · exact ((s.setTill_only _ _).keeps rfl).trans ((ready_only _ _ _ _ _).keeps rfl)

theorem closeTillAt_keeps (l : Nat) (e : ReplyEntry) (n : NotedTill) (s : State) : Keeps s (closeTillAt l e n s) := by
  unfold closeTillAt; dsimp only; split
  · exact ((s.setTill_only _ _).keeps rfl).trans ((ready_only _ _ _ _ _).keeps rfl)
  · exact (declineField_only _ _ _ _ _).keeps rfl

end Sys2Proof.Machine
end

section
/-! Every step keeps the directory in order and the unposted counts (R3, R101; R5, R106, R109), and the state after reset meets
every invariant. -/

namespace Sys2Proof.Machine

theorem next_keeps {s u t : State} (h : (Host.Outcome.next u : Result) = .next t) (k : Keeps s u) : Keeps s t := by cases h; exact k

/-- Every command and event but an alteration of stored content. -/
theorem exec_keeps {i : Instr} {s t : State} (hi : ∀ set way x, i ≠ .storedContentAltered set way x) (h : exec i s = .next t) :
    Keeps s t := by
  cases i with
  | powerOnReset => exact next_keeps h (Keeps.of_empty rfl rfl)
  | resetEngine f => exact next_keeps h (command_keeps (fun _ => engineReset_keeps s))
  | start f => exact next_keeps h (command_keeps (fun _ => startPart_keeps s))
  | setLimits f => exact next_keeps h (command_keeps (fun x => setLimits_keeps x s))
  | timeSet f => exact next_keeps h (command_keeps (fun x => settled_keeps (timeSet_keeps x s)))
  | programSet f => exact next_keeps h (command_keeps (fun x => programSet_keeps s x))
  | programActivate f => exact next_keeps h (command_keeps (fun x => programActivate_keeps x s))
  | programDeactivate f => exact next_keeps h (command_keeps (fun x => programDeactivate_keeps x s))
  | programLock f => exact next_keeps h (command_keeps (fun x => programLock_keeps x s))
  | rangeProbe f => exact next_keeps h (command_keeps (fun x => rangeProbe_keeps x s))
  | passRangeSet f => exact next_keeps h (command_keeps (fun x => passRangeSet_keeps x s))
  | directoryMode f => exact next_keeps h (command_keeps (fun x => settled_keeps (directoryMode_keeps x s)))
  | cardEvict f => exact next_keeps h (command_keeps (fun x => settled_keeps (cardEvict_keeps x s)))
  | cardAdjustLoad f => exact next_keeps h (command_keeps (fun x => cardAdjustLoad_keeps x s))
  | cardAdjustUnload f => exact next_keeps h (command_keeps (fun x => cardAdjustUnload_keeps x s))
  | cardAdjustSetBonus f => exact next_keeps h (command_keeps (fun x => cardAdjustSetBonus_keeps x s))
  | cardAdjustBlock f => exact next_keeps h (command_keeps (fun x => setStatus_keeps .blocked x s))
  | cardAdjustUnblock f => exact next_keeps h (command_keeps (fun x => setStatus_keeps .active x s))
  | directoryReadSummary f => exact next_keeps h (command_keeps (fun _ => Keeps.refl s))
  | directoryReadCard f => exact next_keeps h (command_keeps (fun x => settled_keeps (directoryReadCard_keeps x s)))
  | directoryReadSet f => exact next_keeps h (command_keeps (fun x => directoryReadSet_keeps x s))
  | readFault f => exact next_keeps h (command_keeps (fun _ => Keeps.of_frame rfl rfl rfl))
  | siteSet f => exact next_keeps h (command_keeps (fun x => siteSet_keeps x s))
  | sliceAssign f => exact next_keeps h (command_keeps (fun x => sliceAssign_keeps x s))
  | windowSet f => exact next_keeps h (command_keeps (fun x => windowSet_keeps x s))
  | linkControlEnable f => exact next_keeps h (command_keeps (fun x => linkEnable_keeps x s))
  | linkControlDisable f => exact next_keeps h (command_keeps (fun x => settled_keeps (linkDisable_keeps x s)))
  | linkControlReset f => exact next_keeps h (command_keeps (fun x => settled_keeps (linkReset_keeps x s)))
  | linkControlSetExpectedIdentity f => exact next_keeps h (command_keeps (fun x => setExpectedIdentity_keeps x s))
  | setNotices f => exact next_keeps h (command_keeps (fun x => setNotices_keeps x s))
  | readEvents f => exact next_keeps h (command_keeps (fun _ => Keeps.of_frame rfl rfl rfl))
  | readCounters f => exact next_keeps h (command_keeps (fun _ => Keeps.of_frame rfl rfl rfl))
  | readStatus f => exact next_keeps h (command_keeps (fun _ => Keeps.refl s))
  | unknownCommand f =>
    refine next_keeps h ?_
    split
    · exact Keeps.refl s
    · exact (State.queue_only s _).keeps rfl
  | cardData f => exact next_keeps h (hostAnswer_keeps (fun _ _ _ y hx hs => takeCardData_keeps hx hs y))
  | noSuchCard f => exact next_keeps h (hostAnswer_keeps (fun _ _ _ y hx _ => takeNoSuchCard_keeps hx y))
  | referralAnswer f => exact next_keeps h (hostAnswer_keeps (fun _ _ _ y hx _ => takeReferralAnswer_keeps hx y))
  | posted f => exact next_keeps h (takePosted_keeps f s)
  | journalSend =>
    refine next_keeps h ?_
    split
    · exact Keeps.of_frame rfl rfl rfl
    · exact Keeps.refl s
  | linkHello link f =>
    exact next_keeps h (siteFrame_keeps (fun x => ((meetHello_only s _ x).keeps rfl))
      (fun x => ((loseLink_keeps s _ _).trans (settle_keeps _)).trans ((meetHello_only _ _ x).keeps rfl)))
  | presence link f => exact next_keeps h (siteFrame_keeps (fun _ => Keeps.refl s) (fun _ => (s.reload_only _).keeps rfl))
  | tillMessageArrival link f =>
    exact next_keeps h (siteFrame_keeps (fun _ => (s.dropInbound_only _).keeps rfl)
      (fun m => ((s.reload_only _).keeps rfl).trans ((State.offer_only _ _ m).keeps rfl)))
  | presenceTimeout link =>
    refine next_keeps h ?_
    split
    · exact (loseLink_keeps s _ _).trans (settle_keeps _)
    · exact Keeps.refl s
  | openTill link => exact next_keeps h (takeOff_keeps (fun e n t => openTillAt_keeps _ e n t))
  | closeTill link => exact next_keeps h (takeOff_keeps (fun e n t => closeTillAt_keeps _ e n t))
  | enquiry link => exact next_keeps h (takeOff_keeps (fun e _ t => moneyChecks_keeps (withCardProgram_keeps _ e t)))
  | redeem link => exact next_keeps h (takeOff_keeps (fun e _ t => moneyChecks_keeps (withCardProgram_keeps _ e t)))
  | hold link => exact next_keeps h (takeOff_keeps (fun e n t => moneyChecks_keeps (holdFrom_keeps _ e n t)))
  | complete link => exact next_keeps h (takeOff_keeps (fun e n t => moneyChecks_keeps (settleHold_keeps _ e n t)))
  | release link => exact next_keeps h (takeOff_keeps (fun e n t => moneyChecks_keeps (settleHold_keeps _ e n t)))
  | reverse link => exact next_keeps h (takeOff_keeps (fun e n t => moneyChecks_keeps (reverseFrom_keeps _ e n t)))
  | reload link => exact next_keeps h (takeOff_keeps (fun e _ t => moneyChecks_keeps (withCardProgram_keeps _ e t)))
  | unknownTillKind link => exact next_keeps h (takeOff_keeps (fun _ _ t => ((declineField_only t _ _ _ _).keeps rfl)))
  | delivery link =>
    refine next_keeps h ?_
    split
    · exact (deliver_keeps s _ _ _ _).trans (settle_keeps _)
    · exact Keeps.refl s
  | fetchAnswerTimeout tag =>
    refine next_keeps h ?_
    split
    · next hf =>
      split
      · exact (fetchTimedOut_keeps hf).trans (settle_keeps _)
      · exact Keeps.refl s
    · exact Keeps.refl s
  | fetchGateTimeout tag =>
    refine next_keeps h ?_
    split
    · next hf =>
      split
      · exact Keeps.refl s
      · exact (fetchTimedOut_keeps hf).trans (settle_keeps _)
    · exact Keeps.refl s
  | referralTimeout tag =>
    refine next_keeps h ?_
    split
    · next hx => exact referralTimedOut_keeps (fetchAt_of_referral hx rfl) _
    · exact Keeps.refl s
  | gateTimeout link sequence =>
    refine next_keeps h ?_
    split
    · exact (gateTimeout_keeps s _ _ _ _).trans (settle_keeps _)
    · exact Keeps.refl s
  | holdExpiry site ref =>
    refine next_keeps h ?_
    split
    · split
      · exact (runUntil_keeps s _).trans (settle_keeps _)
      · exact Keeps.refl s
    · exact Keeps.refl s
  | dayRollover =>
    refine next_keeps h ?_
    split
    · exact Keeps.refl s
    · exact (runUntil_keeps s _).trans (settle_keeps _)
  | storedContentAltered set way x => exact absurd rfl (hi set way x)
  | serviceMessageTransmitted =>
    refine next_keeps h ?_
    split
    · split
      · exact Keeps.refl s
      · exact Keeps.of_frame rfl rfl rfl
    · exact Keeps.refl s

/-! ### An alteration of stored content (R2) -/

/-- Ways that the alteration does not meet stand as they stood. -/
theorem alterWay_other {x : AlteredContent} {no : Nat} {w : Way}
    (h : w.no = no → (alteredRecord x).verifies = false → w.st.isValid = false) : alterWay x no w = w := by
  unfold alterWay; split
  · next hst =>
    refine if_neg (fun k => ?_)
    have := h k.1 k.2
    rw [hst] at this; cases this
  · rfl

theorem alterWay_matching {x : AlteredContent} (h : (alteredRecord x).verifies = true) (no : Nat) (d : DirSet) :
    (⟨d.ways.map (alterWay x no)⟩ : DirSet) = d :=
  congrArg DirSet.mk ((List.map_congr_left fun _ _ => alterWay_other (fun _ e => by rw [h] at e; cases e)).trans (List.map_id _))

theorem alterWay_failing {n no stay : Nat} {d : DirSet} {x : AlteredContent} {r : CardRecord} (h : d.inOrder n)
    (hv : (alteredRecord x).verifies = false) (hw : (⟨no, .valid r stay⟩ : Way) ∈ d.ways) :
    (⟨d.ways.map (alterWay x no)⟩ : DirSet) = d.put no (.valid (alteredRecord x) stay) := by
  refine congrArg DirSet.mk (List.map_congr_left fun w hmem => ?_)
  by_cases hn : w.no = no
  · obtain rfl := DirSet.way_unique h hmem hw hn
    simp [alterWay, hv]
  · rw [if_neg hn, alterWay_other (fun e => absurd e hn)]

/-- What an alteration makes of a set in order: nothing, or its way holds the altered record, which does not verify. -/
theorem alterWay_cases {n : Nat} {d : DirSet} (h : d.inOrder n) (x : AlteredContent) (no : Nat) :
    (⟨d.ways.map (alterWay x no)⟩ : DirSet) = d ∨
      ∃ r stay, (⟨no, .valid r stay⟩ : Way) ∈ d.ways ∧ (alteredRecord x).verifies = false ∧
        (⟨d.ways.map (alterWay x no)⟩ : DirSet) = d.put no (.valid (alteredRecord x) stay) := by
  by_cases hv : (alteredRecord x).verifies = false
  · by_cases hex : ∃ r stay, (⟨no, .valid r stay⟩ : Way) ∈ d.ways
    · obtain ⟨r, stay, hw⟩ := hex
      exact .inr ⟨r, stay, hw, hv, alterWay_failing h hv hw⟩
    · refine .inl (congrArg DirSet.mk ((List.map_congr_left fun w hmem => alterWay_other (fun hn _ => ?_)).trans (List.map_id _)))
      obtain ⟨k, st⟩ := w
      cases st with
      | valid r stay => exact absurd ⟨r, stay, hn ▸ hmem⟩ hex
      | reserved _ => rfl
      | invalid => rfl
  · exact .inl (alterWay_matching (by simpa using hv) no d)

theorem setDirSet_same_keeps {s : State} {n : Nat} {d : DirSet} (h : d = s.dirSet n) : Keeps s (s.setDirSet n d) := Keeps.of_ordered fun o => by
  subst h
  have hset : ∀ m, (s.setDirSet n (s.dirSet n)).dirSet m = s.dirSet m := fun m => by
    rw [State.setDirSet_dirSet]; split
    · next e => rw [e]
    · rfl
  exact Keeps.of_findWay rfl rfl (Table.wf_set _ _ _ o.dirWf) (fun m => hset m ▸ o.sets m)
    (fun card => by unfold State.findWay; rw [hset])

/-- An alteration that leaves the card number keeps the directory in order. -/
theorem storedContentAltered_keeps {set : Fin 16384} {way : Fin 4} {x : AlteredContent} {s t : State}
    (hcard : ∀ r stay, (⟨way.val, .valid r stay⟩ : Way) ∈ (s.dirSet set.val).ways → x.data.card = r.data.card)
    (h : exec (.storedContentAltered set way x) s = .next t) : Keeps s t := Keeps.of_ordered fun o => by
  refine next_keeps h ?_
  rcases alterWay_cases (o.sets set.val) x way.val with he | ⟨r, stay, hw, hv, he⟩
  · exact setDirSet_same_keeps he
  · have hset : setOf r.data.card = set.val := (o.sets _).2.2 _ hw _ rfl
    have hf : s.findWay r.data.card = some ⟨way.val, .valid r stay⟩ := by
      unfold State.findWay; rw [hset]; exact (DirSet.holding_iff (o.sets _) _ _).2 ⟨hw, rfl⟩
    rw [he, ← hset]
    have hc : (WayState.valid (alteredRecord x) stay).card = some r.data.card := congrArg some (hcard r stay hw)
    exact Keeps.place way.isLt (State.inOrder_put_record (o.sets _) hf hc) (List.Perm.refl _) rfl
      (o.not_reserved_of_valid hf) (fun _ r' stay' e hv' => by
        obtain ⟨rfl, -⟩ := WayState.valid.inj e
        rw [hv] at hv'; cases hv')

/-- Whatever an alteration writes, each record that still matches its check code counts as it did. -/
theorem storedContentAltered_counted {set : Fin 16384} {way : Fin 4} {x : AlteredContent} {s t : State} (o : Ordered s)
    (c : UnpostedCounted s) (h : exec (.storedContentAltered set way x) s = .next t) : UnpostedCounted t := by
  obtain rfl := Host.Outcome.next.inj h
  rcases alterWay_cases (o.sets set.val) x way.val with he | ⟨r, stay, -, hv, he⟩
  · exact (setDirSet_same_keeps he o).2 c
  · rw [he]
    refine c.of_reads rfl (fun card r' stay' hr hv' => ⟨r', stay', ?_, hv', rfl⟩) (sent_fetch_refl (fun _ => rfl))
    obtain ⟨no, hw⟩ := State.recordOf_some hr
    refine State.recordOf_of_findWay (no := no) ?_
    rw [State.findWay_setDirSet] at hw
    split at hw
    · next hs =>
      obtain ⟨hmem, hcard⟩ := DirSet.holding_some hw
      rcases (DirSet.mem_put _ _ _ _).1 hmem with ⟨hold, -⟩ | ⟨-, hst, -⟩
      · unfold State.findWay; rw [hs]; exact (DirSet.holding_iff (o.sets _) _ _).2 ⟨hold, hcard⟩
      · obtain ⟨rfl, -⟩ := WayState.valid.inj hst
        rw [hv] at hv'; cases hv'
    · exact hw

theorem step_of_nil {s : State} (h : s.pending = []) : step s = .next s.tick := by unfold step; rw [h]

theorem step_of_cons {s : State} {c : Instr} {rest : List Instr} (h : s.pending = c :: rest) :
    step s = exec c { s with pending := rest } := by unfold step; rw [h]

theorem Ordered.of_invariants {s : State} (h : TablesCanonical s) (d : DirectoryInOrder s) : Ordered s := by
  obtain ⟨-, -, hdir, -, hreq, -⟩ := h
  exact (ordered_iff s).2 ⟨hdir, hreq, d⟩

/-- Settles O58, by the order that each command, each event and the passing of a millisecond keeps. -/
theorem everyStepKeepsTheDirectoryInOrder : Obligations.EveryStepKeepsTheDirectoryInOrder := by
  intro s t hw hd halter h
  have o := Ordered.of_invariants hw hd
  have conclude : ∀ {u : State}, Keeps u t → Ordered u → DirectoryInOrder t := fun k ou => ((ordered_iff t).1 (k ou).1).2.2
  cases hp : s.pending with
  | nil => rw [step_of_nil hp] at h; exact conclude (next_keeps h (pass_keeps s 1)) o
  | cons c rest =>
    rw [step_of_cons hp] at h
    refine conclude ?_ (o.of_frame (t := { s with pending := rest }) rfl rfl)
    by_cases hc : ∃ set way x, c = .storedContentAltered set way x
    · obtain ⟨set, way, x, rfl⟩ := hc
      exact storedContentAltered_keeps (fun r stay hm => halter set way x r stay (by rw [hp]; rfl) hm) h
    · exact exec_keeps (fun set way x e => hc ⟨set, way, x, e⟩) h

/-- Settles O56, by the counts that each command, each event and the passing of a millisecond keeps from a directory in order. -/
theorem everyStepKeepsTheUnpostedCounts : Obligations.EveryStepKeepsTheUnpostedCounts := by
  intro s t hw hd c h
  have o := Ordered.of_invariants hw hd
  cases hp : s.pending with
  | nil => rw [step_of_nil hp] at h; exact (next_keeps h (pass_keeps s 1) o).2 c
  | cons i rest =>
    rw [step_of_cons hp] at h
    have o1 : Ordered { s with pending := rest } := o.of_frame rfl rfl
    have c1 : UnpostedCounted { s with pending := rest } := c
    by_cases hi : ∃ set way x, i = .storedContentAltered set way x
    · obtain ⟨set, way, x, rfl⟩ := hi
      exact storedContentAltered_counted o1 c1 h
    · exact (exec_keeps (fun set way x e => hi ⟨set, way, x, e⟩) h o1).2 c1

/-! ### The state after reset -/

theorem reset_linksInOrder : LinksInOrder State.reset := fun _ => by
  refine ⟨⟨fun _ => ⟨rfl, rfl, rfl, rfl, rfl, rfl⟩, fun h => ?_, Nat.zero_le _, Nat.zero_le _⟩, List.nodup_nil, fun e he => ?_⟩
  · cases h
  · cases he

theorem reset_holdsInOrder : HoldsInOrder State.reset :=
  ⟨List.nodup_nil, List.forall_mem_nil _, List.nodup_nil, fun _ => rfl, fun _ => Nat.zero_le _, fun _ => Nat.zero_le _, Nat.zero_le _,
    Nat.zero_le _, List.nodup_nil, List.forall_mem_nil _⟩

theorem reset_undoRecords : State.reset.undoRecords = [] := rfl

/-- Settles O49: every table is empty and every list is, and what stands in their place is the reset value. -/
theorem resetMeetsEveryInvariant : Obligations.ResetMeetsEveryInvariant := by
  refine ⟨⟨rfl, rfl, rfl, rfl, rfl, rfl, rfl, rfl, rfl, rfl, rfl⟩, fun n => ?_, fun m n _ _ _ h => ?_, fun i j _ h => absurd rfl h,
    ⟨rfl, rfl⟩, by unfold LimitsInBounds; decide, fun card => Nat.zero_le _, fun _ l _ => rfl, reset_linksInOrder, fun n => ?_, ?_, ?_,
    ((ordered_iff _).1 (Ordered.of_empty rfl rfl)).2.2, reset_holdsInOrder, ⟨List.nodup_nil, List.forall_mem_nil _⟩, ?_, ?_,
    UnpostedCounted.of_empty rfl rfl⟩
  · show Program.default.inOrder
    exact ⟨by unfold ProgramLimits.inRange; decide, by decide, (nomatch ·), (nomatch ·)⟩
  · cases h
  · show Till.default.inOrder
    exact ⟨fun _ => rfl, Nat.zero_le _, Nat.zero_le _, Nat.zero_le _, Nat.zero_le _, Nat.zero_le _, Nat.zero_le _⟩
  · exact ⟨trivial, by decide, by decide⟩
  · exact ⟨by decide, by decide, by decide, List.forall_mem_nil _⟩
  · exact ⟨by rw [reset_undoRecords]; rfl, by rw [reset_undoRecords]; exact List.forall_mem_nil _⟩
  · exact Nat.zero_le _

/-- Settles O2: every table of the part is empty, and an empty table reads as the power-on value at every key. -/
theorem powerOnResetGivesTheResetValues : Obligations.PowerOnResetGivesTheResetValues := by
  intro s
  refine ⟨{ State.reset with pending := s.pending }, rfl, rfl, rfl, rfl, rfl, rfl, rfl, rfl, fun n => rfl, rfl, fun n => rfl, rfl,
    fun n => rfl, rfl, rfl, fun tag => ⟨rfl, rfl⟩, fun card => rfl, rfl, fun i => ⟨rfl, rfl⟩, fun n => rfl, fun n => rfl, fun l => rfl⟩

end Sys2Proof.Machine
end

section
/-! PASS-RANGE-SET and DIRECTORY-MODE. -/

namespace Sys2Proof.Machine

/-! ### PASS-RANGE-SET (R17, R18) -/

/-- The cards of the directory are those that find a way. -/
theorem State.mem_ways_card {s : State} (hwf : s.dir.wf DirSet.default = true) (hs : ∀ n, (s.dirSet n).inOrder n) (card : Nat) :
    (∃ w ∈ s.ways, w.st.card = some card) ↔ (s.findWay card).isSome = true := by
  constructor
  · rintro ⟨w, hw, hc⟩
    obtain ⟨⟨n, d⟩, hcell, hwd⟩ := List.mem_flatMap.1 hw
    obtain ⟨hd, -⟩ := (Table.mem_cells_iff DirSet.default hwf n d).1 hcell
    have hwn : w ∈ (s.dirSet n).ways := by change w ∈ (s.dir.get DirSet.default n).ways; rw [hd]; exact hwd
    have hset : setOf card = n := (hs n).2.2 w hwn card hc
    have hfind : s.findWay card = some w := (DirSet.holding_iff (hs _) card w).2 ⟨hset ▸ hwn, hc⟩
    rw [hfind]; rfl
  · intro h
    obtain ⟨w, hw⟩ := Option.isSome_iff_exists.1 h
    obtain ⟨hmem, hc⟩ := DirSet.holding_some hw
    refine ⟨w, List.mem_flatMap.2 ⟨(setOf card, s.dirSet (setOf card)), ?_, hmem⟩, hc⟩
    refine (Table.mem_cells_iff DirSet.default hwf _ _).2 ⟨rfl, fun hdef => ?_⟩
    rw [hdef] at hmem
    simp only [DirSet.default, List.mem_cons, List.not_mem_nil, or_false] at hmem
    rcases hmem with rfl | rfl | rfl | rfl <;> cases hc

/-- The cells of the Host Request Table that hold an entry. -/
theorem State.mem_requests {s : State} (hwf : s.requests.wf none = true) (tag : Nat) (x : HostEntry) :
    (tag, some x) ∈ s.requests.cells ↔ s.request tag = some x := by
  rw [Table.mem_cells_iff none hwf]
  exact ⟨fun h => h.1, fun h => ⟨h, nofun⟩⟩

theorem State.rangeInUse_iff {s : State} (hd : s.dir.wf DirSet.default = true) (hq : s.requests.wf none = true)
    (hs : ∀ n, (s.dirSet n).inOrder n) (r : Range) : s.rangeInUse r = true ↔ ∃ card, r.covers card = true ∧
      ((s.findWay card).isSome = true ∨ (∃ tag f, s.fetchAt tag = some f ∧ f.card = card) ∨ ∃ h ∈ s.holds, h.card = card) := by
  have hways : s.ways.any (fun w => match w.st.card with | some card => r.covers card | none => false) = true ↔
      ∃ card, r.covers card = true ∧ (s.findWay card).isSome = true := by
    rw [List.any_eq_true]
    constructor
    · rintro ⟨w, hw, hc⟩
      split at hc
      · next card hcard => exact ⟨card, hc, (State.mem_ways_card hd hs card).1 ⟨w, hw, hcard⟩⟩
      · cases hc
    · rintro ⟨card, hc, hf⟩
      obtain ⟨w, hw, hcard⟩ := (State.mem_ways_card hd hs card).2 hf
      exact ⟨w, hw, by rw [hcard]; exact hc⟩
  have hfetch : s.requests.cells.any (fun c => match c.2 with
      | some x => match x.fetch? with | some f => r.covers f.card | none => false
      | none => false) = true ↔ ∃ card, r.covers card = true ∧ ∃ tag f, s.fetchAt tag = some f ∧ f.card = card := by
    rw [List.any_eq_true]
    constructor
    · rintro ⟨⟨tag, c⟩, hmem, hc⟩
      cases c with
      | none => cases hc
      | some x =>
        dsimp only at hc
        split at hc
        · next f hf =>
          refine ⟨f.card, hc, tag, f, ?_, rfl⟩
          unfold State.fetchAt; rw [(State.mem_requests hq tag x).1 hmem]; exact hf
        · cases hc
    · rintro ⟨card, hc, tag, f, hf, rfl⟩
      obtain ⟨x, hx, hxf⟩ := Option.bind_eq_some_iff.1 hf
      exact ⟨(tag, some x), (State.mem_requests hq tag x).2 hx, by dsimp only; rw [hxf]; exact hc⟩
  have hholds : s.holds.any (fun h => r.covers h.card) = true ↔ ∃ card, r.covers card = true ∧ ∃ h ∈ s.holds, h.card = card := by
    rw [List.any_eq_true]
    exact ⟨fun ⟨h, hm, hc⟩ => ⟨h.card, hc, h, hm, rfl⟩, fun ⟨_, hc, h, hm, e⟩ => ⟨h, hm, e ▸ hc⟩⟩
  unfold State.rangeInUse
  rw [Bool.or_eq_true, Bool.or_eq_true]
  refine (or_congr (or_congr hways hfetch) hholds).trans ?_
  simp only [and_or_left, exists_or, or_assoc]

/-- R17: a count is in order when it is 0, or one of the listed powers of ten that divides the first card number. -/
theorem passRangeFault_none {x : PassRangeFields} {first : Nat} (hf : cardOfBcd x.first = some first) (hn : x.number.toNat ≤ 3) :
    passRangeFault x = none ↔ (x.count.toNat = 0 ∨ x.count.toNat ∈ passCounts ∧ first % x.count.toNat = 0) := by
  have hnum : ¬ Config.passRanges ≤ x.number.toNat := by unfold Config.passRanges; omega
  unfold passRangeFault
  rw [if_neg hnum, hf]
  dsimp only
  split
  · next h => exact iff_of_false nofun (fun k => k.elim h.1 (fun k => h.2 k.2))
  · next h =>
    split
    · next k => exact iff_of_false nofun (fun j => j.elim k.1 (fun j => k.2 j.1))
    · next k => refine iff_of_true rfl ?_; tauto

theorem passRangeSet_of_fault {x : PassRangeFields} {f : Field} (h : passRangeFault x = some f) (s : State) :
    passRangeSet x s = badField s f := by unfold passRangeSet; rw [h]

theorem passRangeSet_of_good {x : PassRangeFields} {first : Nat} (h : passRangeFault x = none) (hf : cardOfBcd x.first = some first)
    (s : State) : passRangeSet x s =
      if s.rangeInUse ⟨first, x.count.toNat⟩ then refuse s .rangeInUse
      else done { s with passRanges := s.passRanges.set ⟨0, 0⟩ x.number.toNat ⟨first, x.count.toNat⟩ } .none := by
  unfold passRangeSet; rw [h, hf]; rfl

/-- Settles O13, from what `State.rangeInUse` and `passRangeFault` find. -/
theorem passRangeSetRefusesRangesInUse : Obligations.PassRangeSetRefusesRangesInUse := by
  intro ref x first s htables hsets hfirst
  obtain ⟨-, -, hdir, -, hreq, -⟩ := id htables
  have huse := s.rangeInUse_iff hdir hreq hsets ⟨first, x.count.toNat⟩
  have hexec : exec (.passRangeSet (.body ref x)) s = .next (answer Kind.passRangeSet ref (passRangeSet x s)) := rfl
  refine ⟨fun h => ?_, fun h hbad => ?_, fun h hgood => ⟨fun hin => ?_, fun hout => ?_⟩⟩
  · have hfault : passRangeFault x = some .rangeNumber := if_pos (show 4 ≤ _ from h)
    rw [hexec, passRangeSet_of_fault hfault]; rfl
  · obtain ⟨f, hfault⟩ := Option.ne_none_iff_exists'.1 (fun e => hbad ((passRangeFault_none hfirst h).1 e))
    exact ⟨f, by rw [hexec, passRangeSet_of_fault hfault]; rfl⟩
  · rw [hexec, passRangeSet_of_good ((passRangeFault_none hfirst h).2 hgood) hfirst, if_pos (huse.2 hin)]; rfl
  · refine ⟨_, by rw [hexec, passRangeSet_of_good ((passRangeFault_none hfirst h).2 hgood) hfirst, if_neg (mt huse.1 hout)], rfl, ?_, ?_⟩
    · exact Table.get_set_same _ _ _ _
    · exact fun m hm => Table.get_set_other _ _ _ hm

/-! ### The flush, and DIRECTORY-MODE (R13, R14) -/

theorem State.settle_of_not_flushing {s : State} (h : s.dirMode.isFlushing = false) : s.settle = s := by
  unfold State.settle; split
  · next hm => rw [hm] at h; cases h
  · rfl

/-- The mode a finished flush leaves. -/
def FlushTarget.mode : FlushTarget → DirMode
  | .off => .off
  | .warming => .warming

theorem State.settle_of_flushed {s : State} {goal : FlushTarget} (hm : s.dirMode = .flushing goal) (h : s.flushed = true) :
    s.settle.dirMode = goal.mode ∧ s.settle.events = { s.events with pending := s.events.pending ||| Event.flushDone.bit } := by
  unfold State.settle; rw [hm]; dsimp only; rw [if_pos h]
  cases goal <;> exact ⟨rfl, rfl⟩

/-- A bit of the event set that was just raised. -/
theorem pending_raised (w : Word16) (e : Event) : (w ||| e.bit).getLsbD e.index = true := by
  cases e <;> simp [Event.bit, Event.index]

theorem modeTarget_of_high {b : Byte} (h : 3 < b.toNat) : modeTarget b = none := by
  have hne : ∀ k : Byte, k.toNat ≤ 3 → b ≠ k := fun k hk e => by subst e; omega
  unfold modeTarget
  rw [if_neg (hne _ (by decide)), if_neg (hne _ (by decide)), if_neg (hne _ (by decide)), if_neg (hne _ (by decide))]

theorem ModeTarget.mode_of_flush {t : ModeTarget} {goal : FlushTarget} (h : t.flush? = some goal) : t.mode = goal.mode := by
  cases t <;> cases h <;> rfl

theorem ModeTarget.mode_not_flushing (t : ModeTarget) : t.mode.isFlushing = false := by cases t <;> rfl

/-- R13, once the target is known. -/
theorem directoryMode_of_target {b : Byte} {t : ModeTarget} (h : modeTarget b = some t) (s : State) : directoryMode b s =
    if s.dirMode = t.mode then done s .none
    else match s.dirMode.isFlushing, t.flush? with
      | true, none => refuse s .wrongState
      | true, some target => done { s with dirMode := .flushing target } .none
      | false, none => done { s with dirMode := t.mode } .none
      | false, some target => if s.holds.isEmpty then done (s.enterFlush target) .none else refuse s .holdsPresent := by
  unfold directoryMode; rw [h] <;> rfl

/-- Settles O14, target by target. -/
theorem directoryModeChangesOrFlushes : Obligations.DirectoryModeChangesOrFlushes := by
  intro ref b s hwf
  have hexec : exec (.directoryMode (.body ref b)) s = .next (answer Kind.directoryMode ref (settled (directoryMode b s))) := rfl
  refine ⟨fun h => ?_, fun target htarget => ⟨fun h => ?_, fun hne hf hn => ?_, fun hf hn => ?_, fun goal hg => ⟨fun hf => ?_,
    fun hne hf hh => ?_, fun hne hf hh => ?_⟩⟩⟩
  · have hfault : directoryMode b s = badField s .mode := by unfold directoryMode; rw [modeTarget_of_high h]
    rw [hexec, hfault]; rfl
  all_goals rw [hexec, directoryMode_of_target htarget]
  · have hsettle : s.settle = s := State.settle_of_not_flushing (h ▸ target.mode_not_flushing)
    rw [if_pos h]; simp only [settled, done, answer, hsettle]
  · rw [if_neg hne, hf, hn]
    simp only [settled, done, answer, State.settle_of_not_flushing (s := { s with dirMode := target.mode }) target.mode_not_flushing]
  · have hne : s.dirMode ≠ target.mode := fun e => by rw [e, target.mode_not_flushing] at hf; cases hf
    rw [if_neg hne, hf, hn]; rfl
  · have hne : s.dirMode ≠ target.mode := fun e => by rw [e, target.mode_not_flushing] at hf; cases hf
    rw [if_neg hne, hf, hg]; rfl
  · rw [if_neg hne, hf, hg]
    simp only [List.isEmpty_iff, if_neg hh, settled, refuse, answer, State.settle_of_not_flushing hf]
  · rw [if_neg hne, hf, hg]
    simp only [List.isEmpty_iff, if_pos hh, settled, done, answer]
    refine ⟨s.enterFlush goal, rfl, rfl, fun n => ?_, fun hways hcount => ?_⟩
    · rw [State.enterFlush_dirSet hwf]; rfl
    · have hflushed : (s.enterFlush goal).flushed = true := by
        unfold State.flushed
        rw [Bool.and_eq_true, List.all_eq_true, decide_eq_true_eq]
        exact ⟨fun w hw => by rw [hways w hw]; rfl, hcount⟩
      obtain ⟨hmode, hevents⟩ := State.settle_of_flushed rfl hflushed
      rw [hmode, hevents, ModeTarget.mode_of_flush hg]
      exact ⟨rfl, pending_raised _ .flushDone⟩

end Sys2Proof.Machine
end

section
/-! CARD-EVICT, and UNLOAD and LOAD of CARD-ADJUST. -/

namespace Sys2Proof.Machine

/-! ### What a dropped way leaves (R4) -/

/-- A list of ways without way `no` is not changed by writing that way. -/
theorem filter_other_put (no : Nat) (st : WayState) (d : DirSet) :
    (d.put no st).ways.filter (fun w => decide (w.no ≠ no)) = d.ways.filter (fun w => decide (w.no ≠ no)) := by
  unfold DirSet.put
  induction d.ways with
  | nil => rfl
  | cons v t ih =>
    by_cases h : v.no = no
    · rw [List.map_cons, if_pos h, List.filter_cons_of_neg (by simp [h]), List.filter_cons_of_neg (by simp [h]), ih]
    · rw [List.map_cons, if_neg h, List.filter_cons_of_pos (by simp [h]), List.filter_cons_of_pos (by simp [h]), ih]

/-- The only way of a number, as a list. -/
theorem filter_only_put {no : Nat} {st : WayState} {l : List Way} (hn : (l.map (fun w => w.no)).Nodup) (hex : ∃ w ∈ l, w.no = no) :
    (l.map (fun w => if w.no = no then { w with st := st } else w)).filter (fun w => decide (w.no = no)) = [⟨no, st⟩] := by
  induction l with
  | nil => obtain ⟨w, hw, -⟩ := hex; cases hw
  | cons v t ih =>
    rw [List.map_cons, List.nodup_cons] at hn
    by_cases h : v.no = no
    · subst h
      rw [List.map_cons, if_pos rfl, List.filter_cons_of_pos (by simp)]
      have hrest : (t.map (fun w => if w.no = v.no then { w with st := st } else w)).filter (fun w => decide (w.no = v.no)) = [] := by
        rw [List.filter_eq_nil_iff]
        intro w hw
        obtain ⟨u, hu, rfl⟩ := List.mem_map.1 hw
        have hne : u.no ≠ v.no := fun e => hn.1 (List.mem_map.2 ⟨u, hu, e⟩)
        rw [if_neg hne]; simpa using hne
      rw [hrest]
    · rw [List.map_cons, if_neg h, List.filter_cons_of_neg (by simpa using h)]
      obtain ⟨w, hw, e⟩ := hex
      refine ih hn.2 ⟨w, (List.mem_cons.1 hw).resolve_left (fun k => h (k ▸ e)), e⟩

theorem DirSet.numbers_nodup {n : Nat} {d : DirSet} (h : d.inOrder n) : (d.ways.map (fun w => w.no)).Nodup :=
  h.1.nodup_iff.2 (by decide)

theorem DirSet.exists_no {n no : Nat} {d : DirSet} (h : d.inOrder n) (hno : no < 4) : ∃ w ∈ d.ways, w.no = no :=
  List.mem_map.1 (h.1.mem_iff.2 (by simp; omega))

theorem DirSet.put_toLru_ways {n no : Nat} {d : DirSet} (h : d.inOrder n) (hno : no < 4) (st : WayState) :
    ((d.put no st).toLru no).ways = ⟨no, st⟩ :: d.ways.filter (fun w => decide (w.no ≠ no)) := by
  unfold DirSet.toLru; dsimp only
  rw [filter_other_put]
  exact congrArg (· ++ _) (filter_only_put (DirSet.numbers_nodup h) (DirSet.exists_no h hno))

theorem DirSet.put_toMru_ways {n no : Nat} {d : DirSet} (h : d.inOrder n) (hno : no < 4) (st : WayState) :
    ((d.put no st).toMru no).ways = d.ways.filter (fun w => decide (w.no ≠ no)) ++ [⟨no, st⟩] := by
  unfold DirSet.toMru; dsimp only
  rw [filter_other_put]
  exact congrArg (_ ++ ·) (filter_only_put (DirSet.numbers_nodup h) (DirSet.exists_no h hno))

theorem State.dropWay_ways {s : State} {n no : Nat} (h : (s.dirSet n).inOrder n) (hno : no < 4) :
    ((s.dropWay n no).dirSet n).ways = ⟨no, .invalid⟩ :: (s.dirSet n).ways.filter (fun w => decide (w.no ≠ no)) := by
  unfold State.dropWay
  rw [State.setDirSet_dirSet, if_pos rfl]
  exact DirSet.put_toLru_ways h hno _

theorem State.setDirSet_others (s : State) (n : Nat) (d : DirSet) : s.otherSets (s.setDirSet n d) n := fun m hm => by
  rw [State.setDirSet_dirSet, if_neg hm]

/-! ### CARD-EVICT and UNLOAD (R19, R22) -/

theorem withCard_of_some {w : Word64} {card : Nat} (h : cardOfBcd w = some card) (s : State) (act : Nat → State → Answer) :
    withCard w s act = act card s := by unfold withCard; rw [h]

theorem withCard_of_none {w : Word64} (h : cardOfBcd w = none) (s : State) (act : Nat → State → Answer) :
    withCard w s act = badField s .cardNumber := by unfold withCard; rw [h]

section
variable {w : Word64} {card : Nat} {s : State} (hw : cardOfBcd w = some card)
include hw

theorem cardEvict_absent (hf : s.findWay card = none) : cardEvict w s = done s .notResident := by
  unfold cardEvict; rw [withCard_of_some hw, hf]

theorem cardEvict_reserved {no c : Nat} (hf : s.findWay card = some ⟨no, .reserved c⟩) : cardEvict w s = refuse s .cardBusy := by
  unfold cardEvict; rw [withCard_of_some hw, hf]

theorem cardEvict_valid {no stay : Nat} {r : CardRecord} (hf : s.findWay card = some ⟨no, .valid r stay⟩) :
    cardEvict w s = if s.pins r then refuse s .pinned else done (s.dropWay (setOf card) no) .none := by
  unfold cardEvict; rw [withCard_of_some hw, hf]

omit hw in
theorem State.adjustRefused_of_open (h : s.dirMode = .warming ∨ s.dirMode = .normal ∨ s.dirMode = .frozen) :
    s.adjustRefused = false := by
  unfold State.adjustRefused
  rcases h with e | e | e <;> rw [e] <;> rfl

omit hw in
theorem State.adjustRefused_of_shut (h : s.dirMode = .off ∨ s.dirMode.isFlushing = true) : s.adjustRefused = true := by
  unfold State.adjustRefused
  rcases h with e | e <;> simp [e]

/-- R20: a record that passes the common tests is handed to the form's own work. -/
theorem adjusting_adjustable {r : CardRecord} {stay : Nat} (h : s.Adjustable card r stay) (act : Nat → CardRecord → State → Answer) :
    adjusting w s act = act card r s := by
  obtain ⟨no, hf⟩ := State.recordOf_some h.record
  unfold adjusting
  rw [State.adjustRefused_of_open h.mode, if_neg Bool.false_ne_true, withCard_of_some hw, h.confirmed, if_neg Bool.false_ne_true, hf]
  dsimp only
  rw [State.readRecord_good h.record h.verified]

theorem cardAdjustUnload_adjustable {r : CardRecord} {no stay : Nat} (h : s.Adjustable card r stay)
    (hf : s.findWay card = some ⟨no, .valid r stay⟩) : cardAdjustUnload w s =
      if s.pins r then refuse s .pinned else done (s.dropWay (setOf card) no) (.record r.data r.unposted) := by
  unfold cardAdjustUnload; rw [adjusting_adjustable hw h, hf]

end

/-- Settles O15, from the effect of a drop on the card's set. -/
theorem evictAndUnloadEmptyTheWay : Obligations.EvictAndUnloadEmptyTheWay := by
  intro ref w card s hw hset hmode
  have hsettle : s.settle = s := State.settle_of_not_flushing hmode
  have hevict : exec (.cardEvict (.body ref w)) s = .next (answer Kind.cardEvict ref (settled (cardEvict w s))) := rfl
  have hunload : exec (.cardAdjustUnload (.body ref w)) s = .next (answer Kind.cardAdjust ref (cardAdjustUnload w s)) := rfl
  refine ⟨fun hf => ?_, fun no c hf => ?_, fun no r stay hf => ?_⟩
  · rw [hevict, cardEvict_absent hw hf]; simp only [settled, done, answer, hsettle]
  · rw [hevict, cardEvict_reserved hw hf]; simp only [settled, refuse, answer, hsettle]
  have hgone : (s.dropWay (setOf card) no).settle = s.dropWay (setOf card) no := State.settle_of_not_flushing hmode
  have hways := State.dropWay_ways hset (State.findWay_no hset hf)
  have hnone : (s.dropWay (setOf card) no).findWay card = none := State.findWay_checkFault hset hf
  have hothers : s.otherSets (s.dropWay (setOf card) no) (setOf card) := s.setDirSet_others _ _
  refine ⟨fun hp => ?_, fun hp => ?_, fun h => ⟨fun hp => ?_, fun hp => ?_⟩⟩
  · rw [hevict, cardEvict_valid hw hf, if_pos hp]; simp only [settled, refuse, answer, hsettle]
  · rw [hevict, cardEvict_valid hw hf, if_neg (by simp [hp])]
    refine ⟨_, rfl, ?_, ?_⟩
    all_goals simp only [settled, done, answer, hgone]
    · rfl
    · exact ⟨hnone, hothers, hways⟩
  · rw [hunload, cardAdjustUnload_adjustable hw h hf, if_pos hp]; rfl
  · rw [hunload, cardAdjustUnload_adjustable hw h hf, if_neg (by simp [hp])]
    exact ⟨_, rfl, rfl, hnone, hothers, hways⟩

/-! ### LOAD (R9, R20, R21) -/

section
variable {s : State} {card : Nat}

theorem State.occupied_reserved {no c : Nat} (h : s.findWay card = some ⟨no, .reserved c⟩) : s.occupied card = (s, true) := by
  unfold State.occupied State.readRecord; simp [h]

theorem State.occupied_verified {no stay : Nat} {r : CardRecord} (h : s.findWay card = some ⟨no, .valid r stay⟩) (hv : r.verifies = true) :
    s.occupied card = (s, true) := by
  unfold State.occupied; rw [State.readRecord_good (State.recordOf_of_findWay h) hv]

theorem State.occupied_damaged {no stay : Nat} {r : CardRecord} (hs : (s.dirSet (setOf card)).inOrder (setOf card))
    (h : s.findWay card = some ⟨no, .valid r stay⟩) (hv : r.verifies = false) : s.occupied card = (s.checkFault card no, false) := by
  unfold State.occupied; rw [State.readRecord_damaged h hv]; dsimp only; rw [State.findWay_checkFault hs h]; rfl

theorem State.occupied_none (h : s.findWay card = none) : s.occupied card = (s, false) := by
  unfold State.occupied State.readRecord; simp [h]

theorem cardAdjustLoad_open {w : CardWire} (h : s.dirMode = .warming ∨ s.dirMode = .normal ∨ s.dirMode = .frozen)
    (hc : cardOfBcd w.card = some card) : cardAdjustLoad w s = loadRecord (readCard w) card s := by
  unfold cardAdjustLoad; rw [State.adjustRefused_of_open h, if_neg Bool.false_ne_true, hc]

theorem loadRecord_of_occupied {d : Option CardData} {t : State} (h : s.occupied card = (t, true)) :
    loadRecord d card s = refuse t .cardBusy := by unfold loadRecord; rw [h]

theorem loadRecord_of_vacant {d : Option CardData} {t : State} (h : s.occupied card = (t, false)) :
    loadRecord d card s = loadAbsent d card t := by unfold loadRecord; rw [h]

theorem loadAbsent_named {d : Option CardData} (h : s.names card = true) : loadAbsent d card s = refuse s .cardBusy := if_pos h

theorem loadAbsent_bad {d : Option CardData} (hn : s.names card = false) (h : ¬ ∃ x, d = some x ∧ s.installable x = true) :
    loadAbsent d card s = badField s .cardRecord := by
  unfold loadAbsent; rw [hn, if_neg Bool.false_ne_true]
  cases d with
  | none => rfl
  | some x =>
    have hx : s.installable x = false := Bool.eq_false_iff.2 (fun e => h ⟨x, rfl, e⟩)
    dsimp only; rw [hx]; rfl

theorem loadAbsent_good {x : CardData} (hn : s.names card = false) (h : s.installable x = true) :
    loadAbsent (some x) card s = match s.victim card with
      | none => refuse s .pinned
      | some no => done (s.install no x) .none := by
  unfold loadAbsent; rw [hn, if_neg Bool.false_ne_true]; dsimp only; rw [h] <;> rfl

end

section
variable {s : State} {card no : Nat} {st : WayState} (hset : (s.dirSet (setOf card)).inOrder (setOf card)) (hno : no < 4)
include hset hno

/-- R4: what each card finds once a card that stood in no way stands in way `no`, the most recently used. -/
theorem State.findWay_mru (hc : st.card = some card) (hf : s.findWay card = none) (c : Nat) :
    (s.setDirSet (setOf card) (((s.dirSet (setOf card)).put no st).toMru no)).findWay c = if setOf c = setOf card then
      (if card = c then some ⟨no, st⟩ else (s.findWay c).filter (fun w => decide (w.no ≠ no))) else s.findWay c := by
  have hput : ((s.dirSet (setOf card)).put no st).inOrder (setOf card) :=
    DirSet.inOrder_put hset (fun c hcc => by rw [hc] at hcc; obtain rfl := Option.some.inj hcc; rfl) (fun c hcc w hw hwc => by
      rw [hc] at hcc
      obtain rfl := Option.some.inj hcc
      exact absurd hwc (DirSet.holding_none.1 hf w hw))
  refine (State.findWay_place hset hno hput (DirSet.toMru_perm no _) c).trans ?_
  simp only [hc, Option.some.injEq]

theorem State.mostRecent_mru (hc : st.card = some card) :
    (s.setDirSet (setOf card) (((s.dirSet (setOf card)).put no st).toMru no)).mostRecent card := by
  unfold State.mostRecent
  rw [State.setDirSet_dirSet, if_pos rfl, DirSet.put_toMru_ways hset hno, List.getLast?_concat]
  exact hc

/-- R4: a card of another way finds what it found. -/
theorem State.findWay_mru_other (hc : st.card = some card) (hf : s.findWay card = none) {c : Nat} {x : Way} (hne : c ≠ card)
    (hx : s.findWay c = some x) (hxno : x.no ≠ no) :
    (s.setDirSet (setOf card) (((s.dirSet (setOf card)).put no st).toMru no)).findWay c = some x := by
  rw [State.findWay_mru hset hno hc hf, if_neg (Ne.symm hne), hx]
  simp [hxno]

end

section
variable {s : State} {no : Nat} {d : CardData} (hset : (s.dirSet (setOf d.card)).inOrder (setOf d.card)) (hno : no < 4)
include hset hno

theorem State.recordOf_install (hf : s.findWay d.card = none) : (s.install no d).recordOf d.card = some (sealRecord d 0, s.nextStay) := by
  refine State.recordOf_of_findWay (no := no) ((State.findWay_mru hset hno rfl hf d.card).trans ?_)
  rw [if_pos rfl, if_pos rfl]

theorem State.mostRecent_install : (s.install no d).mostRecent d.card :=
  State.mostRecent_mru (st := .valid (sealRecord d 0) s.nextStay) hset hno rfl

theorem State.findWay_install_other (hf : s.findWay d.card = none) {c : Nat} {x : Way} (hne : c ≠ d.card) (hx : s.findWay c = some x)
    (hxno : x.no ≠ no) : (s.install no d).findWay c = some x :=
  State.findWay_mru_other (st := .valid (sealRecord d 0) s.nextStay) hset hno rfl hf hne hx hxno

end

/-- Settles O16, test by test in R20's and R21's order. -/
theorem loadInstallsInTheVictimWay : Obligations.LoadInstallsInTheVictimWay := by
  intro ref w card s hw hset
  have hexec : ∀ t, exec (.cardAdjustLoad (.body ref w)) t = .next (answer Kind.cardAdjust ref (cardAdjustLoad w t)) := fun _ => rfl
  refine ⟨fun hmode => ?_, fun hmode => ?_⟩
  · have hshut : cardAdjustLoad w s = refuse s .wrongState := if_pos (State.adjustRefused_of_shut hmode)
    rw [hexec, hshut]; rfl
  have hload : cardAdjustLoad w s = loadRecord (readCard w) card s := cardAdjustLoad_open hmode hw
  rw [hexec, hload]
  refine ⟨?_, fun no r stay hf hv => ?_, fun hf hn hbad => ?_, fun d hf hn hd hgood => ?_⟩
  · rintro (⟨no, hf⟩ | ⟨no, r, stay, hf, hv⟩ | ⟨hf, hn⟩)
    · rw [loadRecord_of_occupied (State.occupied_reserved hf)]; rfl
    · rw [loadRecord_of_occupied (State.occupied_verified hf hv)]; rfl
    · rw [loadRecord_of_vacant (State.occupied_none hf), loadAbsent_named hn]; rfl
  · have hnone := State.findWay_checkFault hset hf
    have hagain : cardAdjustLoad w (s.checkFault card no) = loadRecord (readCard w) card (s.checkFault card no) :=
      cardAdjustLoad_open hmode hw
    refine ⟨hnone, ?_⟩
    rw [hexec, hagain, loadRecord_of_vacant (State.occupied_damaged hset hf hv), loadRecord_of_vacant (State.occupied_none hnone)]
  · rw [loadRecord_of_vacant (State.occupied_none hf), loadAbsent_bad hn hbad]; rfl
  · have hcard : d.card = card := Option.some.inj ((readCard_card hd).symm.trans hw)
    subst hcard
    rw [loadRecord_of_vacant (State.occupied_none hf), hd, loadAbsent_good hn hgood]
    refine ⟨fun hv => by rw [hv]; rfl, fun no hv => ?_⟩
    have hno : no < 4 := State.victim_lt hset hv
    rw [hv]
    refine ⟨(s.install no d).queue (.result Kind.cardAdjust ref (.done .none)), rfl, rfl, rfl, ?_, ?_, fun m hm => ?_,
      fun c x hc hx hxno => ?_⟩
    · rw [State.queue_recordOf]; exact State.recordOf_install hset hno hf
    · unfold State.mostRecent; rw [State.queue_dirSet]; exact State.mostRecent_install hset hno
    · rw [State.queue_dirSet]; exact s.setDirSet_others _ _ m hm
    · rw [State.queue_findWay]; exact State.findWay_install_other hset hno hf hc hx hxno

end Sys2Proof.Machine
end

section
/-! Stored content that was altered, and the CARD form of DIRECTORY-READ. -/

namespace Sys2Proof.Machine

section
variable {s : State} {card no stay : Nat} {r : CardRecord}

theorem State.cardReport_none (h : s.findWay card = none) : s.cardReport card = (s, .notResident) := by
  unfold State.cardReport; rw [h]

theorem State.cardReport_reserved {c : Nat} (h : s.findWay card = some ⟨no, .reserved c⟩) : s.cardReport card = (s, .reserved no) := by
  unfold State.cardReport; rw [h]

theorem State.cardReport_verified (h : s.findWay card = some ⟨no, .valid r stay⟩) (hv : r.verifies = true) :
    s.cardReport card = (s, .valid no r.data r.unposted (s.pins r) (s.holdsOf card).length) := by
  unfold State.cardReport; rw [h]; exact if_pos hv

theorem State.cardReport_damaged (h : s.findWay card = some ⟨no, .valid r stay⟩) (hv : r.verifies = false) :
    s.cardReport card = (s.checkFault card no, .notResident) := by
  unfold State.cardReport; rw [h]; dsimp only; rw [hv]; rfl

end

theorem CardRecord.verifies_iff (r : CardRecord) : r.verifies = true ↔ r.check = checkCode r.data r.unposted := decide_eq_true_iff

theorem CardRecord.verifies_false_iff (r : CardRecord) : r.verifies = false ↔ r.check ≠ checkCode r.data r.unposted :=
  decide_eq_false_iff_not

/-- R12: the fault record after one more fault. -/
theorem FaultRecord.take_eq (f : FaultRecord) (x : LatchedFault) : f.take x =
    ⟨f.latched.or (some x), if f.count < 65535 then f.count + 1 else f.count, f.overflow || f.latched.isSome⟩ := by
  obtain ⟨latched, count, overflow⟩ := f
  cases latched with
  | none => rw [Option.isSome_none, Bool.or_false]; rfl
  | some y => rw [Option.isSome_some, Bool.or_true]; rfl

theorem directoryReadCard_report {w : Word64} {card : Nat} {s t : State} {x : CardReport} (hw : cardOfBcd w = some card)
    (h : s.cardReport card = (t, x)) (ref : Word32) : exec (.directoryReadCard (.body ref w)) s =
      .next (t.settle.queue (.result Kind.directoryRead ref (.done (.card (card % 16384) x)))) := by
  have hread : directoryReadCard w s = done t (.card (setOf card) x) := by
    unfold directoryReadCard; rw [withCard_of_some hw, h]
  change Host.Outcome.next (answer Kind.directoryRead ref (settled (directoryReadCard w s))) = _
  rw [hread]; rfl

/-- Settles O18, report by report and by whether the altered content matches. -/
theorem alteredRecordsAreFoundAndDropped : Obligations.AlteredRecordsAreFoundAndDropped := by
  refine ⟨fun ref w card s hw hset => ⟨fun hf => ?_, fun no c hf => ?_, fun no r stay hf => ⟨fun hv => ?_, fun hv => ?_⟩⟩,
    fun set way x r stay s hset hw => ⟨fun hv => ?_, fun hv => ?_⟩⟩
  · exact directoryReadCard_report hw (State.cardReport_none hf) ref
  · exact directoryReadCard_report hw (State.cardReport_reserved hf) ref
  · exact directoryReadCard_report hw (State.cardReport_verified hf ((CardRecord.verifies_iff r).2 hv)) ref
  · refine ⟨s.checkFault card no,
      directoryReadCard_report hw (State.cardReport_damaged hf ((CardRecord.verifies_false_iff r).2 hv)) ref, ?_,
      State.findWay_checkFault hset hf, s.setDirSet_others _ _, State.dropWay_ways hset (State.findWay_no hset hf),
      pending_raised _ .checkFault⟩
    rw [← FaultRecord.take_eq s.fault ⟨card, card % 16384, no⟩]; rfl
  · have hfail : (alteredRecord x).verifies = false := (CardRecord.verifies_false_iff (alteredRecord x)).2 hv
    refine ⟨_, rfl, rfl, s.setDirSet_others _ _, hfail, ?_⟩
    rw [State.setDirSet_dirSet, if_pos rfl, alterWay_failing hset hfail hw]; rfl
  · have hmatch : (alteredRecord x).verifies = true := (CardRecord.verifies_iff (alteredRecord x)).2 hv
    refine ⟨_, rfl, rfl, fun n => ?_⟩
    rw [alterWay_matching hmatch, State.setDirSet_dirSet]
    split
    · next e => rw [e]
    · rfl

end Sys2Proof.Machine
end

section
/-! The forms of CARD-ADJUST that write a resident record. -/

namespace Sys2Proof.Machine

/-! ### The common tests (R20) -/

theorem adjusting_shut {w : Word64} {s : State} (h : s.dirMode = .off ∨ s.dirMode.isFlushing = true)
    (act : Nat → CardRecord → State → Answer) : adjusting w s act = refuse s .wrongState := if_pos (State.adjustRefused_of_shut h)

theorem adjusting_malformed {w : Word64} {s : State} (h : s.dirMode = .warming ∨ s.dirMode = .normal ∨ s.dirMode = .frozen)
    (hw : cardOfBcd w = none) (act : Nat → CardRecord → State → Answer) : adjusting w s act = badField s .cardNumber := by
  unfold adjusting; rw [State.adjustRefused_of_open h, if_neg Bool.false_ne_true, withCard_of_none hw]

section
variable {w : Word64} {card : Nat} {s : State} (h : s.dirMode = .warming ∨ s.dirMode = .normal ∨ s.dirMode = .frozen)
  (hw : cardOfBcd w = some card) (act : Nat → CardRecord → State → Answer)
include h hw

theorem adjusting_unconfirmed (hu : s.unconfirmed card = true) : adjusting w s act = refuse s .cardBusy := by
  unfold adjusting; rw [State.adjustRefused_of_open h, if_neg Bool.false_ne_true, withCard_of_some hw, if_pos hu]

theorem adjusting_reserved {no c : Nat} (hf : s.findWay card = some ⟨no, .reserved c⟩) : adjusting w s act = refuse s .cardBusy := by
  unfold adjusting; rw [State.adjustRefused_of_open h, if_neg Bool.false_ne_true, withCard_of_some hw]
  split
  · rfl
  · rw [hf]

theorem adjusting_absent (hu : s.unconfirmed card = false) (hf : s.findWay card = none) : adjusting w s act = refuse s .notResident := by
  have hread : s.readRecord card = (s, none) := by unfold State.readRecord; rw [hf]
  unfold adjusting; rw [State.adjustRefused_of_open h, if_neg Bool.false_ne_true, withCard_of_some hw, hu, if_neg Bool.false_ne_true, hf]
  dsimp only; rw [hread]

theorem adjusting_damaged {no stay : Nat} {r : CardRecord} (hu : s.unconfirmed card = false)
    (hf : s.findWay card = some ⟨no, .valid r stay⟩) (hv : r.verifies = false) :
    adjusting w s act = refuse (s.checkFault card no) .notResident := by
  unfold adjusting; rw [State.adjustRefused_of_open h, if_neg Bool.false_ne_true, withCard_of_some hw, hu, if_neg Bool.false_ne_true, hf]
  dsimp only; rw [State.readRecord_damaged hf hv]

end

theorem State.unconfirmed_iff (s : State) (card : Nat) : s.unconfirmed card = true ↔
    (∃ u ∈ s.undoRecords, u.card = card) ∨ ∃ h ∈ s.holds, h.card = card ∧ h.state ≠ .opened := by
  simp only [State.unconfirmed, State.holdsOf, Bool.or_eq_true, List.any_eq_true, List.mem_filter, decide_eq_true_eq, and_assoc]

/-- R20: the four forms other than LOAD begin with the common tests on the card they carry. -/
theorem exec_adjust_form {ref : Word32} {w : Word64} {x : SetBonusFields} {i : Instr}
    (hi : i ∈ [Instr.cardAdjustUnload (.body ref w), .cardAdjustSetBonus (.body ref x), .cardAdjustBlock (.body ref w),
      .cardAdjustUnblock (.body ref w)]) : ∃ v act, (x.card = w → v = w) ∧
      ∀ s, exec i s = .next (answer Kind.cardAdjust ref (adjusting v s act)) := by
  simp only [List.mem_cons, List.not_mem_nil, or_false] at hi
  rcases hi with rfl | rfl | rfl | rfl
  · exact ⟨w, _, fun _ => rfl, fun _ => rfl⟩
  · exact ⟨x.card, _, id, fun _ => rfl⟩
  · exact ⟨w, _, fun _ => rfl, fun _ => rfl⟩
  · exact ⟨w, _, fun _ => rfl, fun _ => rfl⟩

/-! ### What a written record leaves (R2, R4) -/

/-- The card's record is `x` in its stay, every other record and set is as it was, and so is the order of the set's ways. -/
def State.wrote (s t : State) (card : Nat) (x : CardRecord) (stay : Nat) : Prop :=
  t.recordOf card = some (x, stay) ∧ s.otherCards t card ∧ s.otherSets t (setOf card) ∧
  (t.dirSet (setOf card)).ways.map (fun w => w.no) = (s.dirSet (setOf card)).ways.map (fun w => w.no)

theorem State.wrote_congr {s s' t t' : State} {card stay : Nat} {x : CardRecord} (hs : s'.dir = s.dir) (ht : t'.dir = t.dir)
    (h : s.wrote t card x stay) : s'.wrote t' card x stay := by
  obtain ⟨hr, hc, hn, ho⟩ := h
  have hset := State.dirSet_congr hs
  have hset' := State.dirSet_congr ht
  have hrec := fun c => State.recordOf_congr (State.findWay_congr hs c)
  have hrec' := fun c => State.recordOf_congr (State.findWay_congr ht c)
  exact ⟨(hrec' card).trans hr, fun c k => ((hrec' c).trans (hc c k)).trans (hrec c).symm,
    fun n k => ((hset' n).trans (hn n k)).trans (hset n).symm, by rw [hset', hset, ho]⟩

theorem State.wrote.queue {s t : State} {card stay : Nat} {x : CardRecord} (h : s.wrote t card x stay) (m : HostMsg) :
    s.wrote (t.queue m) card x stay := State.wrote_congr rfl rfl h

theorem State.wrote.trans {s t u : State} {card stay stay' : Nat} {x y : CardRecord} (h : s.wrote t card x stay)
    (k : t.wrote u card y stay') : s.wrote u card y stay' := by
  obtain ⟨-, hc, hn, ho⟩ := h
  obtain ⟨kr, kc, kn, ko⟩ := k
  exact ⟨kr, fun c e => (kc c e).trans (hc c e), fun n e => (kn n e).trans (hn n e), ko.trans ho⟩

theorem State.writeRecord_others (s : State) (card : Nat) (f : CardRecord → CardRecord) : s.otherSets (s.writeRecord card f) (setOf card) := by
  unfold State.writeRecord; split
  · exact s.setDirSet_others _ _
  · exact fun _ _ => rfl

/-- The writing of a record changes nothing but the directory. -/
theorem State.writeRecord_eq (s : State) (card : Nat) (f : CardRecord → CardRecord) :
    s.writeRecord card f = { s with dir := (s.writeRecord card f).dir } := by
  unfold State.writeRecord; split <;> rfl

theorem State.writeData_queue_eq (s : State) (card : Nat) (f : CardData → CardData) (m : HostMsg) : (s.writeData card f).queue m =
    { s with dir := ((s.writeData card f).queue m).dir, out := s.out ++ [m] } := by
  unfold State.writeData; rw [State.writeRecord_eq]; rfl

section
variable {s : State} {card stay : Nat} {r : CardRecord} (h : (s.dirSet (setOf card)).inOrder (setOf card))
  (hr : s.recordOf card = some (r, stay))
include h hr

theorem State.wrote_writeData (f : CardData → CardData) (hc : (f r.data).card = card) :
    s.wrote (s.writeData card f) card (sealRecord (f r.data) r.unposted) stay := by
  have hrec := State.recordOf_writeData f h hr hc
  exact ⟨(hrec card).trans (if_pos rfl), fun c e => (hrec c).trans (if_neg e), s.writeRecord_others _ _, s.writeRecord_order _ _ _⟩

theorem State.wrote_writeUnposted (f : Nat → Nat) : s.wrote (s.writeUnposted card f) card (sealRecord r.data (f r.unposted)) stay := by
  have hrec := State.recordOf_writeUnposted f h hr (State.recordOf_card hr)
  exact ⟨(hrec card).trans (if_pos rfl), fun c e => (hrec c).trans (if_neg e), s.writeRecord_others _ _, s.writeRecord_order _ _ _⟩

end

/-! ### A record that joins while its card is resident and no fetch is for it (R109, R128) -/

theorem State.fetchFor_congr {s t : State} (h : t.requests = s.requests) (card : Nat) : t.fetchFor card = s.fetchFor card := by
  unfold State.fetchFor State.request; rw [h]

theorem State.regate_none {s : State} {card : Nat} (h : s.fetchFor card = none) : s.regate card = s := by
  unfold State.regate; rw [h]

/-- R137: no warning below the high mark. -/
theorem State.warnHigh_quiet {s : State} (h : s.journal.records.length ≠ Config.highMark + 1) : s.warnHigh = s :=
  if_neg (fun k => h k.1)

theorem State.warnHigh_eq (s : State) : s.warnHigh =
    { s with journal := s.warnHigh.journal, events := s.warnHigh.events, out := s.warnHigh.out } := by
  unfold State.warnHigh; split <;> rfl

section
variable {s : State} {d : Draft} {r : CardRecord} {stay : Nat} (hr : s.recordOf d.card = some (r, stay)) (hv : r.verifies = true)
  (hf : s.fetchFor d.card = none)
include hr hv hf

theorem State.joinRecord_resident : s.joinRecord d =
    (((s.appendRecord (d.record s)).writeUnposted d.card (fun n => n + 1)).queue (.journal (d.record s) 0)).warnHigh := by
  have hcount : (s.appendRecord (d.record s)).countUnposted d.card =
      (s.appendRecord (d.record s)).writeUnposted d.card (fun n => n + 1) := by
    unfold State.countUnposted
    rw [State.readRecord_good (s := s.appendRecord (d.record s)) hr hv]
  have hfetch : ((s.appendRecord (d.record s)).writeUnposted d.card (fun n => n + 1)).fetchFor d.card = none :=
    (State.fetchFor_congr (State.writeRecord_only _ _ _).requests _).trans hf
  unfold State.joinRecord; dsimp only
  rw [hcount, State.regate_none hfetch]

theorem State.wrote_joinRecord (h : (s.dirSet (setOf d.card)).inOrder (setOf d.card)) :
    s.wrote (s.joinRecord d) d.card (sealRecord r.data (r.unposted + 1)) stay := by
  rw [State.joinRecord_resident hr hv hf]
  refine State.wrote_congr (s := s.appendRecord (d.record s)) (t := (s.appendRecord (d.record s)).writeUnposted d.card (fun n => n + 1))
    rfl ?_ (State.wrote_writeUnposted (s := s.appendRecord (d.record s)) h hr (fun n => n + 1))
  exact (State.warnHigh_only _).dir

/-- R128: what the joining of a resident card's record changes. -/
theorem State.joinRecord_eq : s.joinRecord d = { s with
    dir := (s.joinRecord d).dir, events := (s.joinRecord d).events, out := (s.joinRecord d).out, journal := (s.joinRecord d).journal } := by
  rw [State.joinRecord_resident hr hv hf, State.warnHigh_eq, State.writeUnposted, State.writeRecord_eq]
  rfl

/-- R137: below the high mark the joining is told to the host and raises nothing. -/
theorem State.joinRecord_quiet (h : s.journal.records.length ≠ Config.highMark) :
    (s.joinRecord d).events = s.events ∧ (s.joinRecord d).out = s.out ++ [.journal (d.record s) 0] := by
  have hlen : (((s.appendRecord (d.record s)).writeUnposted d.card (fun n => n + 1)).queue
      (.journal (d.record s) 0)).journal.records.length ≠ Config.highMark + 1 := by
    rw [State.queue_journal, State.writeUnposted, (State.writeRecord_only _ _ _).journal]
    simpa using h
  rw [State.joinRecord_resident hr hv hf, State.warnHigh_quiet hlen]
  refine ⟨(State.writeRecord_only _ _ _).events, ?_⟩
  rw [State.queue_out, State.writeUnposted, (State.writeRecord_only _ _ _).out]
  rfl

end

/-! ### BLOCK, UNBLOCK and SET-BONUS (R23, R24) -/

section
variable {w : Word64} {card : Nat} {r : CardRecord} {stay : Nat} {s : State} (hw : cardOfBcd w = some card)
  (ha : s.Adjustable card r stay)
include hw ha

theorem setStatus_adjustable (status : CardStatus) :
    setStatus status w s = done (s.writeData card (fun d => { d with status := status })) .none := adjusting_adjustable hw ha _

theorem cardAdjustSetBonus_adjustable (bonus : Word32) (o : WireOpt Word16) :
    cardAdjustSetBonus ⟨w, bonus, o⟩ s = setBonus bonus.toNat o card r s := adjusting_adjustable hw ha _

/-- R24: what the writing of a status leads to. -/
theorem setStatus_wrote (ref : Word32) (status : CardStatus) : ∃ t : State,
    answer Kind.cardAdjust ref (setStatus status w s) = t ∧
    t = { s with dir := t.dir, out := s.out ++ [.result Kind.cardAdjust ref (.done .none)] } ∧
    s.wrote t card (sealRecord { r.data with status := status } r.unposted) stay := by
  rw [setStatus_adjustable hw ha]
  refine ⟨_, rfl, State.writeData_queue_eq _ _ _ _, State.wrote.queue (State.wrote_writeData ha.apart ha.record
    (fun d => { d with status := status }) (State.recordOf_card ha.record)) _⟩

end

section
variable {bonus : Nat} {o : WireOpt Word16} {card : Nat} {r : CardRecord} {s : State}

theorem setBonus_balance (h : 9999999 < bonus ∨ bonus < s.heldBonus card) : setBonus bonus o card r s = badField s .bonusBalance :=
  if_pos h

theorem setBonus_malformed (h : ¬ (9999999 < bonus ∨ bonus < s.heldBonus card)) :
    setBonus bonus .malformed card r s = badField s .bonusExpiry := if_neg h

theorem setBonus_carried {carried : Option Nat} (h : ¬ (9999999 < bonus ∨ bonus < s.heldBonus card)) (ho : optionalDay o = some carried) :
    setBonus bonus o card r s = setBonusTo bonus carried card r s := by
  refine (if_neg h).trans ?_; rw [ho]

theorem newExpiry_eq (present carried : Option Nat) : newExpiry present carried = carried.or present := by cases carried <;> rfl

variable {carried : Option Nat}

theorem setBonusTo_unexpiring (h : 0 < bonus ∧ carried.or r.data.expiry = none) :
    setBonusTo bonus carried card r s = badField s .bonusExpiry := by
  unfold setBonusTo; dsimp only; rw [newExpiry_eq, if_pos h]

variable (h : ¬ (0 < bonus ∧ carried.or r.data.expiry = none))
include h

theorem setBonusTo_same (hb : bonus = r.data.bonus) : setBonusTo bonus carried card r s =
    done (s.writeData card (fun d => { d with expiry := carried.or r.data.expiry })) .none := by
  unfold setBonusTo; dsimp only; rw [newExpiry_eq, if_neg h, if_pos hb]

/-- R126, R138: the part as an admission with room leaves it, out of the refusing condition. -/
def State.unrefusing (s : State) : State := { s with journal := { s.journal with refusing := false } }

/-- R23, R126: the part once room is found for a SET-BONUS that changes the balance and the card's record is written. -/
def State.bonusWritten (s : State) (card bonus : Nat) (expiry : Option Nat) : State :=
  s.unrefusing.writeData card (fun d => { d with bonus := bonus, expiry := expiry })

/-- R23: the ADJUST record of a SET-BONUS. -/
def adjustDraft (card bonus present : Nat) : Draft :=
  { kind := .adjust, card := card, origin := none, bonusDelta := (bonus : Int) - (present : Int), coreDelta := 0, forfeited := none,
    undone := none }

theorem setBonusTo_full (hb : bonus ≠ r.data.bonus) (hj : s.journal.hasRoom 1 = false) :
    setBonusTo bonus carried card r s = refuse (s.full Kind.cardAdjust) .cardBusy := by
  unfold setBonusTo; dsimp only; rw [newExpiry_eq, if_neg h, if_neg hb, State.admission_eq_full _ hj]

theorem setBonusTo_room (hb : bonus ≠ r.data.bonus) (hj : s.journal.hasRoom 1 = true) : setBonusTo bonus carried card r s =
    done ((s.bonusWritten card bonus (carried.or r.data.expiry)).joinRecord (adjustDraft card bonus r.data.bonus)) .none := by
  unfold setBonusTo; dsimp only; rw [newExpiry_eq, if_neg h, if_neg hb, State.admission_room _ hj]; rfl

end

theorem Journal.hasRoom_iff (j : Journal) (need : Nat) : j.hasRoom need = true ↔ j.records.length + j.reserved + need ≤ 4096 :=
  decide_eq_true_iff

theorem Journal.hasRoom_false_iff (j : Journal) (need : Nat) : j.hasRoom need = false ↔ 4096 < j.records.length + j.reserved + need := by
  rw [← Bool.not_eq_true, Journal.hasRoom_iff, not_le]

/-- R20: the form is met as after the check fault of its card's record. -/
theorem adjusting_after_fault {w : Word64} {card no stay : Nat} {s : State} {r : CardRecord}
    (h : s.dirMode = .warming ∨ s.dirMode = .normal ∨ s.dirMode = .frozen) (hw : cardOfBcd w = some card)
    (hset : (s.dirSet (setOf card)).inOrder (setOf card)) (hu : s.unconfirmed card = false)
    (hf : s.findWay card = some ⟨no, .valid r stay⟩) (hv : r.verifies = false) (act : Nat → CardRecord → State → Answer) :
    adjusting w s act = adjusting w (s.checkFault card no) act := by
  rw [adjusting_damaged h hw act hu hf hv]
  exact (adjusting_absent (s := s.checkFault card no) h hw act hu (State.findWay_checkFault hset hf)).symm

theorem State.inOrder_writeData {s : State} {card stay : Nat} {r : CardRecord} (h : (s.dirSet (setOf card)).inOrder (setOf card))
    (hr : s.recordOf card = some (r, stay)) (f : CardData → CardData) (hc : (f r.data).card = card) :
    ((s.writeData card f).dirSet (setOf card)).inOrder (setOf card) := by
  obtain ⟨no, hf⟩ := State.recordOf_some hr
  have hput := State.inOrder_put_record h hf (st' := .valid (sealRecord (f r.data) r.unposted) stay) (congrArg some hc)
  unfold State.writeData State.writeRecord
  rw [hf]; dsimp only
  rw [State.setDirSet_dirSet, if_pos rfl]
  exact hput

/-- R23, R128: what a SET-BONUS with a changed balance leads to, where the journal has room. -/
theorem bonusWritten_joined {card stay : Nat} {r : CardRecord} {s t : State} (ha : s.Adjustable card r stay) (bonus : Nat)
    (expiry : Option Nat) (ht : (s.bonusWritten card bonus expiry).joinRecord (adjustDraft card bonus r.data.bonus) = t) :
    t = { s with
      dir := t.dir, events := t.events, out := t.out
      journal := { s.journal with
        records := s.journal.records ++ [(adjustDraft card bonus r.data.bonus).record s], nextSeq := nextSequence s.journal.nextSeq
        refusing := false, highArmed := s.journal.highArmed && decide (s.journal.records.length ≠ 3072) } } ∧
    s.wrote t card (sealRecord { r.data with bonus := bonus, expiry := expiry } (r.unposted + 1)) stay ∧
    (s.journal.records.length ≠ 3072 →
      t.events = s.events ∧ t.out = s.out ++ [.journal ((adjustDraft card bonus r.data.bonus).record s) 0]) := by
  have hcard := State.recordOf_card ha.record
  have hwrote : s.wrote (s.bonusWritten card bonus expiry) card _ stay :=
    State.wrote_congr (s := s.unrefusing) rfl rfl
      (State.wrote_writeData (s := s.unrefusing) ha.apart ha.record (fun d => { d with bonus := bonus, expiry := expiry }) hcard)
  have hset : ((s.bonusWritten card bonus expiry).dirSet (setOf card)).inOrder (setOf card) :=
    State.inOrder_writeData (s := s.unrefusing) ha.apart ha.record _ hcard
  obtain ⟨dir, hdir⟩ : ∃ dir, s.bonusWritten card bonus expiry =
      { s with dir := dir, journal := { s.journal with refusing := false } } := ⟨_, State.writeRecord_eq _ _ _⟩
  rw [hdir] at ht hwrote hset
  have hjoin := State.wrote_joinRecord (d := adjustDraft card bonus r.data.bonus) hwrote.1 (sealRecord_verifies _ _)
    ((State.fetchFor_congr (s := s) rfl card).trans ha.unfetched) hset
  have hframe := State.joinRecord_eq (d := adjustDraft card bonus r.data.bonus) hwrote.1 (sealRecord_verifies _ _)
    ((State.fetchFor_congr (s := s) rfl card).trans ha.unfetched)
  have hquiet := State.joinRecord_quiet (d := adjustDraft card bonus r.data.bonus) hwrote.1 (sealRecord_verifies _ _)
    ((State.fetchFor_congr (s := s) rfl card).trans ha.unfetched)
  rw [State.joinRecord_journal] at hframe
  subst ht
  exact ⟨hframe, hwrote.trans hjoin, hquiet⟩

/-- R23: the field that a refused SET-BONUS names. -/
theorem setBonus_refused {bonus : Nat} {card : Nat} {r : CardRecord} {s : State} {carried : Option Nat} {o : WireOpt Word16}
    (ho : optionalDay o = some carried)
    (h : 9999999 < bonus ∨ bonus < s.heldBonus card ∨ (0 < bonus ∧ carried.or r.data.expiry = none)) :
    setBonus bonus o card r s =
      badField s (if 9999999 < bonus ∨ bonus < s.heldBonus card then .bonusBalance else .bonusExpiry) := by
  by_cases hb : 9999999 < bonus ∨ bonus < s.heldBonus card
  · rw [setBonus_balance hb, if_pos hb]
  · rw [setBonus_carried hb ho, if_neg hb, setBonusTo_unexpiring ((or_assoc.2 h).resolve_left hb)]

/-- R20: the common tests, met by each form on the card it carries. -/
theorem adjust_form_refused {ref : Word32} {w : Word64} {x : SetBonusFields} {s : State} {i : Instr} (hx : x.card = w)
    (hmode : s.dirMode = .warming ∨ s.dirMode = .normal ∨ s.dirMode = .frozen)
    (hi : i ∈ [Instr.cardAdjustUnload (.body ref w), .cardAdjustSetBonus (.body ref x), .cardAdjustBlock (.body ref w),
      .cardAdjustUnblock (.body ref w)]) :
    let refused (reason : RefuseReason) (field : Option Field) : Prop :=
      exec i s = .next (s.queue (.result Kind.cardAdjust ref (.refused reason field [])))
    (cardOfBcd w = none → refused .badField (some .cardNumber)) ∧
    ∀ card, cardOfBcd w = some card → (s.dirSet (setOf card)).inOrder (setOf card) →
      let unconfirmed : Prop := (∃ u ∈ s.undoRecords, u.card = card) ∨ ∃ h ∈ s.holds, h.card = card ∧ h.state ≠ .opened
      (unconfirmed ∨ (∃ no c, s.findWay card = some ⟨no, .reserved c⟩) → refused .cardBusy none) ∧
      (¬ unconfirmed → s.findWay card = none → refused .notResident none) ∧
      ∀ no r stay, ¬ unconfirmed → s.findWay card = some ⟨no, .valid r stay⟩ → r.verifies = false →
        (s.checkFault card no).findWay card = none ∧ exec i s = exec i (s.checkFault card no) := by
  obtain ⟨v, act, hv, hexec⟩ := exec_adjust_form hi
  obtain rfl := hv hx
  refine ⟨fun hw => ?_, fun card hw hset => ⟨?_, fun hu hf => ?_, fun no r stay hu hf hbad => ⟨State.findWay_checkFault hset hf, ?_⟩⟩⟩
  · rw [hexec, adjusting_malformed hmode hw]; rfl
  · rintro (hu | ⟨no, c, hf⟩)
    · rw [hexec, adjusting_unconfirmed hmode hw act ((s.unconfirmed_iff card).2 hu)]; rfl
    · rw [hexec, adjusting_reserved hmode hw act hf]; rfl
  · rw [hexec, adjusting_absent hmode hw act (Bool.eq_false_iff.2 (mt (s.unconfirmed_iff card).1 hu)) hf]; rfl
  · rw [hexec, hexec, adjusting_after_fault hmode hw hset (Bool.eq_false_iff.2 (mt (s.unconfirmed_iff card).1 hu)) hf hbad]

/-- Settles O17, from the common tests and from what a written record leaves. -/
theorem adjustWritesTheRecord : Obligations.AdjustWritesTheRecord := by
  refine ⟨fun ref w x s hmode i hi => ?_, fun ref w x s hx hmode i hi => adjust_form_refused hx hmode hi,
    fun ref w card r stay s hw ha => ?_⟩
  · obtain ⟨v, act, -, hexec⟩ := exec_adjust_form hi
    rw [hexec, adjusting_shut hmode]; rfl
  have hexec : ∀ bonus o, exec (.cardAdjustSetBonus (.body ref ⟨w, bonus, o⟩)) s =
      .next (answer Kind.cardAdjust ref (setBonus bonus.toNat o card r s)) := fun bonus o =>
    congrArg (fun a => Host.Outcome.next (answer Kind.cardAdjust ref a)) (cardAdjustSetBonus_adjustable hw ha bonus o)
  refine ⟨?_, ?_, fun bonus => ?_, fun bonus carried o ho => ?_⟩
  · obtain ⟨t, ht, hframe, hwrote⟩ := setStatus_wrote hw ha ref .blocked
    exact ⟨t, congrArg Host.Outcome.next ht, hframe, hwrote⟩
  · obtain ⟨t, ht, hframe, hwrote⟩ := setStatus_wrote hw ha ref .active
    exact ⟨t, congrArg Host.Outcome.next ht, hframe, hwrote⟩
  · rw [hexec]
    by_cases hb : 9999999 < bonus.toNat ∨ bonus.toNat < s.heldBonus card
    · rw [setBonus_balance hb, if_pos hb]; rfl
    · rw [setBonus_malformed hb, if_neg hb]; rfl
  have hday : optionalDay o = some carried := by
    rcases ho with ⟨rfl, rfl⟩ | ⟨v, rfl, rfl⟩ <;> rfl
  rw [hexec]
  refine ⟨fun hbad => by rw [setBonus_refused hday hbad]; rfl, fun hgood hb => ?_, fun hgood hb hj => ?_, fun hgood hb hj => ?_⟩
  all_goals
    obtain ⟨hbalance, hexpiry⟩ := not_or.1 (mt or_assoc.1 hgood)
    rw [setBonus_carried hbalance hday]
  · rw [setBonusTo_same hexpiry hb]
    exact ⟨(s.writeData card (fun d => { d with expiry := carried.or r.data.expiry })).queue (.result Kind.cardAdjust ref (.done .none)),
      rfl, State.writeData_queue_eq _ _ _ _, State.wrote.queue (State.wrote_writeData ha.apart ha.record
      (fun d => { d with expiry := carried.or r.data.expiry }) (State.recordOf_card ha.record)) _⟩
  · rw [setBonusTo_full hexpiry hb ((Journal.hasRoom_false_iff _ _).2 hj)]; rfl
  · rw [setBonusTo_room hexpiry hb ((Journal.hasRoom_iff _ _).2 hj)]
    generalize hjoin : (s.bonusWritten card bonus.toNat (carried.or r.data.expiry)).joinRecord
      (adjustDraft card bonus.toNat r.data.bonus) = u
    obtain ⟨hframe, hwrote, hquiet⟩ := bonusWritten_joined ha bonus.toNat (carried.or r.data.expiry) hjoin
    refine ⟨u.queue (.result Kind.cardAdjust ref (.done .none)), rfl, ?_, State.wrote.queue hwrote _, fun hlen => ?_⟩
    · rw [hframe]; rfl
    · obtain ⟨hevents, hout⟩ := hquiet hlen
      rw [State.queue_events, State.queue_out, hevents, hout, List.append_assoc]
      exact ⟨rfl, rfl⟩

end Sys2Proof.Machine
end

section
/-! The take-off of a money request up to the directory's decision. -/

namespace Sys2Proof.Machine

/-! ### The request as it reaches the directory (R61, R75, R85, R88, R92) -/

/-- The reply queue entry of a request that has been taken off and is bound as `b`. -/
def State.askEntry (s : State) (m : TillMsg) (n : NotedTill) (b : Binding) : ReplyEntry :=
  { slot := s.nextSlot, msg := m, noted := some n, bound := b, nextEntry := s.nextEntry, state := .reserved }

/-- The part `s` with the links, tills and slot number that a take-off leaves. -/
def State.reached (s : State) (links : Table Link) (tills : Table Till) : State :=
  { s with links := links, tills := tills, nextSlot := s.nextSlot + 1 }

/-- `t` is the part `s` once the request at the front of link `l` has been taken off, bound as `b` and, as a REVERSE, has marked its
entry. -/
structure State.Reached (s t : State) (l : Nat) (m : TillMsg) (rest : List TillMsg) (n : NotedTill) (b : Binding) : Prop where
  frame : ∃ links tills, t = s.reached links tills
  marks : s.marked t n b true
  taken : s.takenOff t l m rest n b .reserved

/-- What the directory makes of a request for the card that is bound as `b` (R6, R78). -/
def directoryMeets (l : Nat) (e : ReplyEntry) (b : Binding) (card : Nat) (s : State) : State :=
  match b with
  | .entry x => if x.kind = .standIn then standInReverse l e x s else directoryDecision l e card s
  | _ => directoryDecision l e card s

theorem State.newEntry_eq {s : State} {l : Nat} {m : TillMsg} {n : NotedTill} (h : s.resolve l m.lane.toNat = some n) :
    s.newEntry l m = s.askEntry m n .free := by unfold State.newEntry; rw [h]; rfl

theorem State.takeable_of_taking {s : State} {l : Fin 8} {m : TillMsg} {rest : List TillMsg} (h : s.Taking l m rest) :
    s.takeable l = some (m, rest) := by unfold State.takeable; rw [h.up, h.front]; exact if_pos h.room

/-- R162: a request at the front of an UP link whose lane is mapped is taken off. -/
theorem takeOff_trading {s : State} {l : Fin 8} {m : TillMsg} {rest : List TillMsg} {n : NotedTill} (h : s.Trading l m rest n)
    {want : TillKind → Bool} (hw : want m.kind = true) (act : ReplyEntry → NotedTill → State → State) :
    takeOff l want s act = act (s.askEntry m n .free) n (s.take l (s.askEntry m n .free) rest) := by
  unfold takeOff
  rw [State.takeable_of_taking h.toTaking]; dsimp only
  rw [if_pos hw, State.newEntry_eq h.mapped]; rfl

/-- R61: a request that passes the checks of its fields, at an OPEN ordinary till, goes on. -/
theorem moneyChecks_pass {l : Nat} {e : ReplyEntry} {n : NotedTill} {fields fits : Bool} {amount : Nat} {s : State} {act : State → State}
    (hf : fields = true) (ha : fits = true) (hn : 16 ≤ n.till) (ho : (s.till n.till).isOpen = true) :
    moneyChecks l e n fields fits amount s act = (act s).settle := by
  have ht : isTraining n.till = false := decide_eq_false (by omega)
  unfold moneyChecks; rw [hf, ha, ht, ho]; rfl

theorem withCardProgram_found {l : Nat} {e : ReplyEntry} {card : Nat} {s : State} (hc : cardOfBcd e.msg.card = some card)
    (hp : (s.programOf card).isSome = true) : withCardProgram l e s = directoryDecision l e card s := by
  obtain ⟨p, hp⟩ := Option.isSome_iff_exists.1 hp
  have hno : cardNo e.msg = some card := hc
  unfold withCardProgram; rw [hno]; dsimp only
  unfold State.underProgram; rw [hp]

theorem amountOk_of {m : TillMsg} (h : 1 ≤ m.amount.toNat ∧ m.amount.toNat ≤ 9999999) : amountOk m = true :=
  Bool.and_eq_true_iff.2 ⟨decide_eq_true h.1, decide_eq_true h.2⟩

theorem partialOk_of {m : TillMsg} (h : m.allowPartial = 0#8 ∨ m.allowPartial = 1#8) : partialOk m = true := by
  unfold partialOk; rcases h with e | e <;> rw [e] <;> rfl

theorem State.reached_setMark (s : State) (links : Table Link) (tills : Table Till) (till id : Nat) (b : Bool) :
    (s.reached links tills).setMark till id b = s.reached links ((s.reached links tills).setMark till id b).tills := rfl

section
variable {s : State} {l : Fin 8} {m : TillMsg} {rest : List TillMsg} {n : NotedTill}

/-- R162: what the taking off of a request, and its binding, leave of the links. -/
theorem State.takenOff_bind (h : s.Taking l m rest) (b : Binding) :
    s.takenOff ((s.take l (s.askEntry m n .free) rest).modEntry l s.nextSlot (fun x => { x with bound := b })) l m rest n b .reserved := by
  have hlink := s.take_link l (s.askEntry m n .free) rest
  refine ⟨fun k hk => ?_, ?_⟩
  · unfold State.modEntry; rw [State.setLink_link, if_neg hk, hlink, if_neg hk]
  · have hlast := replies_finish_last (e := s.askEntry m n .free) (fun x hx => (h.fresh x hx).ne) (fun x => { x with bound := b })
    unfold State.modEntry; rw [State.setLink_link_same, hlink, if_pos rfl]
    exact congrArg (fun r => { s.link l with inbound := rest, replies := r }) hlast

theorem State.reached_free : s.Reached (s.take l (s.askEntry m n .free) rest) l m rest n .free where
  frame := ⟨_, _, rfl⟩
  marks := fun _ => rfl
  taken := ⟨fun k hk => by rw [State.take_link, if_neg hk], by rw [State.take_link, if_pos rfl]; rfl⟩

theorem State.reached_bind (b : Binding) :
    ∃ links, (s.take l (s.askEntry m n .free) rest).modEntry l s.nextSlot (fun x => { x with bound := b }) = s.reached links s.tills :=
  ⟨_, rfl⟩

theorem State.reached_hold (h : s.Taking l m rest) (id card : Nat) :
    s.Reached ((s.take l (s.askEntry m n .free) rest).modEntry l s.nextSlot (fun x => { x with bound := .hold id card })) l m rest n
      (.hold id card) where
  frame := have ⟨links, h⟩ := State.reached_bind (.hold id card); ⟨links, _, h⟩
  marks := fun _ => rfl
  taken := State.takenOff_bind h _

theorem State.reached_entry (h : s.Taking l m rest) (x : StackEntry) :
    s.Reached (((s.take l (s.askEntry m n .free) rest).modEntry l s.nextSlot (fun y => { y with bound := .entry x })).setMark n.till x.id
      true) l m rest n (.entry x) := by
  have htaken := State.takenOff_bind (n := n) h (.entry x)
  obtain ⟨links, hreached⟩ := State.reached_bind (s := s) (l := l) (m := m) (rest := rest) (n := n) (.entry x)
  rw [hreached] at htaken ⊢
  refine ⟨⟨links, _, State.reached_setMark _ _ _ _ _ _⟩, fun k => ?_, htaken⟩
  unfold State.setMark; rw [State.setTill_till]; dsimp only
  split
  · next e => rw [e]; rfl
  · rfl

end

/-! ### Each of the seven kinds reaches the directory -/

section
variable {s : State} {l : Fin 8} {m : TillMsg} {rest : List TillMsg} {n : NotedTill} {b : Binding} {card : Nat}

/-- R88, R92: a COMPLETE or RELEASE of an OPEN hold meets the directory for the hold's card. -/
theorem settleHold_reaches (h : s.Taking l m rest) {site : Nat} {x : Hold} (hn : n.site = some site)
    (hx : s.holdByKey site m.holdRef = some x) (ho : x.state = .opened) :
    ∃ t, s.Reached t l m rest n (.hold x.id x.card) ∧
      settleHold l (s.askEntry m n .free) n (s.take l (s.askEntry m n .free) rest) =
        directoryMeets l (s.askEntry m n (.hold x.id x.card)) (.hold x.id x.card) x.card t := by
  refine ⟨_, State.reached_hold h x.id x.card, ?_⟩
  have hkey : (s.take l (s.askEntry m n .free) rest).holdByKey site (s.askEntry m n .free).msg.holdRef = some x := hx
  unfold settleHold; rw [hn]; dsimp only; rw [hkey]; dsimp only; rw [if_pos ho]; rfl

/-- R75: a REVERSE of a STANDING entry with none above it meets the directory for the entry's card. -/
theorem reverseFrom_reaches (h : s.Taking l m rest) {x : StackEntry}
    (hx : stackCheck m.tillRef false (s.till n.till).stack = .found x) :
    ∃ t, s.Reached t l m rest n (.entry x) ∧ reverseFrom l (s.askEntry m n .free) n (s.take l (s.askEntry m n .free) rest) =
      directoryMeets l (s.askEntry m n (.entry x)) (.entry x) x.card t := by
  refine ⟨_, State.reached_entry h x, ?_⟩
  have hcheck : stackCheck (s.askEntry m n .free).msg.tillRef false ((s.take l (s.askEntry m n .free) rest).till n.till).stack =
      .found x := hx
  unfold reverseFrom; rw [hcheck]; rfl

/-- R61, R67: an ENQUIRY, REDEEM or RELOAD under a program meets the directory for the card it carries. -/
theorem withCardProgram_reaches (hc : cardOfBcd m.card = some card) (hp : (s.programOf card).isSome = true) :
    withCardProgram l (s.askEntry m n .free) (s.take l (s.askEntry m n .free) rest) =
      directoryMeets l (s.askEntry m n .free) .free card (s.take l (s.askEntry m n .free) rest) := withCardProgram_found hc hp

/-- R85: so does a HOLD of a new key. -/
theorem holdFrom_reaches {site : Nat} (hc : cardOfBcd m.card = some card) (hp : (s.programOf card).isSome = true)
    (hn : n.site = some site) (hx : s.holdByKey site m.holdRef = none) :
    holdFrom l (s.askEntry m n .free) n (s.take l (s.askEntry m n .free) rest) =
      directoryMeets l (s.askEntry m n .free) .free card (s.take l (s.askEntry m n .free) rest) := by
  have hkey : ((s.take l (s.askEntry m n .free) rest).holdByKey site (s.askEntry m n .free).msg.holdRef).isSome = false :=
    congrArg Option.isSome hx
  unfold holdFrom; rw [hn]; dsimp only; rw [hkey, if_neg Bool.false_ne_true]
  exact withCardProgram_reaches hc hp

/-- R162, R61: the take-off of a money request of an ordinary OPEN till is its own checks and its own way to the directory. -/
theorem takeOff_money (h : s.Trading l m rest n) {want : TillKind → Bool} (hw : want m.kind = true) {fields fits : ReplyEntry → Bool}
    {amount : ReplyEntry → Nat} {act : ReplyEntry → NotedTill → State → State} (hf : fields (s.askEntry m n .free) = true)
    (ha : fits (s.askEntry m n .free) = true) :
    takeOff l want s (fun e n s => moneyChecks l e n (fields e) (fits e) (amount e) s (act e n)) =
      (act (s.askEntry m n .free) n (s.take l (s.askEntry m n .free) rest)).settle := by
  rw [takeOff_trading h hw]; exact moneyChecks_pass hf ha h.ordinary h.opened

/-- R6, R61: whatever its kind, a request that asks for the card meets the directory for it, bound as it is. -/
theorem exec_asks (h : s.Asks l m rest n b card) : ∃ t, s.Reached t l m rest n b ∧
    exec (takeOffOf m.kind l) s = .next (directoryMeets l (s.askEntry m n b) b card t).settle := by
  obtain ⟨htrade, hfields, hamount, hbound⟩ := h
  have htaking := htrade.toTaking
  unfold fieldsGood at hfields
  unfold readsAmount at hamount
  cases hk : m.kind
  all_goals simp only [hk] at hfields hbound
  case enquiry =>
    obtain ⟨rfl, hc, hp⟩ := hbound
    refine ⟨_, State.reached_free, congrArg Host.Outcome.next ?_⟩
    rw [← withCardProgram_reaches hc hp]
    exact takeOff_money htrade (decide_eq_true hk) hfields rfl
  case redeem =>
    obtain ⟨rfl, hc, hp⟩ := hbound
    obtain ⟨hcard, hpart, href⟩ := hfields
    refine ⟨_, State.reached_free, congrArg Host.Outcome.next ?_⟩
    rw [← withCardProgram_reaches hc hp]
    exact takeOff_money htrade (decide_eq_true hk)
      (by rw [Bool.and_eq_true, Bool.and_eq_true]; exact ⟨⟨hcard, partialOk_of hpart⟩, decide_eq_true href⟩)
      (amountOk_of (hamount (.inl hk)))
  case reload =>
    obtain ⟨rfl, hc, hp⟩ := hbound
    obtain ⟨hcard, href⟩ := hfields
    refine ⟨_, State.reached_free, congrArg Host.Outcome.next ?_⟩
    rw [← withCardProgram_reaches hc hp]
    exact takeOff_money htrade (decide_eq_true hk) (by rw [Bool.and_eq_true]; exact ⟨hcard, decide_eq_true href⟩)
      (amountOk_of (hamount (.inr (.inr (.inl hk)))))
  case hold =>
    obtain ⟨rfl, hc, hp, site, hn, hx⟩ := hbound
    obtain ⟨hcard, hpart, href⟩ := hfields
    refine ⟨_, State.reached_free, congrArg Host.Outcome.next ?_⟩
    rw [← holdFrom_reaches hc hp hn hx]
    exact takeOff_money htrade (decide_eq_true hk)
      (by rw [Bool.and_eq_true, Bool.and_eq_true]; exact ⟨⟨hcard, partialOk_of hpart⟩, decide_eq_true href⟩)
      (amountOk_of (hamount (.inr (.inl hk))))
  case complete =>
    obtain ⟨site, x, hn, hx, ho, rfl, rfl⟩ := hbound
    obtain ⟨href, htill⟩ := hfields
    obtain ⟨t, ht, hmeets⟩ := settleHold_reaches htaking hn hx ho
    refine ⟨t, ht, congrArg Host.Outcome.next ?_⟩
    rw [← hmeets]
    exact takeOff_money htrade (decide_eq_true hk) (by rw [Bool.and_eq_true]; exact ⟨decide_eq_true href, decide_eq_true htill⟩)
      (amountOk_of (hamount (.inr (.inr (.inr hk)))))
  case release =>
    obtain ⟨site, x, hn, hx, ho, rfl, rfl⟩ := hbound
    obtain ⟨t, ht, hmeets⟩ := settleHold_reaches htaking hn hx ho
    refine ⟨t, ht, congrArg Host.Outcome.next ?_⟩
    rw [← hmeets]
    exact takeOff_money htrade (decide_eq_true hk) (decide_eq_true hfields) rfl
  case reverse =>
    obtain ⟨x, hx, rfl, rfl⟩ := hbound
    obtain ⟨t, ht, hmeets⟩ := reverseFrom_reaches htaking hx
    refine ⟨t, ht, congrArg Host.Outcome.next ?_⟩
    rw [← hmeets]
    exact takeOff_money htrade (decide_eq_true hk) (decide_eq_true hfields) rfl

end

end Sys2Proof.Machine
end

section
/-! What a request that is no hit leads to: a decline, a referral, a fetch or a place on a wait list. -/

namespace Sys2Proof.Machine

/-! ### The lowest free tag (R102) -/

theorem State.freeTag_of_lowest {s : State} {tag : Nat} (h : s.lowestFree tag) : s.freeTag = some tag := by
  obtain ⟨hlt, hfree, hbelow⟩ := h
  refine List.find?_range_eq_some.2 ⟨by rw [hfree]; rfl, List.mem_range.2 hlt, fun k hk => ?_⟩
  have := hbelow k hk
  cases hr : s.request k with
  | none => rw [hr] at this; cases this
  | some x => rfl

theorem State.freeTag_none {s : State} (h : ∀ k, k < 256 → (s.request k).isSome = true) : s.freeTag = none := by
  refine List.find?_eq_none.2 fun k hk => ?_
  have := h k (List.mem_range.1 hk)
  cases hr : s.request k with
  | none => rw [hr] at this; cases this
  | some x => simp

theorem State.entered_makeEntry (s : State) (tag timer : Nat) (kind : HostKind) : s.entered (s.makeEntry tag timer kind) tag timer kind := by
  refine ⟨Table.get_set_same _ _ _ _, ?_, fun k hk => ⟨?_, Table.get_set_other _ _ _ hk⟩⟩
  · unfold State.makeEntry; rw [State.setRequest_request, if_pos rfl, State.bumpGeneration_generation_same]; rfl
  · unfold State.makeEntry; rw [State.setRequest_request, if_neg hk, State.bumpGeneration_request]

theorem State.makeEntry_eq (s : State) (tag timer : Nat) (kind : HostKind) : ∃ requests generations,
    s.makeEntry tag timer kind = { s with requests := requests, generations := generations } := ⟨_, _, rfl⟩

/-! ### The four outcomes -/

section
variable {s t : State} {l : Fin 8} {m : TillMsg} {rest : List TillMsg} {n : NotedTill} {b : Binding}

theorem State.Reached.dirMode (h : s.Reached t l m rest n b) : t.dirMode = s.dirMode := by
  obtain ⟨⟨links, tills, rfl⟩, -, -⟩ := h; rfl

/-- R79: a mark that was set is cleared with its request. -/
theorem State.marked_clearMark (h : s.marked t n b true) : s.marked (t.clearMark (s.askEntry m n b)) n b false := by
  intro k
  have hk := h k
  cases b with
  | free => exact hk
  | hold id card => exact hk
  | entry x =>
    have hn := h n.till
    dsimp only at hk hn ⊢
    change (t.setMark n.till x.id false).till k = _
    unfold State.setMark; rw [State.setTill_till]
    by_cases e : k = n.till
    · subst e
      rw [if_pos rfl, if_pos rfl, hn, if_pos rfl, List.map_map]
      refine congrArg (fun st => { s.till n.till with stack := st }) (List.map_congr_left fun y _ => ?_)
      dsimp only [Function.comp]
      by_cases hy : y.id = x.id
      · simp only [if_pos hy]
      · simp only [if_neg hy]
    · rw [if_neg e, if_neg e, hk, if_neg e]

/-- R62, R79: a decline ends the request, and its mark. -/
theorem State.Reached.declines (hr : s.Reached t l m rest n b) (hfresh : ∀ e ∈ (s.link l).replies, e.slot < s.nextSlot) {reason : Reason}
    (hexec : exec (takeOffOf m.kind l) s = .next (decline l (s.askEntry m n b) reason none t).settle) :
    s.declines l m rest n b reason := by
  have hmode := hr.dirMode
  obtain ⟨hframe, hmarks, hothers, hlink⟩ := hr
  have hu : (decline l (s.askEntry m n b) reason none t).dirMode = s.dirMode := ((decline_only _ _ _ _ _).dirMode).trans hmode
  refine ⟨_, hexec, fun hf => State.settle_of_not_flushing (hu.symm ▸ hf), ?_, State.marked_clearMark hmarks,
    fun k hk => ?_, ?_⟩
  · obtain ⟨links, tills, rfl⟩ := hframe
    cases b <;> rfl
  · rw [decline_link, if_neg hk, hothers k hk]
  · have hlast := replies_finish_last (e := s.askEntry m n b) (fun x hx => (hfresh x hx).ne)
      (fun x => { x with state := .ready (declinedReply m reason none) none none })
    rw [decline_link, if_pos rfl, hlink]
    exact congrArg (fun r => { s.link l with inbound := rest, replies := r }) hlast

/-- R140: the identity of a request's site, as a referral carries it. -/
theorem State.notedIdentity_ask (s t : State) (m : TillMsg) (n : NotedTill) (b : Binding) (h : t.siteIds = s.siteIds) :
    t.notedIdentity (s.askEntry m n b) = (n.site.map s.siteId).getD 0 := by
  have hid : ∀ i, t.siteId i = s.siteId i := fun i => by unfold State.siteId; rw [h]
  obtain ⟨till, site, shift⟩ := n
  cases site with
  | none => rfl
  | some i => exact hid i

/-- R115: a referral in the lowest free tag, or BUSY. -/
theorem State.Reached.refers (hr : s.Reached t l m rest n b) (hfresh : ∀ e ∈ (s.link l).replies, e.slot < s.nextSlot)
    (hexec : exec (takeOffOf m.kind l) s = .next (refer l (s.askEntry m n b) t).settle) : s.refers l m rest n b := by
  have hmode := hr.dirMode
  obtain ⟨links, tills, rfl⟩ := hr.frame
  refine ⟨fun tag htag => ?_, fun hfull => ?_⟩
  · have hfree : (s.reached links tills).freeTag = some tag := State.freeTag_of_lowest (s := s.reached links tills) htag
    have hrefer : refer l (s.askEntry m n b) (s.reached links tills) = ((s.reached links tills).makeEntry tag s.limits.hostAnswer
        (.referral ⟨l, s.nextSlot, m, b, false⟩)).queue (.referral tag ((s.generation tag + 1) % 65536) m (reverseFields b) n.till
          ((n.site.map s.siteId).getD 0)) := by
      unfold refer; rw [hfree]; dsimp only
      rw [State.notedIdentity_ask s (s.reached links tills) m n b rfl, (State.entered_makeEntry _ _ _ _).1]
      rfl
    rw [hrefer] at hexec
    have hentered := State.entered_makeEntry (s.reached links tills) tag s.limits.hostAnswer (.referral ⟨l, s.nextSlot, m, b, false⟩)
    obtain ⟨requests, generations, hmake⟩ := State.makeEntry_eq (s.reached links tills) tag s.limits.hostAnswer
      (.referral ⟨l, s.nextSlot, m, b, false⟩)
    rw [hmake] at hexec hentered
    refine ⟨_, hexec, fun hf => State.settle_of_not_flushing hf, ?_, hr.marks, hr.taken, hentered⟩
    cases b <;> rfl
  · have hfree : (s.reached links tills).freeTag = none := State.freeTag_none (s := s.reached links tills) hfull
    have hrefer : refer l (s.askEntry m n b) (s.reached links tills) =
        decline l (s.askEntry m n b) .busy none (s.reached links tills) := by unfold refer; rw [hfree]
    exact hr.declines hfresh (hrefer ▸ hexec)

theorem State.mostRecent_congr {s t : State} (h : t.dir = s.dir) {card : Nat} (hs : s.mostRecent card) : t.mostRecent card := by
  unfold State.mostRecent; rw [State.dirSet_congr h]; exact hs

/-- R8, R106: a fetch is an entry beside its RESERVED way, with a message when it is SENT at once. -/
theorem issueFetch_eq (l : Nat) (e : ReplyEntry) (card no tag : Nat) (s : State) : issueFetch l e card no tag s =
    { (s.reserveWay card no).makeEntry tag (if s.names card then s.limits.gate else s.limits.hostAnswer)
        (.fetch ⟨card, card % 16384, no, !s.names card, [⟨l, e.slot⟩]⟩) with
      out := if s.names card then s.out else s.out ++ [.cardFetch tag ((s.generation tag + 1) % 65536) card] } := by
  have hgen := fun timer kind => (State.entered_makeEntry (s.reserveWay card no) tag timer kind).1
  unfold issueFetch; dsimp only
  cases hn : s.names card with
  | false => simp only [Bool.not_false, if_true, hgen]; rfl
  | true => rfl

/-- R8, R106: a fetch in the tag, its way reserved for the card. -/
theorem State.Reached.issues (hr : s.Reached t l m rest n b) {card no tag : Nat} (hset : (s.dirSet (setOf card)).inOrder (setOf card))
    (hno : no < 4) (hf : s.findWay card = none) (hmode : s.dirMode.isFlushing = false)
    (hexec : exec (takeOffOf m.kind l) s = .next (issueFetch l (s.askEntry m n b) card no tag t).settle) :
    ∃ t : State, exec (takeOffOf m.kind l) s = .next t ∧
      t = { s with
        dir := t.dir, links := t.links, tills := t.tills, nextSlot := s.nextSlot + 1, requests := t.requests
        generations := t.generations
        out := if s.names card then s.out else s.out ++ [.cardFetch tag ((s.generation tag + 1) % 65536) card] } ∧
      s.marked t n b true ∧ s.takenOff t l m rest n b .reserved ∧
      s.entered t tag (if s.names card then s.limits.gate else s.limits.hostAnswer)
        (.fetch ⟨card, card % 16384, no, !s.names card, [⟨l, s.nextSlot⟩]⟩) ∧
      t.findWay card = some ⟨no, .reserved card⟩ ∧ t.mostRecent card ∧ s.otherSets t (setOf card) ∧
      ∀ c x, c ≠ card → s.findWay c = some x → x.no ≠ no → t.findWay c = some x := by
  obtain ⟨links, tills, rfl⟩ := hr.frame
  have hway : (s.reserveWay card no).findWay card = some ⟨no, .reserved card⟩ := by
    refine (State.findWay_mru hset hno rfl hf card).trans ?_
    rw [if_pos rfl, if_pos rfl]
  have hrecent : (s.reserveWay card no).mostRecent card := State.mostRecent_mru hset hno rfl
  have hsets : s.otherSets (s.reserveWay card no) (setOf card) := s.setDirSet_others _ _
  have hothers : ∀ c x, c ≠ card → s.findWay c = some x → x.no ≠ no → (s.reserveWay card no).findWay c = some x :=
    fun c x hne hx hxno => State.findWay_mru_other hset hno rfl hf hne hx hxno
  obtain ⟨dir, hdir⟩ : ∃ dir, s.reserveWay card no = { s with dir := dir } := ⟨_, rfl⟩
  have hreserve : (s.reached links tills).reserveWay card no = { s.reached links tills with dir := dir } :=
    congrArg (fun x : State => x.reached links tills) hdir
  rw [hdir] at hway hrecent hsets hothers
  have hentered := State.entered_makeEntry { s.reached links tills with dir := dir } tag
    (if s.names card then s.limits.gate else s.limits.hostAnswer) (.fetch ⟨card, card % 16384, no, !s.names card, [⟨l, s.nextSlot⟩]⟩)
  obtain ⟨requests, generations, hmake⟩ := State.makeEntry_eq { s.reached links tills with dir := dir } tag
    (if s.names card then s.limits.gate else s.limits.hostAnswer) (.fetch ⟨card, card % 16384, no, !s.names card, [⟨l, s.nextSlot⟩]⟩)
  rw [hmake] at hentered
  have hissue : issueFetch l (s.askEntry m n b) card no tag (s.reached links tills) =
      { s with
        dir := dir, links := links, tills := tills, nextSlot := s.nextSlot + 1, requests := requests, generations := generations
        out := if s.names card then s.out else s.out ++ [.cardFetch tag ((s.generation tag + 1) % 65536) card] } := by
    rw [issueFetch_eq, hreserve]
    exact congrArg (fun x : State => { x with
      out := if s.names card then s.out else s.out ++ [HostMsg.cardFetch tag ((s.generation tag + 1) % 65536) card] }) hmake
  rw [hissue] at hexec
  refine ⟨_, hexec.trans (congrArg Host.Outcome.next (State.settle_of_not_flushing hmode)), rfl, hr.marks, hr.taken, hentered, ?_, ?_,
    fun k hk => ?_, fun c x hne hx hxno => ?_⟩
  · exact (State.findWay_congr rfl card).trans hway
  · exact State.mostRecent_congr rfl hrecent
  · exact (State.dirSet_congr rfl k).trans (hsets k hk)
  · exact (State.findWay_congr rfl c).trans (hothers c x hne hx hxno)

/-- R110: a place at the end of the wait list of the card's fetch, or BUSY. -/
theorem State.Reached.joins (hr : s.Reached t l m rest n b) (hfresh : ∀ e ∈ (s.link l).replies, e.slot < s.nextSlot) {card tag : Nat}
    {x : HostEntry} {f : Fetch} (hx : s.request tag = some x) (hk : x.kind = .fetch f) (hc : f.card = card)
    (hone : ∀ a g, s.fetchAt a = some g → g.card = card → a = tag)
    (hexec : exec (takeOffOf m.kind l) s = .next (joinWaitList l (s.askEntry m n b) card t).settle) :
    (f.waiters.length < 16 → ∃ u : State, exec (takeOffOf m.kind l) s = .next u.settle ∧
      (s.dirMode.isFlushing = false → u.settle = u) ∧
      u = { s with links := u.links, tills := u.tills, nextSlot := s.nextSlot + 1, requests := u.requests } ∧
      s.marked u n b true ∧ s.takenOff u l m rest n b .reserved ∧
      u.request tag = some { x with kind := .fetch { f with waiters := f.waiters ++ [⟨l, s.nextSlot⟩] } } ∧
      ∀ k, k ≠ tag → u.request k = s.request k) ∧
    (16 ≤ f.waiters.length → s.declines l m rest n b .busy) := by
  obtain ⟨links, tills, rfl⟩ := hr.frame
  have hfor : (s.reached links tills).fetchFor card = some (tag, x, f) :=
    State.fetchFor_of_single (s := s.reached links tills) hx hk hc hone
  refine ⟨fun hlen => ?_, fun hlen => ?_⟩
  · have hjoin : joinWaitList l (s.askEntry m n b) card (s.reached links tills) = (s.reached links tills).setRequest tag
        (some { x with kind := .fetch { f with waiters := f.waiters ++ [⟨l, s.nextSlot⟩] } }) := by
      unfold joinWaitList; rw [hfor]; exact if_pos hlen
    rw [hjoin] at hexec
    refine ⟨_, hexec, fun hf => State.settle_of_not_flushing hf, rfl, hr.marks, hr.taken, ?_, fun k hne => ?_⟩
    · rw [State.setRequest_request, if_pos rfl]
    · rw [State.setRequest_request, if_neg hne]; rfl
  · have hjoin : joinWaitList l (s.askEntry m n b) card (s.reached links tills) =
        decline l (s.askEntry m n b) .busy none (s.reached links tills) := by
      unfold joinWaitList; rw [hfor]; exact if_neg (not_lt.2 hlen)
    exact hr.declines hfresh (hjoin ▸ hexec)

end

end Sys2Proof.Machine
end

section
/-! The directory's decision for a request that is no hit. -/

namespace Sys2Proof.Machine

/-! ### The decision, case by case (R6, R7, R8, R15, R78) -/

section
variable {l : Nat} {e : ReplyEntry} {card : Nat} {s : State}

theorem directoryDecision_direct (h : s.passThrough card = false) : directoryDecision l e card s = match s.dirMode with
    | .off => refer l e s
    | .warming => refer l e s
    | .flushing _ => flushingDecision l e card (refer l e) s
    | .normal => lookup l e card (miss l e card) s
    | .frozen => lookup l e card (miss l e card) s := by
  unfold directoryDecision; rw [h, if_neg Bool.false_ne_true] <;> rfl

theorem lookup_none {onMiss : State → State} (h : s.findWay card = none) : lookup l e card onMiss s = onMiss s := by
  unfold lookup; rw [h]

theorem lookup_reserved {onMiss : State → State} {no c : Nat} (h : s.findWay card = some ⟨no, .reserved c⟩) :
    lookup l e card onMiss s = meetReserved l e card s := by
  unfold lookup; rw [h]

theorem flushingDecision_none {onMiss : State → State} (h : s.findWay card = none) : flushingDecision l e card onMiss s = onMiss s := by
  unfold flushingDecision; rw [h]

theorem flushingDecision_reserved {onMiss : State → State} {no c : Nat} (h : s.findWay card = some ⟨no, .reserved c⟩) :
    flushingDecision l e card onMiss s = joinWaitList l e card s := by
  unfold flushingDecision; rw [h]

theorem flushingDecision_valid {onMiss : State → State} {no stay : Nat} {r : CardRecord} (h : s.findWay card = some ⟨no, .valid r stay⟩) :
    flushingDecision l e card onMiss s = decline l e .unavailable none s := by
  unfold flushingDecision; rw [h]

theorem missUnfetched_unheld (h : ∀ id c, e.bound ≠ .hold id c) (s : State) : missUnfetched l e s = refer l e s := by
  unfold missUnfetched; split
  · next hb _ => exact absurd hb (h _ _)
  · next hb _ => exact absurd hb (h _ _)
  · rfl

/-- R7: a RESERVED way in a mode that looks up, but for a request bound to a hold in FROZEN. -/
theorem meetReserved_joins (h : s.dirMode ≠ .frozen ∨ ∀ id c, e.bound ≠ .hold id c) :
    meetReserved l e card s = joinWaitList l e card s := by
  unfold meetReserved; split
  · next hm hb => exact (h.elim (fun k => k hm) (fun k => k _ _ hb)).elim
  · rfl

theorem DirMode.eq_flushing {m : DirMode} (h : m.isFlushing = true) : ∃ goal, m = .flushing goal := by
  cases m with
  | flushing goal => exact ⟨goal, rfl⟩
  | off => cases h
  | warming => cases h
  | normal => cases h
  | frozen => cases h

/-- R6, R8, R15: the requests that are referred. -/
theorem directoryDecision_refers (h : s.passThrough card = true ∨ s.dirMode = .off ∨ s.dirMode = .warming ∨
    s.findWay card = none ∧ (s.dirMode.isFlushing = true ∨
      (∀ id c, e.bound ≠ .hold id c) ∧ (s.dirMode = .frozen ∨ s.dirMode = .normal ∧ s.victim card = none))) :
    directoryDecision l e card s = refer l e s := by
  cases hp : s.passThrough card with
  | true => exact if_pos hp
  | false =>
    rw [directoryDecision_direct hp]
    rcases h with h | h | h | ⟨hf, h | ⟨hb, h | ⟨h, hv⟩⟩⟩
    · rw [hp] at h; cases h
    · rw [h]
    · rw [h]
    · obtain ⟨goal, hg⟩ := DirMode.eq_flushing h
      rw [hg]; exact flushingDecision_none hf
    · rw [h]; dsimp only
      rw [lookup_none hf]; unfold miss; rw [h]; exact missUnfetched_unheld hb s
    · rw [h]; dsimp only
      rw [lookup_none hf]; unfold miss; rw [h]; dsimp only
      unfold missNormal; rw [hv]; exact missUnfetched_unheld hb s

/-- R8: a miss in NORMAL with a victim. -/
theorem directoryDecision_miss {no : Nat} (hp : s.passThrough card = false) (hm : s.dirMode = .normal) (hf : s.findWay card = none)
    (hv : s.victim card = some no) : directoryDecision l e card s = match s.freeTag with
      | none => decline l e .busy none s
      | some tag => issueFetch l e card no tag s := by
  rw [directoryDecision_direct hp, hm]; dsimp only
  rw [lookup_none hf]; unfold miss; rw [hm]; dsimp only
  unfold missNormal; rw [hv] <;> rfl

theorem directoryDecision_flushing_valid {no stay : Nat} {r : CardRecord} (hp : s.passThrough card = false)
    (hm : s.dirMode.isFlushing = true) (hf : s.findWay card = some ⟨no, .valid r stay⟩) :
    directoryDecision l e card s = decline l e .unavailable none s := by
  obtain ⟨goal, hg⟩ := DirMode.eq_flushing hm
  rw [directoryDecision_direct hp, hg]; exact flushingDecision_valid hf

theorem directoryDecision_reserved {no c : Nat} (hp : s.passThrough card = false)
    (hm : s.dirMode = .normal ∨ s.dirMode.isFlushing = true ∨ s.dirMode = .frozen ∧ ∀ id c, e.bound ≠ .hold id c)
    (hf : s.findWay card = some ⟨no, .reserved c⟩) : directoryDecision l e card s = joinWaitList l e card s := by
  rw [directoryDecision_direct hp]
  rcases hm with hm | hm | ⟨hm, hb⟩
  · rw [hm]; dsimp only
    rw [lookup_reserved hf]; exact meetReserved_joins (.inl (by rw [hm]; nofun))
  · obtain ⟨goal, hg⟩ := DirMode.eq_flushing hm
    rw [hg]; exact flushingDecision_reserved hf
  · rw [hm]; dsimp only
    rw [lookup_reserved hf]; exact meetReserved_joins (.inr hb)

end

section
variable {l : Nat} {e : ReplyEntry} {x : StackEntry} {s : State}

theorem standInReverse_shut {no stay : Nat} {r : CardRecord} (hm : s.dirMode = .off ∨ s.dirMode = .warming)
    (hf : s.findWay x.card = some ⟨no, .valid r stay⟩) : standInReverse l e x s = refer l e s := by
  unfold standInReverse
  rcases hm with hm | hm
  · rw [hm]; dsimp only; rw [hf]
  · rw [hm]; dsimp only; rw [hf]

theorem standInReverse_flushing_valid {no stay : Nat} {r : CardRecord} (hm : s.dirMode.isFlushing = true)
    (hf : s.findWay x.card = some ⟨no, .valid r stay⟩) : standInReverse l e x s = decline l e .unavailable none s := by
  obtain ⟨goal, hg⟩ := DirMode.eq_flushing hm
  unfold standInReverse; rw [hg]; exact flushingDecision_valid hf

/-- R78: the REVERSE of a STAND-IN entry waits for its card's fetch in every mode. -/
theorem standInReverse_reserved {no c : Nat} (hb : e.bound = .entry x) (hf : s.findWay x.card = some ⟨no, .reserved c⟩) :
    standInReverse l e x s = joinWaitList l e x.card s := by
  have hunheld : ∀ id c, e.bound ≠ .hold id c := fun id c h => by rw [hb] at h; cases h
  unfold standInReverse
  cases s.dirMode with
  | normal => exact (lookup_reserved hf).trans (meetReserved_joins (.inr hunheld))
  | frozen => exact (lookup_reserved hf).trans (meetReserved_joins (.inr hunheld))
  | flushing goal => exact flushingDecision_reserved hf
  | off => dsimp only; rw [hf]
  | warming => dsimp only; rw [hf]

end

/-! ### The request and what it is bound to -/

section
variable {s t : State} {l : Fin 8} {m : TillMsg} {rest : List TillMsg} {n : NotedTill} {b : Binding} {card : Nat}

theorem State.Asks.entry_card {x : StackEntry} (h : s.Asks l m rest n (.entry x) card) : x.card = card := by
  have hb := h.bound
  split at hb
  · obtain ⟨_, _, -, -, -, -, hb⟩ := hb; cases hb
  · obtain ⟨_, _, -, -, -, -, hb⟩ := hb; cases hb
  · obtain ⟨y, -, hc, hb⟩ := hb; cases hb; exact hc
  · obtain ⟨hb, -⟩ := hb; cases hb
  · obtain ⟨hb, -⟩ := hb; cases hb

theorem State.Asks.unheld (h : s.Asks l m rest n b card) (hb : ¬ ∃ id, b = .hold id card) (id c : Nat) : b ≠ .hold id c := by
  rintro rfl
  have hbound := h.bound
  split at hbound
  · obtain ⟨_, x, -, -, -, hc, he⟩ := hbound; cases he; exact hb ⟨x.id, rfl⟩
  · obtain ⟨_, x, -, -, -, hc, he⟩ := hbound; cases he; exact hb ⟨x.id, rfl⟩
  · obtain ⟨y, -, hc, he⟩ := hbound; cases he
  · obtain ⟨he, -⟩ := hbound; cases he
  · obtain ⟨he, -⟩ := hbound; cases he

/-- What the directory's decision reads is as it was before the take-off. -/
theorem State.Reached.reads (h : s.Reached t l m rest n b) (card : Nat) : t.passThrough card = s.passThrough card ∧
    t.dirMode = s.dirMode ∧ t.findWay card = s.findWay card ∧ t.victim card = s.victim card := by
  obtain ⟨⟨links, tills, rfl⟩, -, -⟩ := h
  exact ⟨rfl, rfl, rfl, rfl⟩

theorem directoryMeets_decision {e : ReplyEntry} (h : ¬ ∃ x, b = .entry x ∧ x.kind = .standIn) :
    directoryMeets l e b card t = directoryDecision l e card t := by
  cases b with
  | free => rfl
  | hold id c => rfl
  | entry x => exact if_neg (fun k => h ⟨x, rfl, k⟩)

theorem directoryMeets_standIn {e : ReplyEntry} {x : StackEntry} (h : x.kind = .standIn) :
    directoryMeets l e (.entry x) card t = standInReverse l e x t := if_pos h

end

/-- Settles O41, from the four outcomes and the directory's decision on the state the take-off leaves. -/
theorem missesFetchOrRefer : Obligations.MissesFetchOrRefer := by
  intro l m rest n b card s hasks
  obtain ⟨t, hr, hexec⟩ := exec_asks hasks
  have hfresh := hasks.fresh
  obtain ⟨hpass, hmode, hway, hvictim⟩ := hr.reads card
  refine ⟨fun no hs hm hp hf hv hset => ?_, fun hs h => ?_, fun hs hm hf => ?_, fun hd hm hf => ?_, fun no tag x f hf hx hk hc hone hd => ?_⟩
  · rw [directoryMeets_decision hs, directoryDecision_miss (hpass.trans hp) (hmode.trans hm) (hway.trans hf) (hvictim.trans hv)] at hexec
    have hfree : t.freeTag = s.freeTag := by obtain ⟨links, tills, rfl⟩ := hr.frame; rfl
    rw [hfree] at hexec
    refine ⟨fun tag htag => ?_, fun hfull => ?_⟩
    · rw [State.freeTag_of_lowest htag] at hexec
      exact hr.issues hset (State.victim_lt hset hv) hf (by rw [hm]; rfl) hexec
    · rw [State.freeTag_none hfull] at hexec
      exact hr.declines hfresh hexec
  · have hrefers : directoryMeets l (s.askEntry m n b) b card t = refer l (s.askEntry m n b) t := by
      rw [directoryMeets_decision hs]
      refine directoryDecision_refers ?_
      rw [hpass, hmode, hway, hvictim]
      exact h.imp_right (Or.imp_right (Or.imp_right (And.imp_right (Or.imp_right (And.imp_left (fun k => hasks.unheld k))))))
    exact hr.refers hfresh (hrefers ▸ hexec)
  · obtain ⟨x, rfl, hx⟩ := hs
    obtain ⟨no, r, stay, hf⟩ := hf
    obtain rfl := hasks.entry_card
    rw [directoryMeets_standIn hx, standInReverse_shut (hmode ▸ hm) (hway.trans hf)] at hexec
    exact hr.refers hfresh hexec
  · obtain ⟨no, r, stay, hf⟩ := hf
    have hdecline : directoryMeets l (s.askEntry m n b) b card t = decline l (s.askEntry m n b) .unavailable none t := by
      by_cases hs : ∃ x, b = .entry x ∧ x.kind = .standIn
      · obtain ⟨x, rfl, hx⟩ := hs
        obtain rfl := hasks.entry_card
        rw [directoryMeets_standIn hx, standInReverse_flushing_valid (hmode ▸ hm) (hway.trans hf)]
      · rw [directoryMeets_decision hs,
          directoryDecision_flushing_valid (hpass.trans (hd.resolve_left hs)) (hmode ▸ hm) (hway.trans hf)]
    exact hr.declines hfresh (hdecline ▸ hexec)
  · have hjoin : directoryMeets l (s.askEntry m n b) b card t = joinWaitList l (s.askEntry m n b) card t := by
      by_cases hs : ∃ x, b = .entry x ∧ x.kind = .standIn
      · obtain ⟨x, rfl, hx⟩ := hs
        obtain rfl := hasks.entry_card
        rw [directoryMeets_standIn hx, standInReverse_reserved rfl (hway.trans hf)]
      · obtain ⟨hp, hm⟩ := hd.resolve_left hs
        rw [directoryMeets_decision hs]
        refine directoryDecision_reserved (hpass.trans hp) ?_ (hway.trans hf)
        rw [hmode]
        exact hm.imp_right (Or.imp_right (And.imp_right (fun k => hasks.unheld k)))
    exact hr.joins hfresh hx hk hc hone (hjoin ▸ hexec)

end Sys2Proof.Machine
end

section
/-! The steady changes: those that leave the layout alone, keep every sparse table canonical and raise no exposure past the stand-in limit
of a program. -/

namespace Sys2Proof.Machine

/-! ### The pieces of the layout, and the tables of the part -/

/-- What the commands of the service link lay out: the limits, the programs, the pass-through ranges, the sites and the slices. -/
abbrev Piece.ofLayout : List Piece := [.limits, .programs, .passRanges, .siteIds, .slices]

/-- The pieces that are neither of the layout nor a sparse table. -/
abbrev Piece.untabled : List Piece :=
  [.pending, .part, .clock, .events, .counters, .out, .dirMode, .fault, .holds, .notes, .renoted, .journal, .nextStay, .nextHold,
   .nextEntry, .nextSlot, .sentToHost]

theorem Piece.not_untabled_of_layout : ∀ p ∈ Piece.ofLayout, p ∉ Piece.untabled := by decide

/-- A piece that is a sparse table is in its canonical form. -/
def Piece.canonical (s : State) : Piece → Prop
  | .programs => s.programs.wf Program.default = true
  | .passRanges => s.passRanges.wf ⟨0, 0⟩ = true
  | .dir => s.dir.wf DirSet.default = true
  | .generations => s.generations.wf 0 = true
  | .requests => s.requests.wf none = true
  | .exposures => s.exposures.wf Exposure.none = true
  | .siteIds => s.siteIds.wf 0 = true
  | .siteHolds => s.siteHolds.wf 0 = true
  | .slices => s.slices.wf none = true
  | .tills => s.tills.wf Till.default = true
  | .links => s.links.wf Link.default = true
  | _ => True

theorem tablesCanonical_iff (s : State) : TablesCanonical s ↔ ∀ p : Piece, p.canonical s := by
  refine ⟨fun ⟨programs, passRanges, dir, generations, requests, exposures, siteIds, siteHolds, slices, tills, links⟩ p => ?_, fun h =>
    ⟨h .programs, h .passRanges, h .dir, h .generations, h .requests, h .exposures, h .siteIds, h .siteHolds, h .slices, h .tills,
     h .links⟩⟩
  cases p <;> trivial

theorem Piece.canonical_of_same {s t : State} {p : Piece} (h : p.same s t) (hs : p.canonical s) : p.canonical t := by
  cases p <;> first | exact (congrArg (Table.wf _) h).trans hs | trivial

theorem Piece.canonical_of_untabled (s : State) {p : Piece} (h : p ∈ Piece.untabled) : p.canonical s := by
  cases p <;> first | exact absurd h (by decide) | trivial

/-! ### Steady changes -/

structure Steady (s t : State) : Prop where
  layout : ∀ p ∈ Piece.ofLayout, p.same s t
  canonical : ∀ p : Piece, p.canonical s → p.canonical t
  exposures : ProgramsInOrder s → ExposuresBounded s → ExposuresBounded t

theorem State.program_congr {s t : State} (h : t.programs = s.programs) (n : Nat) : t.program n = s.program n := by
  unfold State.program; rw [h]

theorem State.exposure_congr {s t : State} (h : t.exposures = s.exposures) (card : Nat) : t.exposure card = s.exposure card := by
  unfold State.exposure; rw [h]

theorem ProgramsInOrder.congr {s t : State} (hs : ProgramsInOrder s) (h : t.programs = s.programs) : ProgramsInOrder t :=
  fun n => State.program_congr h n ▸ hs n

theorem Steady.programs {s t : State} (h : Steady s t) : t.programs = s.programs := h.layout .programs (by decide)
theorem Steady.program {s t : State} (h : Steady s t) (n : Nat) : t.program n = s.program n := State.program_congr h.programs n

theorem Steady.refl (s : State) : Steady s s := ⟨fun p _ => p.same_refl s, fun _ h => h, fun _ h => h⟩

theorem Steady.trans {s t u : State} (h : Steady s t) (k : Steady t u) : Steady s u where
  layout p hp := Piece.same_trans (h.layout p hp) (k.layout p hp)
  canonical p hp := k.canonical p (h.canonical p hp)
  exposures hp hs := k.exposures (hp.congr h.programs) (h.exposures hp hs)

theorem Steady.foldl {α : Type} {f : State → α → State} (h : ∀ s x, Steady s (f s x)) :
    ∀ (xs : List α) (s : State), Steady s (xs.foldl f s)
  | [], s => Steady.refl s
  | x :: xs, s => (h s x).trans (Steady.foldl h xs (f s x))

theorem Only.canonical {may : List Piece} {s t : State} (h : Only may s t) (hc : ∀ p ∈ may, p.canonical s → p.canonical t) (p : Piece)
    (hs : p.canonical s) : p.canonical t := by
  by_cases hp : p ∈ may
  · exact hc p hp hs
  · exact Piece.canonical_of_same (h p hp) hs

/-- A change whose frame holds nothing of the layout, with what it must show of the pieces that it writes and of the exposures. -/
theorem Only.steady_of {may : List Piece} {s t : State} (h : Only may s t) (hl : ∀ p ∈ Piece.ofLayout, p ∉ may)
    (hc : ∀ p ∈ may, p.canonical s → p.canonical t) (he : ProgramsInOrder s → ExposuresBounded s → ExposuresBounded t) : Steady s t where
  layout p hp := h p (hl p hp)
  canonical := h.canonical hc
  exposures := he

/-- A change outside the layout and the tables. -/
theorem Only.steady {may : List Piece} {s t : State} (h : Only may s t) (hm : ∀ p ∈ may, p ∈ Piece.untabled) : Steady s t :=
  h.steady_of (fun p hp hmay => Piece.not_untabled_of_layout p hp (hm p hmay)) (fun _ hp _ => Piece.canonical_of_untabled t (hm _ hp))
    (fun _ hs card => State.exposure_congr (h.exposures (fun hp => absurd (hm _ hp) (by decide))) card ▸ hs card)

/-- A change of tables other than the exposures, which shows that it keeps the canonical form of those it writes. -/
theorem Only.steady_tables {may : List Piece} {s t : State} (h : Only may s t) (hc : ∀ p ∈ may, p.canonical s → p.canonical t)
    (hm : ∀ p ∈ Piece.exposures :: Piece.ofLayout, p ∉ may) : Steady s t :=
  h.steady_of (fun p hp => hm p (List.mem_cons_of_mem _ hp)) hc
    (fun _ hs card => State.exposure_congr (h.exposures (hm _ List.mem_cons_self)) card ▸ hs card)

/-! ### The single updates -/

section
variable {s : State} {l : Nat}

theorem setLink_steady {x : Link} : Steady s (s.setLink l x) :=
  (s.setLink_only l x).steady_tables (List.forall_mem_singleton.2 (Table.wf_set _ _ _)) (by decide)

theorem setTill_steady {n : Nat} {x : Till} : Steady s (s.setTill n x) :=
  (s.setTill_only n x).steady_tables (List.forall_mem_singleton.2 (Table.wf_set _ _ _)) (by decide)

theorem setDirSet_steady {n : Nat} {x : DirSet} : Steady s (s.setDirSet n x) :=
  (s.setDirSet_only n x).steady_tables (List.forall_mem_singleton.2 (Table.wf_set _ _ _)) (by decide)

theorem setRequest_steady {tag : Nat} {x : Option HostEntry} : Steady s (s.setRequest tag x) :=
  (s.setRequest_only tag x).steady_tables (List.forall_mem_singleton.2 (Table.wf_set _ _ _)) (by decide)

theorem bumpGeneration_steady {tag : Nat} : Steady s (s.bumpGeneration tag) :=
  (s.bumpGeneration_only tag).steady_tables (List.forall_mem_singleton.2 (Table.wf_set _ _ _)) (by decide)

theorem countSite_steady {site : Nat} {f : Nat → Nat} : Steady s (s.countSite site f) :=
  (s.countSite_only site f).steady_tables (List.forall_mem_singleton.2 (Table.wf_set _ _ _)) (by decide)

theorem setExposure_steady {card : Nat} {x : Exposure} (h : ProgramsInOrder s → ExposuresBounded s → x.amount ≤ 50000) :
    Steady s (s.setExposure card x) :=
  (s.setExposure_only card x).steady_of (by decide) (List.forall_mem_singleton.2 (Table.wf_set _ _ _)) (fun hp hs c => by
    rw [State.setExposure_exposure]; split
    · exact h hp hs
    · exact hs c)

theorem modEntry_steady {slot : Nat} {f : ReplyEntry → ReplyEntry} : Steady s (s.modEntry l slot f) := setLink_steady
theorem dropEntry_steady {slot : Nat} : Steady s (s.dropEntry l slot) := setLink_steady
theorem finish_steady {slot : Nat} {st : ReplyState} : Steady s (s.finish l slot st) := setLink_steady
theorem transmit_steady {m : SiteOut} : Steady s (s.transmit l m) := setLink_steady
theorem closeSession_steady {st : LinkState} : Steady s (s.closeSession l st) := setLink_steady
theorem badFrame_steady : Steady s (s.badFrame l) := setLink_steady
theorem dropInbound_steady : Steady s (s.dropInbound l) := setLink_steady
theorem reload_steady : Steady s (s.reload l) := setLink_steady
theorem dropWay_steady {set no : Nat} : Steady s (s.dropWay set no) := setDirSet_steady
theorem setMark_steady {till id : Nat} {b : Bool} : Steady s (s.setMark till id b) := setTill_steady

theorem install_steady {no : Nat} {d : CardData} : Steady s (s.install no d) :=
  Steady.trans setDirSet_steady (Only.steady (may := [.nextStay])
    (fun p hp => by cases p <;> first | exact absurd (by decide) hp | rfl) (by decide))

theorem take_steady {e : ReplyEntry} {rest : List TillMsg} : Steady s (s.take l e rest) :=
  Steady.trans setLink_steady (Only.steady (may := [.nextSlot])
    (fun p hp => by cases p <;> first | exact absurd (by decide) hp | rfl) (by decide))

theorem freeHold_steady {h : Hold} : Steady s (s.freeHold h) :=
  (s.freeHold_only h).steady_tables (List.forall_mem_cons.2 ⟨fun _ => trivial, List.forall_mem_singleton.2 (Table.wf_set _ _ _)⟩)
    (by decide)

theorem makeEntry_steady {tag timer : Nat} {kind : HostKind} : Steady s (s.makeEntry tag timer kind) :=
  Steady.trans bumpGeneration_steady setRequest_steady

theorem endFetch_steady {tag : Nat} {f : Fetch} : Steady s (s.endFetch tag f) := Steady.trans setRequest_steady dropWay_steady

theorem inFallOrder_steady {t : State} : Steady s (t.inFallOrder s) := Steady.foldl (fun _ _ => setDirSet_steady) _ s

/-! A change of every entry of a table. -/

theorem openReplies_steady {sequence : Nat} : Steady s (s.openReplies sequence) :=
  (s.openReplies_only sequence).steady_tables (List.forall_mem_singleton.2 (Table.wf_mapEntries _ _)) (by decide)

theorem countDown_steady {n : Nat} : Steady s (s.countDown n) :=
  (s.countDown_only n).steady_tables
    (List.forall_mem_cons.2 ⟨Table.wf_mapEntries _ _, List.forall_mem_singleton.2 (Table.wf_mapEntries _ _)⟩) (by decide)

theorem rollover_steady {b : Bool} : Steady s (s.rollover b) :=
  (s.rollover_only b).steady_of (by decide)
    (List.forall_mem_cons.2 ⟨Table.wf_mapEntries _ _, List.forall_mem_cons.2 ⟨fun _ => Table.wf_empty _, by simp [Piece.canonical]⟩⟩)
    (fun _ _ _ => Nat.zero_le _)

theorem clearEngine_steady : Steady s s.clearEngine :=
  s.clearEngine_only.steady_tables (by
    simp only [List.forall_mem_cons, Piece.canonical, State.clearEngine]
    exact ⟨id, id, id, fun _ => Table.wf_empty _, id, id, id, fun _ => Table.wf_empty _, fun _ => Table.wf_empty _, id,
      Table.wf_mapEntries _ _, Table.wf_mapEntries _ _, List.forall_mem_nil _⟩) (by decide)

end

end Sys2Proof.Machine
end

section
/-! The operations over the directory, the journal, the holds, the undos and the deliveries make steady changes. -/

namespace Sys2Proof.Machine

variable {s : State} {l card : Nat} {e : ReplyEntry}

/-! ### The directory and the journal -/

theorem writeRecord_steady {f : CardRecord → CardRecord} : Steady s (s.writeRecord card f) := by
  unfold State.writeRecord; split
  · exact setDirSet_steady
  · exact Steady.refl s

theorem writeData_steady {f : CardData → CardData} : Steady s (s.writeData card f) := writeRecord_steady

theorem writeUnposted_steady {f : Nat → Nat} : Steady s (s.writeUnposted card f) := writeRecord_steady

theorem touch_steady : Steady s (s.touch card) := by
  unfold State.touch; split
  · exact setDirSet_steady
  · exact Steady.refl s

theorem raise_steady {ev : Event} {d : NoticeData} : Steady s (s.raise ev d) := (s.raise_only ev d).steady (by decide)

theorem queue_steady {m : HostMsg} : Steady s (s.queue m) := (s.queue_only m).steady (by decide)

theorem checkFault_steady {no : Nat} : Steady s (s.checkFault card no) :=
  (s.checkFault_only card no).steady_tables
    (List.forall_mem_cons.2 ⟨Table.wf_set _ _ _, fun p hp _ => Piece.canonical_of_untabled _
      ((by decide : ∀ q ∈ [Piece.fault, .counters, .events, .out], q ∈ Piece.untabled) p hp)⟩) (by decide)

theorem readRecord_steady : Steady s (s.readRecord card).1 := by
  unfold State.readRecord; split
  · split
    · exact Steady.refl s
    · exact checkFault_steady
  · exact Steady.refl s

theorem readRecord_steady_of_eq {t : State} {x : Option (CardRecord × Nat)} (h : s.readRecord card = (t, x)) : Steady s t := by
  have := readRecord_steady (s := s) (card := card)
  rwa [h] at this

theorem regate_steady : Steady s (s.regate card) := by
  unfold State.regate; split
  · split
    · exact Steady.trans bumpGeneration_steady setRequest_steady
    · exact Steady.refl s
  · exact Steady.refl s

theorem countUnposted_steady : Steady s (s.countUnposted card) := by
  unfold State.countUnposted; split
  · exact (readRecord_steady_of_eq ‹_›).trans writeUnposted_steady
  · exact readRecord_steady_of_eq ‹_›

theorem joinRecord_steady {d : Draft} : Steady s (s.joinRecord d) :=
  (((((s.appendRecord_only _).steady (by decide)).trans countUnposted_steady).trans regate_steady).trans queue_steady).trans
    ((State.warnHigh_only _).steady (by decide))

theorem joinUndoable_steady {d : Draft} : Steady s (joinUndoable d s) := (s.reserveSlot_only.steady (by decide)).trans joinRecord_steady

theorem settle_steady : Steady s s.settle := s.settle_only.steady (by decide)

/-! ### Holds -/

theorem forfeitTest_steady : Steady s (s.forfeitTest card) := by
  unfold State.forfeitTest; split
  · exact readRecord_steady_of_eq ‹_›
  · refine (readRecord_steady_of_eq ‹_›).trans ?_
    dsimp only; split
    · exact Steady.trans writeData_steady joinRecord_steady
    · exact Steady.refl _

theorem expireHold_steady {h : Hold} : Steady s (s.expireHold h) :=
  (Steady.trans freeHold_steady ((withNotes_only (s.freeHold h) _).steady (by decide))).trans forfeitTest_steady

theorem expireIfDue_steady {id : Nat} : Steady s (s.expireIfDue id) := by
  unfold State.expireIfDue; split
  · split
    · exact expireHold_steady
    · exact Steady.refl s
  · exact Steady.refl s

/-! ### Replies -/

theorem clearMark_steady : Steady s (s.clearMark e) := by
  unfold State.clearMark; split
  · exact setMark_steady
  · exact Steady.refl s

theorem decline_steady {r : Reason} {free : Option Nat} : Steady s (decline l e r free s) := Steady.trans clearMark_steady finish_steady

theorem unexpected_steady : Steady s (unexpected l e s) := decline_steady

theorem declineField_steady {b : Bool} {r : Reason} : Steady s (declineField l e b r s) := finish_steady

theorem ready_steady {reply : TillReply} {u : Option UndoRecord} : Steady s (ready l e reply u s) := finish_steady

theorem gate_steady {p : Option Program} {reply : TillReply} {u : UndoRecord} {n : Nat} : Steady s (gate l e p reply u n s) := finish_steady

/-! ### Undos and the emptying of a link -/

/-- A lower exposure of a card is no higher than the one that stood within the bound. -/
theorem lowerExposure_bounded {x n : Nat} (h : ExposuresBounded s) (hx : x = (s.exposure card).amount - n) : x ≤ 50000 :=
  hx ▸ (Nat.sub_le _ _).trans (h card)

theorem unexpose_steady {x date : Nat} : Steady s (s.unexpose card x date) := by
  unfold State.unexpose; split
  · dsimp only; split
    · exact Steady.refl s
    · exact setExposure_steady (fun _ hs => lowerExposure_bounded hs rfl)
  · exact Steady.refl s

theorem undoPurses_steady {u : UndoRecord} : Steady s (s.undoPurses u).1 := by
  unfold State.undoPurses; split
  · exact readRecord_steady_of_eq ‹_›
  · refine (readRecord_steady_of_eq ‹_›).trans ?_
    split
    · exact writeData_steady
    · dsimp only; exact writeData_steady

theorem undoHold_steady {u : UndoRecord} {id : Nat} : Steady s (s.undoHold u id) := by
  unfold State.undoHold; dsimp only
  split
  · exact (Steady.trans freeHold_steady undoPurses_steady).trans forfeitTest_steady
  · exact Steady.trans undoPurses_steady forfeitTest_steady

theorem undoBeside_steady {u : UndoRecord} : Steady s (s.undoBeside u) := by
  unfold State.undoBeside; split
  · exact (s.reopenHold_only _ _ _).steady (by decide)
  · exact unexpose_steady
  · exact Steady.refl s

theorem undoAfter_steady {u : UndoRecord} : Steady s (s.undoAfter u) := by
  unfold State.undoAfter; split
  · exact expireIfDue_steady
  · exact Steady.refl s

theorem undo_steady {u : UndoRecord} : Steady s (s.undo u) := by
  unfold State.undo; split
  · exact undoHold_steady
  · exact Steady.refl s
  · exact (((Steady.trans undoPurses_steady undoBeside_steady).trans ((State.releaseSlot_only _).steady (by decide))).trans
      joinRecord_steady).trans undoAfter_steady

theorem abandon_steady {slot : Nat} : Steady s (s.abandon l slot) := by
  refine Steady.foldl (fun t _ => ?_) _ s
  split
  · exact setRequest_steady
  · exact Steady.refl t

theorem endMark_steady : Steady s (s.endMark e) := by
  unfold State.endMark; split
  · exact Steady.refl s
  · exact clearMark_steady

theorem emptyEntry_steady {a : State × Emptied} : Steady a.1 (State.emptyEntry l e a).1 := by
  have h : Steady a.1 ((a.1.dropEntry l e.slot).endMark e) := Steady.trans dropEntry_steady endMark_steady
  unfold State.emptyEntry; dsimp only; split
  · exact h.trans abandon_steady
  · exact h.trans undo_steady
  · exact h.trans undo_steady
  · exact h.trans queue_steady
  · exact h

theorem emptied_steady : ∀ (es : List ReplyEntry) (a : State × Emptied), Steady a.1 (es.foldl (fun acc e => State.emptyEntry l e acc) a).1
  | [], a => Steady.refl a.1
  | _ :: es, _ => Steady.trans emptyEntry_steady (emptied_steady es _)

theorem emptyLink_steady {st : LinkState} {n : Emptied} : Steady s (s.emptyLink l st n).1 :=
  ((emptied_steady _ (s, n)).trans inFallOrder_steady).trans closeSession_steady

theorem loseLink_steady {b : Bool} : Steady s (s.loseLink l b) := Steady.trans emptyLink_steady raise_steady

theorem emptiedLinks_steady : ∀ (ls : List Nat) (a : State × Emptied),
    Steady a.1 (ls.foldl (fun acc l => State.emptyLink acc.1 l .disabled acc.2) a).1
  | [], a => Steady.refl a.1
  | _ :: ls, _ => Steady.trans emptyLink_steady (emptiedLinks_steady ls _)

/-! ### Delivery and the gate timeout -/

theorem credit_steady {stay : Option Nat} {b c : Nat} : Steady s (s.credit card stay b c) := by
  unfold State.credit; split
  · split
    · split
      · exact (readRecord_steady_of_eq ‹_›).trans writeData_steady
      · exact readRecord_steady_of_eq ‹_›
    · exact Steady.refl s
  · exact Steady.refl s

theorem confirm_steady {u : UndoRecord} : Steady s (s.confirm u) := by
  unfold State.confirm; split
  · exact Steady.refl s
  · exact Steady.refl s
  · exact ((s.modHold_only _ _).steady (by decide)).trans expireIfDue_steady
  · split
    · exact freeHold_steady
    · exact Steady.refl s
  · exact credit_steady
  · exact credit_steady

theorem lowerExposure_steady {reply : TillReply} : Steady s (s.lowerExposure e reply) := by
  unfold State.lowerExposure; split
  · split
    · dsimp only; split
      · exact Steady.refl s
      · exact setExposure_steady (fun _ hs => lowerExposure_bounded hs rfl)
    · exact Steady.refl s
  · exact Steady.refl s

theorem debitTill_steady {t : Nat} {reply : TillReply} {u : Option UndoRecord} : Steady s (s.debitTill t e reply u) := by
  unfold State.debitTill; dsimp only; split
  · exact setTill_steady
  · exact Steady.trans setTill_steady ((withNextEntry_only _ _).steady (by decide))

theorem creditTill_steady {t : Nat} {reply : TillReply} : Steady s (s.creditTill t e reply) := by
  unfold State.creditTill; dsimp only; split <;> exact setTill_steady

theorem atTill_steady {t : Nat} {reply : TillReply} {u : Option UndoRecord} : Steady s (s.atTill t e reply u) := by
  unfold State.atTill; split
  iterate 4 exact debitTill_steady
  iterate 2 exact creditTill_steady
  exact Steady.refl s

theorem deliver_steady {reply : TillReply} {u : Option UndoRecord} : Steady s (s.deliver l e reply u) := by
  have handed : Steady s ((s.transmit l (.tillReply reply)).dropEntry l e.slot) := Steady.trans transmit_steady dropEntry_steady
  have confirmed : ∀ x, Steady s ((((s.transmit l (.tillReply reply)).dropEntry l e.slot).confirm x).releaseOf x) := fun _ =>
    (handed.trans confirm_steady).trans ((State.releaseOf_only _ _).steady (by decide))
  unfold State.deliver
  cases u with
  | none =>
    dsimp only; split
    · exact (handed.trans lowerExposure_steady).trans atTill_steady
    · exact handed.trans lowerExposure_steady
  | some x =>
    dsimp only; split
    · exact ((confirmed x).trans lowerExposure_steady).trans atTill_steady
    · exact (confirmed x).trans lowerExposure_steady

theorem gateTimeout_steady {reply : TillReply} {u : UndoRecord} : Steady s (s.gateTimeout l e reply u) :=
  (Steady.trans undo_steady clearMark_steady).trans finish_steady

end Sys2Proof.Machine
end

section
/-! The evaluation of requests, the directory's decision, stand-in and the endings of fetches make steady changes. -/

namespace Sys2Proof.Machine

variable {s : State} {l card : Nat} {e : ReplyEntry}

/-! ### The evaluation of a request -/

theorem withRecord_steady {act : CardData → Nat → State → State} (h : ∀ d n t, Steady t (act d n t)) :
    Steady s (s.withRecord l e card act) := by
  unfold State.withRecord; dsimp only; split
  · exact Steady.trans forfeitTest_steady (h _ _ _)
  · exact Steady.trans forfeitTest_steady unexpected_steady

/-- R126: what an admitted request does is met in a part that the admission test has changed in its journal, events and messages alone. -/
theorem admitted_steady {free : Option Nat} {act : State → State} (h : ∀ t, Only [.journal, .events, .out] s t → Steady t (act t)) :
    Steady s (s.admitted l e free act) := by
  unfold State.admitted; split
  · next ht => exact ((State.admission_frame ht).steady (by decide)).trans (h _ (State.admission_frame ht))
  · next ht => exact ((State.admission_frame ht).steady (by decide)).trans decline_steady

theorem underProgram_steady {act : Program → State} (h : ∀ n, Steady s (act (s.program n))) : Steady s (s.underProgram l e card act) := by
  unfold State.underProgram; split
  · exact decline_steady
  · next hp =>
    obtain ⟨n, -, rfl⟩ := Option.map_eq_some_iff.1 hp
    exact h n

section
variable {p : Program} {q : Option Program} {d : CardData} {stay site id : Nat} {x : StackEntry}

theorem evalEnquiry_steady : Steady s (evalEnquiry l e d s) := by
  unfold evalEnquiry; split
  · exact decline_steady
  · exact ready_steady

theorem applyRedeem_steady {x : Debit} : Steady s (applyRedeem l e p d stay x s) := by
  unfold applyRedeem; dsimp only
  exact (Steady.trans writeData_steady joinUndoable_steady).trans gate_steady

theorem evalRedeem_steady : Steady s (evalRedeem l e p d stay s) := by
  unfold evalRedeem; dsimp only; split
  · exact decline_steady
  · split
    · exact decline_steady
    · split
      · exact decline_steady
      · exact admitted_steady (fun _ _ => applyRedeem_steady)

theorem applyReload_steady : Steady s (applyReload l e p d stay s) := by
  unfold applyReload; dsimp only
  exact Steady.trans joinUndoable_steady gate_steady

theorem evalReload_steady : Steady s (evalReload l e p d stay s) := by
  unfold evalReload; dsimp only; split
  · exact decline_steady
  · split
    · exact decline_steady
    · exact admitted_steady (fun _ _ => applyReload_steady)

theorem applyReverse_steady : Steady s (applyReverse l e q x d stay s) := by
  unfold applyReverse; dsimp only
  exact Steady.trans joinUndoable_steady gate_steady

theorem evalReverse_steady : Steady s (evalReverse l e q x d stay s) := by
  unfold evalReverse; dsimp only; split
  · exact decline_steady
  · exact admitted_steady (fun _ _ => applyReverse_steady)

theorem applyHold_steady {x : Debit} : Steady s (applyHold l e p site d stay x s) :=
  (((((s.dropNotes_only _ _).steady (by decide)).trans ((withHolds_only _ _ _).steady (by decide))).trans countSite_steady).trans
    writeData_steady).trans ready_steady

theorem evalHold_steady : Steady s (evalHold l e p site d stay s) := by
  unfold evalHold; dsimp only; split
  · exact decline_steady
  · split
    · exact decline_steady
    · split
      · exact decline_steady
      · split
        · exact decline_steady
        · split
          · exact decline_steady
          · exact admitted_steady (fun _ _ => applyHold_steady)

theorem applyComplete_steady {h : Hold} {x : Capture} : Steady s (applyComplete l e q h d stay x s) :=
  ((Steady.trans writeData_steady ((State.modHold_only _ _ _).steady (by decide))).trans joinUndoable_steady).trans gate_steady

theorem evalComplete_steady : Steady s (evalComplete l e q id d stay s) := by
  unfold evalComplete; dsimp only; split
  · exact decline_steady
  · exact decline_steady
  · split
    · exact decline_steady
    · exact admitted_steady (fun _ _ => applyComplete_steady)

theorem evalRelease_steady : Steady s (evalRelease l e id d s) := by
  unfold evalRelease; dsimp only; split
  · exact decline_steady
  · exact decline_steady
  · exact (Steady.trans freeHold_steady forfeitTest_steady).trans ready_steady

end

theorem evaluate_steady : Steady s (evaluate l e card s) := by
  refine (touch_steady (card := card)).trans ?_
  unfold evaluate; dsimp only; split
  · exact underProgram_steady (fun _ => withRecord_steady (fun _ _ _ => evalEnquiry_steady))
  · exact underProgram_steady (fun _ => withRecord_steady (fun _ _ _ => evalRedeem_steady))
  · split
    · exact underProgram_steady (fun _ => withRecord_steady (fun _ _ _ => evalHold_steady))
    · exact unexpected_steady
  · exact underProgram_steady (fun _ => withRecord_steady (fun _ _ _ => evalReload_steady))
  · split
    · exact withRecord_steady (fun _ _ _ => evalComplete_steady)
    · exact unexpected_steady
  · split
    · exact withRecord_steady (fun _ _ _ => evalRelease_steady)
    · exact unexpected_steady
  · split
    · exact withRecord_steady (fun _ _ _ => evalReverse_steady)
    · exact unexpected_steady
  · exact unexpected_steady
  · exact unexpected_steady
  · exact unexpected_steady

/-! ### The directory's decision -/

theorem refer_steady : Steady s (refer l e s) := by
  unfold refer; split
  · exact decline_steady
  · exact Steady.trans makeEntry_steady queue_steady

theorem issueFetch_steady {no tag : Nat} : Steady s (issueFetch l e card no tag s) := by
  unfold issueFetch; dsimp only; split
  · exact (Steady.trans setDirSet_steady makeEntry_steady).trans queue_steady
  · exact Steady.trans setDirSet_steady makeEntry_steady

theorem joinWaitList_steady : Steady s (joinWaitList l e card s) := by
  unfold joinWaitList; split
  · split
    · exact setRequest_steady
    · exact decline_steady
  · exact unexpected_steady

theorem releaseWithoutCard_steady {id : Nat} : Steady s (releaseWithoutCard l e id s) := by
  unfold releaseWithoutCard; split
  · exact decline_steady
  · exact decline_steady
  · exact Steady.trans freeHold_steady ready_steady

theorem missUnfetched_steady : Steady s (missUnfetched l e s) := by
  unfold missUnfetched; split
  · exact releaseWithoutCard_steady
  · exact decline_steady
  · exact refer_steady

theorem miss_steady : Steady s (miss l e card s) := by
  unfold miss; split
  · unfold missNormal; split
    · exact missUnfetched_steady
    · split
      · exact decline_steady
      · exact issueFetch_steady
  · exact missUnfetched_steady

theorem meetReserved_steady : Steady s (meetReserved l e card s) := by
  unfold meetReserved; split
  · exact missUnfetched_steady
  · exact joinWaitList_steady

theorem lookup_steady {onMiss : State → State} (h : ∀ t, Steady t (onMiss t)) : Steady s (lookup l e card onMiss s) := by
  unfold lookup; split
  · exact h s
  · split
    · split
      · exact (readRecord_steady_of_eq ‹_›).trans evaluate_steady
      · exact (readRecord_steady_of_eq ‹_›).trans (h _)
    · exact meetReserved_steady
    · exact h s

theorem flushingDecision_steady {onMiss : State → State} (h : ∀ t, Steady t (onMiss t)) : Steady s (flushingDecision l e card onMiss s) := by
  unfold flushingDecision; split
  · exact h s
  · split
    · exact decline_steady
    · exact joinWaitList_steady
    · exact h s

theorem directoryDecision_steady : Steady s (directoryDecision l e card s) := by
  unfold directoryDecision; split
  · exact refer_steady
  · split
    · exact refer_steady
    · exact refer_steady
    · exact flushingDecision_steady (fun _ => refer_steady)
    · exact lookup_steady (fun _ => miss_steady)
    · exact lookup_steady (fun _ => miss_steady)

theorem journalOnly_steady {x : StackEntry} : Steady s (journalOnly l e x s) :=
  admitted_steady (fun _ _ => Steady.trans joinUndoable_steady gate_steady)

theorem standInReverse_steady {x : StackEntry} : Steady s (standInReverse l e x s) := by
  unfold standInReverse; split
  · exact lookup_steady (fun _ => journalOnly_steady)
  · exact lookup_steady (fun _ => journalOnly_steady)
  · exact flushingDecision_steady (fun _ => journalOnly_steady)
  iterate 2
    split
    · exact refer_steady
    · exact joinWaitList_steady
    · exact journalOnly_steady

/-! ### Stand-in (R59, R60) -/

/-- R59: a stand-in amount fits the room that the limit leaves above the exposure. -/
theorem standInFor_fits {amount limit exposure x : Nat} {b partly : Bool} (h : standInFor amount limit exposure b = some (x, partly)) :
    exposure + x ≤ limit := by
  unfold standInFor at h; split at h
  · cases h
  · split at h
    · obtain ⟨rfl, -⟩ := Prod.mk.inj (Option.some.inj h); omega
    · split at h
      · obtain ⟨rfl, -⟩ := Prod.mk.inj (Option.some.inj h); omega
      · cases h

theorem ProgramsInOrder.standInLimit_le (h : ProgramsInOrder s) (n : Nat) : (s.program n).limits.standInLimit ≤ 50000 := by
  obtain ⟨⟨-, -, -, -, -, -, -, hlimit⟩, -⟩ := h n
  exact hlimit

theorem applyStandIn_steady {p : Program} {x : Nat} {partly : Bool} (h : ProgramsInOrder s → (s.exposure card).amount + x ≤ 50000) :
    Steady s (applyStandIn l e p card x partly s) := by
  unfold applyStandIn; dsimp only
  exact (((setExposure_steady (fun hp _ => h hp)).trans joinUndoable_steady).trans
    ((countersThenRaise_only _ _ _ _).steady (by decide))).trans gate_steady

theorem standInDecision_steady : Steady s (standInDecision l e card s) := by
  refine underProgram_steady (fun n => ?_)
  split
  · exact decline_steady
  · next hfor =>
    split
    · exact decline_steady
    · refine admitted_steady (fun t ht => applyStandIn_steady (fun hp => ?_))
      rw [State.exposure_congr ht.exposures]
      exact (standInFor_fits hfor).trans ((hp.congr ht.programs.symm).standInLimit_le n)

/-! ### The endings of a fetch and of a referral -/

theorem serveWaiters_steady {ws : List Waiter} {act : Nat → ReplyEntry → State → State} (h : ∀ l e t, Steady t (act l e t)) :
    Steady s (s.serveWaiters ws act) := by
  refine Steady.foldl (fun t w => ?_) _ s
  split
  · exact h _ _ _
  · exact Steady.refl t

theorem recheckReverse_steady {x : StackEntry} {act : State → State} (h : Steady s (act s)) : Steady s (recheckReverse l e x act s) := by
  unfold recheckReverse; split
  · exact h
  · exact decline_steady
  · exact decline_steady

theorem serveInstalled_steady : Steady s (serveInstalled card l e s) := by
  unfold serveInstalled; split
  · exact recheckReverse_steady evaluate_steady
  · exact evaluate_steady

theorem serveUnknown_steady : Steady s (serveUnknown l e s) := by
  unfold serveUnknown; split
  · exact releaseWithoutCard_steady
  · exact decline_steady

theorem serveTimedOut_steady : Steady s (serveTimedOut card l e s) := by
  unfold serveTimedOut; split
  · exact standInDecision_steady
  · split
    · exact recheckReverse_steady journalOnly_steady
    · exact decline_steady
  · exact releaseWithoutCard_steady
  · exact decline_steady

theorem serveFlushed_steady : Steady s (serveFlushed l e s) := by
  unfold serveFlushed; split
  · split
    · exact recheckReverse_steady journalOnly_steady
    · exact refer_steady
  · exact refer_steady

section
variable {tag gen : Nat} {f : Fetch} {r : Referral}

theorem fetchInstalled_steady {d : CardData} : Steady s (fetchInstalled tag f d s) :=
  (Steady.trans setRequest_steady install_steady).trans (serveWaiters_steady (fun _ _ _ => serveInstalled_steady))

theorem fetchUnknown_steady : Steady s (fetchUnknown tag f s) := Steady.trans endFetch_steady (serveWaiters_steady (fun _ _ _ => by
  split
  · exact serveFlushed_steady
  · exact serveUnknown_steady))

theorem fetchFlushed_steady : Steady s (fetchFlushed tag f s) :=
  Steady.trans endFetch_steady (serveWaiters_steady (fun _ _ _ => serveFlushed_steady))

theorem fetchTimedOut_steady : Steady s (fetchTimedOut tag f s) :=
  (Steady.trans endFetch_steady raise_steady).trans (serveWaiters_steady (fun _ _ _ => by
    split
    · exact serveFlushed_steady
    · exact serveTimedOut_steady))

theorem referralTimedOut_steady : Steady s (referralTimedOut tag r s) := by
  unfold referralTimedOut; dsimp only; split
  · exact Steady.trans setRequest_steady raise_steady
  · split
    · exact (Steady.trans setRequest_steady raise_steady).trans decline_steady
    · exact Steady.trans setRequest_steady raise_steady

theorem hostTimeout_steady {x : HostEntry} : Steady s (hostTimeout tag x s) := by
  unfold hostTimeout; split
  · exact fetchTimedOut_steady
  · exact referralTimedOut_steady

/-! ### The host's answers -/

theorem warm_steady {m : TillMsg} {b : Binding} {w : Option CardWire} : Steady s (s.warm m b w) := by
  unfold State.warm; split
  · split
    · unfold State.warmRecord; split
      · exact Steady.refl s
      · split
        · exact install_steady
        · exact Steady.refl s
    · exact Steady.refl s
  · exact Steady.refl s

theorem relay_steady {reply : TillReply} : Steady s (s.relay r reply tag gen) := by
  unfold State.relay; split
  · split
    · exact Steady.trans clearMark_steady finish_steady
    · exact finish_steady
  · exact Steady.refl s

theorem takeReferralAnswer_steady {kind : HostKind} {x : ReferralFields} : Steady s (takeReferralAnswer tag gen kind x s) := by
  unfold takeReferralAnswer; split
  · exact queue_steady
  · split
    · exact queue_steady
    · dsimp only; split
      · exact Steady.trans setRequest_steady queue_steady
      · exact (Steady.trans setRequest_steady relay_steady).trans warm_steady

theorem takeCardData_steady {kind : HostKind} {w : CardWire} : Steady s (takeCardData tag gen kind w s) := by
  unfold takeCardData; split
  · exact queue_steady
  · split
    · exact queue_steady
    · split
      · exact fetchFlushed_steady
      · exact fetchInstalled_steady

theorem takeNoSuchCard_steady {kind : HostKind} {x : Unit} : Steady s (takeNoSuchCard tag gen kind x s) := by
  unfold takeNoSuchCard; split
  · exact queue_steady
  · exact fetchUnknown_steady

end

theorem hostAnswer_steady {α : Type} {kind : Word16} {f : AnswerFrame α} {act : Nat → Nat → HostKind → α → State → State}
    (h : ∀ tag gen k y, Steady s (act tag gen k y s)) : Steady s (hostAnswer kind f s act) := by
  unfold hostAnswer; split
  · exact Steady.refl s
  · exact queue_steady
  · split
    · exact (s.lateAnswer_only _ _ _).steady (by decide)
    · split
      · split
        · exact (h _ _ _ _).trans settle_steady
        · exact (s.lateAnswer_only _ _ _).steady (by decide)
      · exact (h _ _ _ _).trans settle_steady

/-! ### POSTED -/

theorem uncountUnposted_steady : Steady s (s.uncountUnposted card) := by
  unfold State.uncountUnposted; split
  · split
    · dsimp only; split
      · exact Steady.trans writeUnposted_steady dropWay_steady
      · exact writeUnposted_steady
    · exact checkFault_steady
  · exact Steady.refl s

theorem openFetchGate_steady {removed : List JournalRecord} {tag : Nat} : Steady s (State.openFetchGate removed s tag) := by
  unfold State.openFetchGate; split
  · split
    · exact Steady.trans setRequest_steady queue_steady
    · exact Steady.refl s
  · exact Steady.refl s

theorem post_steady {n : Nat} {removed left : List JournalRecord} : Steady s (s.post n removed left) :=
  (((((withJournal_only s _).steady (by decide)).trans
    (Steady.foldl (fun _ _ => Steady.trans uncountUnposted_steady openReplies_steady) removed _)).trans inFallOrder_steady).trans
    (Steady.foldl (fun _ _ => openFetchGate_steady) _ _)).trans ((State.rearm_only _).steady (by decide))

theorem takePosted_steady {f : PostedFrame} : Steady s (takePosted f s) := by
  unfold takePosted; split
  · exact Steady.refl s
  · exact s.badPosted_only.steady (by decide)
  · split
    · exact Steady.trans post_steady settle_steady
    · exact s.badPosted_only.steady (by decide)

/-! ### The clock and the timers -/

theorem crossCutovers_steady : ∀ (n : Nat) (s : State), Steady s (State.crossCutovers n s)
  | 0, s => Steady.refl s
  | n + 1, s => (((s.setReading_only _).steady (by decide)).trans rollover_steady).trans (crossCutovers_steady n _)

theorem elapseTo_steady {r : Reading} : Steady s (s.elapseTo r) :=
  (Steady.trans countDown_steady (crossCutovers_steady _ _)).trans ((State.setReading_only _ r).steady (by decide))

theorem reachInstant_steady {h : Hold} : Steady s (s.reachInstant h) := by
  unfold State.reachInstant; split
  · exact (Steady.trans elapseTo_steady expireHold_steady).trans settle_steady
  · exact Steady.trans expireHold_steady settle_steady

theorem advanceTo_steady {r : Reading} : Steady s (s.advanceTo r) :=
  (Steady.foldl (fun _ _ => reachInstant_steady) _ s).trans elapseTo_steady

theorem elapse_steady {n : Nat} : Steady s (s.elapse n) := by
  unfold State.elapse; split
  · exact countDown_steady
  · exact Steady.trans advanceTo_steady countDown_steady

theorem moveClock_steady {c : Clock} : Steady s (moveClock c s).1 := by
  have taken : Steady s { s with clock := c } := (withClock_only s c).steady (by decide)
  have rolled : Steady s (if decide (s.date < c.businessDate) then ({ s with clock := c } : State).rollover true
      else { s with clock := c }) := by
    split
    · exact taken.trans rollover_steady
    · exact taken
  exact (rolled.trans (Steady.foldl (fun _ _ => expireHold_steady) _ _)).trans inFallOrder_steady

theorem fireTag_steady {tag : Nat} : Steady s (s.fireTag tag) := by
  unfold State.fireTag; split
  · split
    · exact hostTimeout_steady
    · exact Steady.refl s
  · exact Steady.refl s

theorem fireGates_steady : Steady s (s.fireGates l) := by
  refine Steady.foldl (fun t e => ?_) _ s
  split
  · exact gateTimeout_steady
  · exact Steady.refl t

theorem firePresence_steady : Steady s (s.firePresence l) := by
  unfold State.firePresence; split
  · exact loseLink_steady
  · exact Steady.refl s

theorem fireTimers_steady : Steady s s.fireTimers :=
  ((Steady.foldl (fun _ _ => fireTag_steady) _ s).trans (Steady.foldl (fun _ _ => fireGates_steady) _ _)).trans
    (Steady.foldl (fun _ _ => firePresence_steady) _ _)

theorem pass_steady {n : Nat} : Steady s (s.pass n) := (Steady.trans elapse_steady fireTimers_steady).trans settle_steady

theorem runFor_steady {r : Reading} : ∀ (n : Nat) (s : State), Steady s (State.runFor r n s)
  | 0, _ => advanceTo_steady
  | n + 1, _ => by
    unfold State.runFor; dsimp only; split
    · exact advanceTo_steady
    · exact Steady.trans pass_steady (runFor_steady n _)

theorem runUntil_steady {r : Reading} : Steady s (s.runUntil r) := runFor_steady _ s

end Sys2Proof.Machine
end

section
/-! The commands and events that make steady changes. -/

namespace Sys2Proof.Machine

variable {s : State} {l card : Nat} {e : ReplyEntry}

/-! ### The commands of the part and of the clock -/

theorem command_steady {α : Type} {kind : Word16} {f : HostFrame α} {act : α → State → Answer} (h : ∀ x, Steady s (act x s).1) :
    Steady s (command kind f s act) := by
  unfold command; split
  · exact Steady.refl s
  · exact queue_steady
  · exact queue_steady
  · exact (h _).trans queue_steady

theorem settled_steady {a : Answer} (h : Steady s a.1) : Steady s (settled a).1 := h.trans settle_steady

theorem done_steady {t : State} {d : ResultData} (h : Steady s t) : Steady s (done t d).1 := h

theorem engineReset_steady : Steady s (engineReset s).1 := by
  have h : Steady s s.emptyAllLinks.1 := by unfold State.emptyAllLinks; exact emptiedLinks_steady linkNumbers (s, Emptied.zero)
  unfold engineReset
  generalize s.emptyAllLinks = a at h
  exact h.trans clearEngine_steady

theorem withPart_steady {p : PartState} : Steady s { s with part := p } :=
  Only.steady (may := [.part]) (fun p hp => by cases p <;> first | exact absurd (by decide) hp | rfl) (by decide)

theorem startPart_steady : Steady s (startPart s).1 := by
  unfold startPart; split
  · exact Steady.refl s
  · split
    · exact Steady.refl s
    · refine Steady.trans (t := s.listenAll) (Steady.foldl (fun t l => ?_) _ s) withPart_steady
      split
      · exact setLink_steady
      · exact Steady.refl t

theorem timeSet_steady {x : TimeFields} : Steady s (timeSet x s).1 := by
  unfold timeSet; split
  · exact Steady.refl s
  · split
    · exact Steady.refl s
    · dsimp only; split
      · exact (withClock_only s _).steady (by decide)
      · split
        · exact Steady.refl s
        · exact moveClock_steady

theorem withEvents_steady {x : EventFlags} : Steady s { s with events := x } :=
  Only.steady (may := [.events]) (fun p hp => by cases p <;> first | exact absurd (by decide) hp | rfl) (by decide)

theorem setNotices_steady {x : NoticeFields} : Steady s (setNotices x s).1 := by
  unfold setNotices; split
  · exact Steady.refl s
  · exact Steady.refl s
  · split
    · exact Steady.refl s
    · exact withEvents_steady

theorem readCounters_steady : Steady s (readCounters s).1 :=
  Only.steady_tables (may := [.counters, .links]) (fun p hp => by cases p <;> first | exact absurd (by decide) hp | rfl)
    (List.forall_mem_cons.2 ⟨fun _ => trivial, List.forall_mem_singleton.2 (Table.wf_mapEntries _ _)⟩) (by decide)

theorem readFault_steady : Steady s (readFault s).1 :=
  Only.steady (may := [.fault]) (fun p hp => by cases p <;> first | exact absurd (by decide) hp | rfl) (by decide)

/-! ### The commands of the Card Directory -/

theorem withMode_steady {m : DirMode} : Steady s { s with dirMode := m } :=
  Only.steady (may := [.dirMode]) (fun p hp => by cases p <;> first | exact absurd (by decide) hp | rfl) (by decide)

theorem enterFlush_steady {t : FlushTarget} : Steady s (s.enterFlush t) :=
  Only.steady_tables (may := [.dirMode, .dir]) (fun p hp => by cases p <;> first | exact absurd (by decide) hp | rfl)
    (List.forall_mem_cons.2 ⟨fun _ => trivial, List.forall_mem_singleton.2 (Table.wf_mapEntries _ _)⟩) (by decide)

theorem directoryMode_steady {b : Byte} : Steady s (directoryMode b s).1 := by
  unfold directoryMode; split
  · exact Steady.refl s
  · split
    · exact Steady.refl s
    · split
      · exact Steady.refl s
      · exact withMode_steady
      · exact withMode_steady
      · split
        · exact enterFlush_steady
        · exact Steady.refl s

section
variable {w : Word64}

theorem withCard_steady {act : Nat → State → Answer} (h : ∀ card, Steady s (act card s).1) : Steady s (withCard w s act).1 := by
  unfold withCard; split
  · exact Steady.refl s
  · exact h _

theorem cardEvict_steady : Steady s (cardEvict w s).1 := withCard_steady (fun _ => by
  split
  · split
    · exact Steady.refl s
    · exact dropWay_steady
  · exact Steady.refl s
  · exact Steady.refl s)

theorem adjusting_steady {act : Nat → CardRecord → State → Answer} (h : ∀ card r t, Steady t (act card r t).1) :
    Steady s (adjusting w s act).1 := by
  unfold adjusting; split
  · exact Steady.refl s
  · refine withCard_steady (fun _ => ?_)
    split
    · exact Steady.refl s
    · split
      · exact Steady.refl s
      · split
        · exact (readRecord_steady_of_eq ‹_›).trans (h _ _ _)
        · exact readRecord_steady_of_eq ‹_›

theorem occupied_steady_of_eq {t : State} {b : Bool} (h : s.occupied card = (t, b)) : Steady s t := by
  unfold State.occupied at h; split at h <;>
    (obtain ⟨rfl, -⟩ := Prod.mk.inj h; exact readRecord_steady_of_eq ‹_›)

theorem loadAbsent_steady {d : Option CardData} : Steady s (loadAbsent d card s).1 := by
  unfold loadAbsent; split
  · exact Steady.refl s
  · split
    · exact Steady.refl s
    · split
      · exact Steady.refl s
      · split
        · exact Steady.refl s
        · exact install_steady

theorem cardAdjustLoad_steady {x : CardWire} : Steady s (cardAdjustLoad x s).1 := by
  unfold cardAdjustLoad; split
  · exact Steady.refl s
  · split
    · exact Steady.refl s
    · unfold loadRecord; split
      · exact occupied_steady_of_eq ‹_›
      · exact (occupied_steady_of_eq ‹_›).trans loadAbsent_steady

theorem cardAdjustUnload_steady : Steady s (cardAdjustUnload w s).1 := adjusting_steady (fun _ _ t => by
  split
  · exact Steady.refl t
  · split
    · exact dropWay_steady
    · exact Steady.refl t)

theorem setBonusTo_steady {bonus : Nat} {carried : Option Nat} {r : CardRecord} : Steady s (setBonusTo bonus carried card r s).1 := by
  unfold setBonusTo; dsimp only; split
  · exact Steady.refl s
  · split
    · exact done_steady writeData_steady
    · split
      · next h => exact (State.admission_frame h).steady (by decide)
      · next h => exact (((State.admission_frame h).steady (by decide)).trans writeData_steady).trans joinRecord_steady

theorem cardAdjustSetBonus_steady {x : SetBonusFields} : Steady s (cardAdjustSetBonus x s).1 := adjusting_steady (fun _ _ t => by
  unfold setBonus; split
  · exact Steady.refl t
  · split
    · exact Steady.refl t
    · exact setBonusTo_steady)

theorem setStatus_steady {status : CardStatus} : Steady s (setStatus status w s).1 :=
  adjusting_steady (fun _ _ _ => done_steady writeData_steady)

theorem directoryReadCard_steady : Steady s (directoryReadCard w s).1 := withCard_steady (fun card => by
  show Steady s (s.cardReport card).1
  unfold State.cardReport; split
  · split
    · exact Steady.refl s
    · exact checkFault_steady
  · exact Steady.refl s
  · exact Steady.refl s)

theorem directoryReadSet_steady {n : Word16} : Steady s (directoryReadSet n s).1 := by
  unfold directoryReadSet; split <;> exact Steady.refl s

end

/-! ### The windows and the links -/

theorem windowSet_steady {x : WindowFields} : Steady s (windowSet x s).1 := by
  unfold windowSet; dsimp only; split
  · exact Steady.refl s
  · split
    · exact Steady.refl s
    · split
      · exact Steady.refl s
      · split <;> exact setLink_steady

section
variable {b : Byte}

theorem withLink_steady {act : Nat → State → Answer} (h : ∀ l, Steady s (act l s).1) : Steady s (withLink b s act).1 := by
  unfold withLink; split
  · exact h _
  · exact Steady.refl s

theorem setEnabled_steady {on : Bool} : Steady s (s.setEnabled l on) := setLink_steady

theorem linkEnable_steady : Steady s (linkEnable b s).1 := withLink_steady (fun _ => by
  dsimp only; split
  · exact Steady.trans setEnabled_steady setLink_steady
  · exact setEnabled_steady)

theorem linkDisable_steady : Steady s (linkDisable b s).1 := withLink_steady (fun _ => by
  dsimp only; split
  · exact setEnabled_steady
  · exact Steady.trans setEnabled_steady emptyLink_steady)

theorem linkReset_steady : Steady s (linkReset b s).1 := withLink_steady (fun _ => by
  split
  · exact Steady.refl s
  · exact emptyLink_steady)

theorem setExpectedIdentity_steady {x : IdentityFields} : Steady s (setExpectedIdentity x s).1 := withLink_steady (fun _ => setLink_steady)

end

/-! ### Site links and take-off -/

theorem siteFrame_steady {α : Type} {f : SiteFrame α} {listening up : α → State → State} (h : ∀ x, Steady s (listening x s))
    (k : ∀ x, Steady s (up x s)) : Steady s (siteFrame l f s listening up) := by
  unfold siteFrame; split
  · exact Steady.refl s
  · exact badFrame_steady
  · exact badFrame_steady
  · exact h _
  · exact k _

theorem meetHello_steady {h : HelloFields} : Steady s (meetHello l h s) := by
  have rejects {b : Bool} : Steady s (s.rejectHello l b h) := (Steady.trans transmit_steady setLink_steady).trans raise_steady
  unfold meetHello; split
  · exact rejects
  · split
    · exact rejects
    · exact (Steady.trans setLink_steady transmit_steady).trans raise_steady

theorem offer_steady {m : TillMsg} : Steady s (s.offer l m) := by
  unfold State.offer; split
  · exact setLink_steady
  · exact dropInbound_steady

theorem takeOff_steady {want : TillKind → Bool} {act : ReplyEntry → NotedTill → State → State} (h : ∀ e n t, Steady t (act e n t)) :
    Steady s (takeOff l want s act) := by
  unfold takeOff; split
  · exact Steady.refl s
  · split
    · dsimp only; split
      · exact Steady.trans take_steady decline_steady
      · exact Steady.trans take_steady (h _ _ _)
    · exact Steady.refl s

theorem moneyChecks_steady {n : NotedTill} {a b : Bool} {amount : Nat} {act : State → State} (h : Steady s (act s)) :
    Steady s (moneyChecks l e n a b amount s act) := by
  unfold moneyChecks; split
  · exact declineField_steady
  · split
    · exact declineField_steady
    · split
      · exact ready_steady
      · split
        · exact decline_steady
        · exact h.trans settle_steady

theorem bindTo_steady {b : Binding} {act : ReplyEntry → State → State} (h : ∀ e t, Steady t (act e t)) : Steady s (bindTo l e b s act) :=
  Steady.trans modEntry_steady (h _ _)

theorem withCardProgram_steady : Steady s (withCardProgram l e s) := by
  unfold withCardProgram; split
  · exact unexpected_steady
  · exact underProgram_steady (fun _ => directoryDecision_steady)

section
variable {n : NotedTill}

theorem reverseFrom_steady : Steady s (reverseFrom l e n s) := by
  unfold reverseFrom; split
  · exact decline_steady
  · exact decline_steady
  · refine bindTo_steady (fun _ _ => ?_)
    unfold reverseEntry; dsimp only; split
    · exact Steady.trans setMark_steady standInReverse_steady
    · exact Steady.trans setMark_steady directoryDecision_steady

theorem holdFrom_steady : Steady s (holdFrom l e n s) := by
  unfold holdFrom; split
  · exact unexpected_steady
  · split
    · exact decline_steady
    · exact withCardProgram_steady

theorem settleHold_steady : Steady s (settleHold l e n s) := by
  unfold settleHold; split
  · exact unexpected_steady
  · split
    · split
      · exact bindTo_steady (fun _ _ => directoryDecision_steady)
      · exact decline_steady
    · split
      · exact decline_steady
      · exact refer_steady

theorem openTillAt_steady : Steady s (openTillAt l e n s) := by
  unfold openTillAt; dsimp only; split
  · exact declineField_steady
  · exact Steady.trans setTill_steady ready_steady

theorem closeTillAt_steady : Steady s (closeTillAt l e n s) := by
  unfold closeTillAt; dsimp only; split
  · exact Steady.trans setTill_steady ready_steady
  · exact declineField_steady

end

end Sys2Proof.Machine
end

section
/-! The commands of the Program Table: what each answers and what it writes (R27, R28, R32 to R39). -/

namespace Sys2Proof.Machine

/-! ### The program number, and the fields of a PROGRAM-SET -/

theorem withProgram_eq (b : Byte) (s : State) (act : Nat → State → Answer) :
    withProgram b s act = if 31 < b.toNat then badField s .programNumber else act b.toNat s := by
  unfold withProgram
  have hiff : b.toNat < Config.programs ↔ ¬ 31 < b.toNat := by show b.toNat < 32 ↔ _; omega
  rw [if_congr hiff rfl rfl, ite_not]

theorem fault_ite_eq_none {c : Prop} [Decidable c] {f : Field} {o : Option Field} :
    (if c then some f else o) = none ↔ ¬ c ∧ o = none := by
  by_cases h : c <;> simp [h]

/-- R27, R28: no field is at fault where every field is well formed and in its range. -/
theorem programFault_eq_none_iff (x : ProgramFields) : programFault x = none ↔ ∃ first g, GoodProgram x first g := by
  unfold programFault
  cases hcard : cardOfBcd x.first with
  | none => exact ⟨nofun, fun ⟨_, _, h⟩ => by have := h.card; rw [hcard] at this; cases this⟩
  | some first =>
    dsimp only
    simp only [fault_ite_eq_none, and_true]
    have hcards : Config.cardNumbers = 10000000000000000 := rfl
    constructor
    · rintro ⟨hrange, hmaximum, hlifetime, htip, hcap, hstandIn, hgating⟩
      cases hg : gatingOf x.gating with
      | none => rw [hg] at hgating; exact absurd rfl hgating
      | some g => exact ⟨first, g, hcard, by omega, by omega, by omega, by omega, by omega, by omega, hg⟩
    · rintro ⟨_, g, hgood⟩
      have ⟨hc, hrange, hmaximum, hlifetime, htip, hcap, hstandIn, hgating⟩ := hgood
      obtain rfl := Option.some.inj (hcard.symm.trans hc)
      rw [hgating]
      exact ⟨by omega, by omega, by omega, by omega, by omega, by omega, nofun⟩

theorem carriedRange_of_good {x : ProgramFields} {first : Nat} {g : Gating} (h : GoodProgram x first g) :
    carriedRange x = ⟨first, x.count.toNat⟩ := by unfold carriedRange; rw [h.card]; rfl

theorem carriedLimits_of_good {x : ProgramFields} {first : Nat} {g : Gating} (h : GoodProgram x first g) :
    carriedLimits x = ⟨x.maximumBalance.toNat, x.holdLifetime.toNat, x.tipTolerance.toNat, x.bonusCap.toNat, x.dailyUseLimit.toNat,
      x.standInLimit.toNat, g⟩ := by unfold carriedLimits; rw [h.gating]; rfl

theorem carriedLimits_inRange {x : ProgramFields} {first : Nat} {g : Gating} (h : GoodProgram x first g) : (carriedLimits x).inRange := by
  rw [carriedLimits_of_good h]
  exact ⟨h.maximum.1, h.maximum.2, h.lifetime.1, h.lifetime.2, h.tip, h.cap, Nat.le_of_lt_succ x.dailyUseLimit.isLt, h.standIn⟩

theorem ProgramState.ne_active {x : ProgramState} : x ≠ .active ↔ x = .inactive := by cases x <;> decide

theorem ProgramState.ne_inactive {x : ProgramState} : x ≠ .inactive ↔ x = .active := by cases x <;> decide

/-! ### PROGRAM-SET (R32, R33) -/

section
variable {x : ProgramFields} {s : State} {first : Nat} {g : Gating}

theorem programSet_beyond (h : 31 < x.number.toNat) : programSet x s = badField s .programNumber := by
  unfold programSet; rw [withProgram_eq, if_pos h]

variable (hn : x.number.toNat ≤ 31)
include hn

theorem programSet_locked (hl : (s.program x.number.toNat).locked = true) : programSet x s = refuse s .locked := by
  unfold programSet; rw [withProgram_eq, if_neg (by omega), if_pos hl]

variable (hl : (s.program x.number.toNat).locked = false)
include hl

theorem programSet_fault {f : Field} (hf : programFault x = some f) : programSet x s = badField s f := by
  unfold programSet; rw [withProgram_eq, if_neg (by omega), hl, if_neg Bool.false_ne_true, hf]

variable (hgood : GoodProgram x first g)
include hgood

theorem programSet_good : programSet x s =
    if (s.program x.number.toNat).state = .active ∧ (s.program x.number.toNat).range ≠ carriedRange x then refuse s .active
    else done (s.setProgram x.number.toNat { s.program x.number.toNat with range := carriedRange x, limits := carriedLimits x }) .none := by
  unfold programSet
  rw [withProgram_eq, if_neg (by omega), hl, if_neg Bool.false_ne_true, (programFault_eq_none_iff x).2 ⟨first, g, hgood⟩]

end

/-- Whatever a command of the Program Table answers, it leaves the part as it was but for the record of one program. -/
theorem exec_writes_one_program {kind : Word16} {ref : Word32} {n : Nat} {s : State} {a : Answer} {body : ResultBody} {p : Program}
    (hbody : a.2 = body) (hstate : a.1 = s ∧ p = s.program n ∨ a.1 = s.setProgram n p) :
    ∃ t : State, (Host.Outcome.next (answer kind ref a) : Result) = .next (t.queue (.result kind ref body)) ∧
      t = { s with programs := t.programs } ∧ (∀ m, m ≠ n → t.program m = s.program m) ∧ t.program n = p := by
  subst hbody
  refine ⟨a.1, rfl, ?_⟩
  rcases hstate with ⟨hs, rfl⟩ | hs <;> rw [hs]
  · exact ⟨rfl, fun _ _ => rfl, rfl⟩
  · exact ⟨rfl, fun m hm => by rw [State.setProgram_program, if_neg hm], State.setProgram_program_same _ _ _⟩

/-! ### PROGRAM-DEACTIVATE and PROGRAM-LOCK (R35, R37) -/

theorem programDeactivate_effect (ref : Word32) (b : Byte) (s : State) :
    ∃ t : State, exec (.programDeactivate (.body ref b)) s = .next (t.queue (.result Kind.programDeactivate ref
        (if 31 < b.toNat then .refused .badField (some .programNumber) []
         else if (s.program b.toNat).locked then .refused .locked none []
         else .done .none))) ∧
      t = { s with programs := t.programs } ∧ (∀ m, m ≠ b.toNat → t.program m = s.program m) ∧
      t.program b.toNat = if b.toNat ≤ 31 ∧ (s.program b.toNat).locked = false then { s.program b.toNat with state := .inactive }
        else s.program b.toNat := by
  refine exec_writes_one_program (a := programDeactivate b s) ?_ ?_ <;> unfold programDeactivate <;> rw [withProgram_eq]
  · split
    · rfl
    · split
      · rfl
      · split <;> rfl
  · by_cases hn : 31 < b.toNat
    · rw [if_pos hn]
      exact .inl ⟨rfl, if_neg (by omega)⟩
    rw [if_neg hn]
    cases hl : (s.program b.toNat).locked with
    | true => exact .inl ⟨rfl, if_neg (by simp)⟩
    | false =>
      have hmet : b.toNat ≤ 31 ∧ false = false := ⟨by omega, rfl⟩
      rw [if_neg Bool.false_ne_true, if_pos hmet]
      by_cases hs : (s.program b.toNat).state = .inactive
      · rw [if_pos hs, ← hs]
        exact .inl ⟨rfl, rfl⟩
      · rw [if_neg hs]
        exact .inr rfl

theorem programLock_effect (ref : Word32) (b : Byte) (s : State) :
    ∃ t : State, exec (.programLock (.body ref b)) s = .next (t.queue (.result Kind.programLock ref
        (if 31 < b.toNat then .refused .badField (some .programNumber) []
         else if (s.program b.toNat).state = .inactive then .refused .wrongState none []
         else .done .none))) ∧
      t = { s with programs := t.programs } ∧ (∀ m, m ≠ b.toNat → t.program m = s.program m) ∧
      t.program b.toNat = if b.toNat ≤ 31 ∧ (s.program b.toNat).state = .active then { s.program b.toNat with locked := true }
        else s.program b.toNat := by
  refine exec_writes_one_program (a := programLock b s) ?_ ?_ <;> unfold programLock <;> rw [withProgram_eq]
  · split
    · rfl
    · split
      · rfl
      · split <;> rfl
  · by_cases hn : 31 < b.toNat
    · rw [if_pos hn]
      exact .inl ⟨rfl, if_neg (by omega)⟩
    rw [if_neg hn]
    by_cases hs : (s.program b.toNat).state = .inactive
    · rw [if_pos hs]
      exact .inl ⟨rfl, if_neg (by simp [hs])⟩
    have hmet : b.toNat ≤ 31 ∧ (s.program b.toNat).state = .active := ⟨by omega, ProgramState.ne_inactive.1 hs⟩
    rw [if_neg hs, if_pos hmet]
    cases hl : (s.program b.toNat).locked with
    | true =>
      rw [if_pos rfl, ← hl]
      exact .inl ⟨rfl, rfl⟩
    | false => exact .inr rfl

/-- Settles O11, by the cases of each of the three commands. -/
theorem programsAreSetDeactivatedAndLocked : Obligations.ProgramsAreSetDeactivatedAndLocked := by
  refine ⟨fun ref x s => ?_, fun ref b s => ⟨programDeactivate_effect ref b s, programLock_effect ref b s⟩⟩
  have hexec {a : Answer} (h : programSet x s = a) : exec (.programSet (.body ref x)) s = .next (answer Kind.programSet ref a) := h ▸ rfl
  refine ⟨fun hn => hexec (programSet_beyond hn), fun hn hl => hexec (programSet_locked hn hl), fun hn hl hbad => ?_,
    fun first g hn hl hgood => ⟨fun hs hr => ?_, fun hkept => ?_⟩⟩
  · obtain ⟨f, hf⟩ := Option.ne_none_iff_exists'.1 (fun h => hbad ((programFault_eq_none_iff x).1 h))
    exact ⟨f, hexec (programSet_fault hn hl hf)⟩
  · refine hexec ((programSet_good hn hl hgood).trans (if_pos ⟨hs, ?_⟩))
    rwa [carriedRange_of_good hgood]
  · have hset := (programSet_good hn hl hgood).trans (if_neg (by
      rw [carriedRange_of_good hgood]
      rintro ⟨hs, hr⟩
      exact hkept.elim (fun h => by rw [h] at hs; cases hs) hr))
    rw [carriedRange_of_good hgood, carriedLimits_of_good hgood] at hset
    exact ⟨_, hexec hset, rfl, State.setProgram_program_same _ _ _, fun m hm => by
      show (s.setProgram _ _).program m = _
      rw [State.setProgram_program, if_neg hm]⟩

/-! ### PROGRAM-ACTIVATE and RANGE-PROBE (R34, R39) -/

theorem State.overlapping_eq (s : State) (n : Nat) (r : Range) : s.overlapping n r =
    (List.range 32).filter (fun m => decide (m ≠ n ∧ (s.program m).state = .active) && (s.program m).range.overlaps r) := by
  unfold State.overlapping; simp only [Bool.decide_and]; rfl

theorem programActivate_effect (ref : Word32) (b : Byte) (s : State) {clash : List Nat}
    (hclash : clash = s.overlapping b.toNat (s.program b.toNat).range) :
    ∃ t : State, exec (.programActivate (.body ref b)) s = .next (t.queue (.result Kind.programActivate ref
        (if 31 < b.toNat then .refused .badField (some .programNumber) []
         else if (s.program b.toNat).state = .active then .done .none
         else if (s.program b.toNat).range.count = 0 then .refused .badField (some .programNumber) []
         else if clash = [] then .done .none else .refused .overlap none clash))) ∧
      t = { s with programs := t.programs } ∧ (∀ m, m ≠ b.toNat → t.program m = s.program m) ∧
      t.program b.toNat = if b.toNat ≤ 31 ∧ (s.program b.toNat).range.count ≠ 0 ∧ clash = [] then
          { s.program b.toNat with state := .active }
        else s.program b.toNat := by
  refine exec_writes_one_program (a := programActivate b s) ?_ ?_ <;> unfold programActivate <;> rw [withProgram_eq]
  · split
    · rfl
    · split
      · rfl
      · split
        · rfl
        · rw [← hclash]
          cases clash <;> rfl
  · split
    · exact .inl ⟨rfl, if_neg (by omega)⟩
    · next hn =>
      split
      · next hs =>
        refine .inl ⟨rfl, ?_⟩
        split
        · rw [← hs]
        · rfl
      · split
        · next hc => exact .inl ⟨rfl, if_neg (by simp [hc])⟩
        · next hc =>
          rw [← hclash]
          cases clash with
          | nil => exact .inr (by rw [if_pos ⟨by omega, hc, rfl⟩]; rfl)
          | cons m ms => exact .inl ⟨rfl, if_neg (by simp)⟩

/-- Settles O12, by the cases of the two commands. -/
theorem activationAndProbeFindTheOverlaps : Obligations.ActivationAndProbeFindTheOverlaps := by
  intro ref b s
  refine ⟨programActivate_effect ref b s (State.overlapping_eq s _ _).symm, ?_⟩
  show Host.Outcome.next (answer Kind.rangeProbe ref (rangeProbe b s)) = _
  unfold rangeProbe; rw [withProgram_eq, ← State.overlapping_eq]
  split
  · rfl
  · split <;> rfl

end Sys2Proof.Machine
end

section
/-! The writes of the layout (R18, R27 to R39, R143 to R146, R183): the record, range or limit that a layout command writes, under the tests
that the command makes first, and what these writes keep. -/

namespace Sys2Proof.Machine

/-! ### The writes -/

/-- What the commands of the Program Table test before they write the record `p` of the program `n`. -/
structure State.ProgramWrite (s : State) (n : Nat) (p : Program) : Prop where
  free : (s.program n).locked = true → (s.program n).state = .inactive
  inOrder : (s.program n).inOrder → p.inOrder
  apart : p.state = .active →
    p.range = (s.program n).range ∧ ((s.program n).state = .active ∨ s.overlapping n (s.program n).range = [])

inductive LayoutWrite (s : State) : State → Prop
  | limits (x : LimitsFields) : LayoutWrite s { s with limits := clampedLimits x }
  | program {n : Nat} {p : Program} (h : s.ProgramWrite n p) : LayoutWrite s (s.setProgram n p)
  | passRange (n : Nat) (r : Range) : LayoutWrite s { s with passRanges := s.passRanges.set ⟨0, 0⟩ n r }
  | siteId {i id : Nat} (h : ¬ (id ≠ 0 ∧ s.identityHeld i id = true)) : LayoutWrite s (s.setSiteId i id)
  | slice {n : Nat} (site : Option Nat) (h : 2 ≤ n) : LayoutWrite s { s with slices := s.slices.set none n site }

/-- A steady change, or a write of the layout and then a steady change. -/
def LaysOut (s t : State) : Prop := ∃ u, (u = s ∨ LayoutWrite s u) ∧ Steady u t

section
variable {s t u : State}

theorem Steady.laysOut (h : Steady s t) : LaysOut s t := ⟨s, .inl rfl, h⟩

theorem LayoutWrite.laysOut (h : LayoutWrite s t) : LaysOut s t := ⟨t, .inr h, Steady.refl t⟩

theorem LaysOut.andThen (h : LaysOut s t) (k : Steady t u) : LaysOut s u :=
  have ⟨v, hv, hvt⟩ := h
  ⟨v, hv, hvt.trans k⟩

end

/-! ### The commands that write the layout -/

section
variable {s : State}

theorem withProgram_laysOut {b : Byte} {act : Nat → State → Answer} (h : ∀ n, LaysOut s (act n s).1) :
    LaysOut s (withProgram b s act).1 := by
  rw [withProgram_eq]; split
  · exact (Steady.refl s).laysOut
  · exact h _

theorem programSet_laysOut {x : ProgramFields} : LaysOut s (programSet x s).1 := withProgram_laysOut (fun n => by
  split
  · exact (Steady.refl s).laysOut
  · next hl =>
    split
    · exact (Steady.refl s).laysOut
    · next hf =>
      obtain ⟨first, g, hgood⟩ := (programFault_eq_none_iff x).1 hf
      split
      · exact (Steady.refl s).laysOut
      · next hkept =>
        have hrange (ha : (s.program n).state = .active) : carriedRange x = (s.program n).range := by
          by_contra h; exact hkept ⟨ha, Ne.symm h⟩
        refine LayoutWrite.laysOut (.program ?_)
        refine ⟨fun h => absurd h hl, fun ⟨_, _, hlocked, hcount⟩ => ?_, fun ha => ⟨hrange ha, .inl ha⟩⟩
        refine ⟨carriedLimits_inRange hgood, ?_, hlocked, fun ha => by rw [hrange ha]; exact hcount ha⟩
        rw [carriedRange_of_good hgood]
        exact hgood.range)

theorem programActivate_laysOut {b : Byte} : LaysOut s (programActivate b s).1 := withProgram_laysOut (fun n => by
  split
  · exact (Steady.refl s).laysOut
  · next hs =>
    split
    · exact (Steady.refl s).laysOut
    · next hcount =>
      split
      · next hclash =>
        refine LayoutWrite.laysOut (.program ?_)
        exact ⟨fun _ => ProgramState.ne_active.1 hs,
          fun ⟨hlimits, hrange, _, _⟩ => ⟨hlimits, hrange, fun _ => rfl, fun _ => Nat.pos_of_ne_zero hcount⟩,
          fun _ => ⟨rfl, .inr hclash⟩⟩
      · exact (Steady.refl s).laysOut)

theorem programDeactivate_laysOut {b : Byte} : LaysOut s (programDeactivate b s).1 := withProgram_laysOut (fun n => by
  split
  · exact (Steady.refl s).laysOut
  · next hl =>
    split
    · exact (Steady.refl s).laysOut
    · refine LayoutWrite.laysOut (.program ?_)
      exact ⟨fun h => absurd h hl, fun ⟨hlimits, hrange, _, _⟩ => ⟨hlimits, hrange, fun h => absurd h hl, nofun⟩, nofun⟩)

theorem programLock_laysOut {b : Byte} : LaysOut s (programLock b s).1 := withProgram_laysOut (fun n => by
  split
  · exact (Steady.refl s).laysOut
  · next hs =>
    have ha := ProgramState.ne_inactive.1 hs
    split
    · exact (Steady.refl s).laysOut
    · next hl =>
      refine LayoutWrite.laysOut (.program ?_)
      exact ⟨fun h => absurd h hl, fun ⟨hlimits, hrange, _, hcount⟩ => ⟨hlimits, hrange, fun _ => ha, hcount⟩,
        fun _ => ⟨rfl, .inl ha⟩⟩)

theorem rangeProbe_fst (b : Byte) (s : State) : (rangeProbe b s).1 = s := by
  unfold rangeProbe; rw [withProgram_eq]; split
  · rfl
  · split <;> rfl

theorem setLimits_laysOut {x : LimitsFields} : LaysOut s (setLimits x s).1 := by
  unfold setLimits; dsimp only; split <;> exact (LayoutWrite.limits x).laysOut

theorem passRangeSet_laysOut {x : PassRangeFields} : LaysOut s (passRangeSet x s).1 := by
  unfold passRangeSet; split
  · exact (Steady.refl s).laysOut
  · dsimp only; split
    · exact (Steady.refl s).laysOut
    · exact (LayoutWrite.passRange _ _).laysOut

theorem siteSet_laysOut {x : SiteFields} : LaysOut s (siteSet x s).1 := by
  unfold siteSet; split
  · exact (Steady.refl s).laysOut
  · split
    · exact (Steady.refl s).laysOut
    · split
      · exact (Steady.refl s).laysOut
      · next hheld => exact (LayoutWrite.siteId hheld).laysOut

theorem sliceAssign_laysOut {x : SliceFields} : LaysOut s (sliceAssign x s).1 := by
  unfold sliceAssign; split
  · exact (Steady.refl s).laysOut
  · next hn =>
    split
    · exact (Steady.refl s).laysOut
    · split
      · exact (Steady.refl s).laysOut
      · split
        · exact (Steady.refl s).laysOut
        · exact (LayoutWrite.slice _ (by omega)).laysOut

end

/-! ### The tables stay canonical -/

section
variable {s t : State}

theorem LayoutWrite.canonical (h : LayoutWrite s t) : ∀ p : Piece, p.canonical s → p.canonical t := by
  cases h with
  | limits x =>
    exact Only.canonical (may := [.limits]) (fun p hp => by cases p <;> first | exact absurd (by decide) hp | rfl)
      (List.forall_mem_singleton.2 id)
  | program _ => exact (s.setProgram_only _ _).canonical (List.forall_mem_singleton.2 (Table.wf_set _ _ _))
  | passRange n r =>
    exact Only.canonical (may := [.passRanges]) (fun p hp => by cases p <;> first | exact absurd (by decide) hp | rfl)
      (List.forall_mem_singleton.2 (Table.wf_set _ _ _))
  | siteId _ =>
    exact Only.canonical (may := [.siteIds]) (fun p hp => by cases p <;> first | exact absurd (by decide) hp | rfl)
      (List.forall_mem_singleton.2 (Table.wf_set _ _ _))
  | slice site _ =>
    exact Only.canonical (may := [.slices]) (fun p hp => by cases p <;> first | exact absurd (by decide) hp | rfl)
      (List.forall_mem_singleton.2 (Table.wf_set _ _ _))

theorem LaysOut.tablesCanonical (h : LaysOut s t) (hs : TablesCanonical s) : TablesCanonical t := by
  obtain ⟨u, rfl | hw, hu⟩ := h
  · exact (tablesCanonical_iff t).2 (fun p => hu.canonical p ((tablesCanonical_iff u).1 hs p))
  · exact (tablesCanonical_iff t).2 (fun p => hu.canonical p (hw.canonical p ((tablesCanonical_iff s).1 hs p)))

/-! ### A locked program that is ACTIVE stays as it is -/

theorem LayoutWrite.lockedProgram {n : Nat} (h : LayoutWrite s t) (hl : (s.program n).locked = true)
    (ha : (s.program n).state = .active) : t.program n = s.program n := by
  cases h with
  | @program m p hw =>
    rw [State.setProgram_program]
    refine if_neg (fun hnm => ?_)
    subst hnm
    cases ha.symm.trans (hw.free hl)
  | limits _ => rfl
  | passRange _ _ => rfl
  | siteId _ => rfl
  | slice _ _ => rfl

theorem LaysOut.lockedProgram {n : Nat} (h : LaysOut s t) (hl : (s.program n).locked = true) (ha : (s.program n).state = .active) :
    t.program n = s.program n := by
  obtain ⟨u, rfl | hw, hu⟩ := h
  · exact hu.program n
  · exact (hu.program n).trans (hw.lockedProgram hl ha)

end

/-! ### The layout stays in order -/

/-- The layout in order and the exposures bounded, with the table of the site identities canonical. -/
structure LayoutInOrder (s : State) : Prop where
  siteTable : s.siteIds.wf 0 = true
  programs : ProgramsInOrder s
  apart : ActiveProgramsApart s
  sites : SitesDistinct s
  commissioning : CommissioningUnassigned s
  limits : LimitsInBounds s
  exposures : ExposuresBounded s

section
variable {s t : State}

theorem Steady.layoutInOrder (h : Steady s t) (o : LayoutInOrder s) : LayoutInOrder t where
  siteTable := h.canonical .siteIds o.siteTable
  programs := o.programs.congr h.programs
  apart m n := by rw [h.program m, h.program n]; exact o.apart m n
  sites i j := by
    unfold State.siteId
    rw [show t.siteIds = s.siteIds from h.layout .siteIds (by decide)]
    exact o.sites i j
  commissioning := by
    unfold CommissioningUnassigned State.slice
    rw [show t.slices = s.slices from h.layout .slices (by decide)]
    exact o.commissioning
  limits := by
    unfold LimitsInBounds
    rw [show t.limits = s.limits from h.layout .limits (by decide)]
    exact o.limits
  exposures := h.exposures o.programs o.exposures

theorem clamp_le {lo hi : Nat} (v : Nat) (h : lo ≤ hi) : clamp lo hi v ≤ hi := Nat.max_le.2 ⟨h, Nat.min_le_left _ _⟩

theorem le_clamp (lo hi v : Nat) : lo ≤ clamp lo hi v := Nat.le_max_left _ _

/-- R183. -/
theorem clampedLimits_inBounds (s : State) (x : LimitsFields) : LimitsInBounds { s with limits := clampedLimits x } :=
  ⟨le_clamp _ _ _, clamp_le _ (by decide), le_clamp _ _ _, clamp_le _ (by decide), le_clamp _ _ _, clamp_le _ (by decide)⟩

theorem Range.overlaps_comm (a b : Range) : a.overlaps b = b.overlaps a := by
  unfold Range.overlaps
  cases decide (0 < a.count) <;> cases decide (0 < b.count) <;> simp [Bool.and_comm]

/-- R34: no other ACTIVE program overlaps where the list of those that do is empty. -/
theorem State.overlaps_of_overlapping_nil {n m : Nat} {r : Range} (h : s.overlapping n r = []) (hm : m < Config.programs) (hmn : m ≠ n)
    (ha : (s.program m).state = .active) : (s.program m).range.overlaps r = false := by
  have hno := List.filter_eq_nil_iff.1 h m (List.mem_range.2 hm)
  simpa [hmn, ha] using hno

/-- R34: a record that a command writes for the program `n` is apart from every other ACTIVE program. -/
theorem State.ProgramWrite.apart_from {n m : Nat} {p : Program} (h : s.ProgramWrite n p) (hs : ActiveProgramsApart s)
    (hn : n < Config.programs) (hm : m < Config.programs) (hmn : m ≠ n) (hp : p.state = .active) (ha : (s.program m).state = .active) :
    (s.program m).range.overlaps p.range = false := by
  obtain ⟨hrange, hwas | hclash⟩ := h.apart hp
  · rw [hrange]; exact hs m n hm hn hmn ha hwas
  · rw [hrange]; exact State.overlaps_of_overlapping_nil hclash hm hmn ha

theorem State.ProgramWrite.activeProgramsApart {n : Nat} {p : Program} (h : s.ProgramWrite n p) (hs : ActiveProgramsApart s) :
    ActiveProgramsApart (s.setProgram n p) := by
  intro i j hi hj hij
  rw [State.setProgram_program, State.setProgram_program]
  by_cases hin : i = n
  · subst hin
    rw [if_pos rfl, if_neg (Ne.symm hij)]
    intro hp ha
    rw [Range.overlaps_comm]
    exact h.apart_from hs hi hj (Ne.symm hij) hp ha
  · rw [if_neg hin]
    by_cases hjn : j = n
    · subst hjn
      rw [if_pos rfl]
      exact fun ha hp => h.apart_from hs hj hi hij hp ha
    · rw [if_neg hjn]
      exact hs i j hi hj hij

theorem State.ProgramWrite.programsInOrder {n : Nat} {p : Program} (h : s.ProgramWrite n p) (hs : ProgramsInOrder s) :
    ProgramsInOrder (s.setProgram n p) := fun m => by
  rw [State.setProgram_program]; split
  · exact h.inOrder (hs n)
  · exact hs m

theorem State.setSiteId_siteId (s : State) (i id j : Nat) : (s.setSiteId i id).siteId j = if j = i then id else s.siteId j :=
  Table.get_set _ _ _ _ _

/-- R145: an identity that no other site record holds. -/
theorem State.siteId_ne_of_not_held {i id j : Nat} (hw : s.siteIds.wf 0 = true) (h : ¬ (id ≠ 0 ∧ s.identityHeld i id = true))
    (hid : id ≠ 0) (hji : j ≠ i) : s.siteId j ≠ id := fun hj =>
  h ⟨hid, List.any_eq_true.2 ⟨(j, id), (Table.mem_cells_iff 0 hw j id).2 ⟨hj, hid⟩, by simp [hji]⟩⟩

theorem setSiteId_sitesDistinct {i id : Nat} (hw : s.siteIds.wf 0 = true) (hs : SitesDistinct s)
    (h : ¬ (id ≠ 0 ∧ s.identityHeld i id = true)) : SitesDistinct (s.setSiteId i id) := by
  intro j k hjk
  rw [State.setSiteId_siteId, State.setSiteId_siteId]
  by_cases hj : j = i
  · subst hj
    rw [if_pos rfl, if_neg (Ne.symm hjk)]
    exact fun hid => (State.siteId_ne_of_not_held hw h hid (Ne.symm hjk)).symm
  · rw [if_neg hj]
    by_cases hk : k = i
    · subst hk
      rw [if_pos rfl]
      exact fun hne heq => State.siteId_ne_of_not_held hw h (heq ▸ hne) hj heq
    · rw [if_neg hk]
      exact hs j k hjk

/-- R143: the slices that a SLICE-ASSIGN may write are no commissioning slices. -/
theorem setSlice_commissioningUnassigned {n : Nat} {site : Option Nat} (hs : CommissioningUnassigned s) (h : 2 ≤ n) :
    CommissioningUnassigned { s with slices := s.slices.set none n site } :=
  ⟨(Table.get_set_other none s.slices site (by omega : 0 ≠ n)).trans hs.1,
   (Table.get_set_other none s.slices site (by omega : 1 ≠ n)).trans hs.2⟩

theorem LayoutWrite.layoutInOrder (h : LayoutWrite s t) (o : LayoutInOrder s) : LayoutInOrder t := by
  have siteTable : t.siteIds.wf 0 = true := h.canonical .siteIds o.siteTable
  cases h with
  | limits x =>
    exact { siteTable, programs := o.programs, apart := o.apart, sites := o.sites, commissioning := o.commissioning,
            limits := clampedLimits_inBounds s x, exposures := o.exposures }
  | program hw =>
    exact { siteTable, programs := hw.programsInOrder o.programs, apart := hw.activeProgramsApart o.apart, sites := o.sites,
            commissioning := o.commissioning, limits := o.limits, exposures := o.exposures }
  | passRange n r =>
    exact { siteTable, programs := o.programs, apart := o.apart, sites := o.sites, commissioning := o.commissioning, limits := o.limits,
            exposures := o.exposures }
  | siteId hfree =>
    exact { siteTable, programs := o.programs, apart := o.apart, sites := setSiteId_sitesDistinct o.siteTable o.sites hfree,
            commissioning := o.commissioning, limits := o.limits, exposures := o.exposures }
  | slice site hn =>
    exact { siteTable, programs := o.programs, apart := o.apart, sites := o.sites,
            commissioning := setSlice_commissioningUnassigned o.commissioning hn, limits := o.limits, exposures := o.exposures }

theorem LaysOut.layoutInOrder (h : LaysOut s t) (o : LayoutInOrder s) : LayoutInOrder t := by
  obtain ⟨u, rfl | hw, hu⟩ := h
  · exact hu.layoutInOrder o
  · exact hu.layoutInOrder (hw.layoutInOrder o)

end

end Sys2Proof.Machine
end

section
/-! Every step keeps the tables canonical and the layout in order, and leaves a locked program as it is: each command and event makes a
steady change, or one write of the layout and then a steady change. -/

namespace Sys2Proof.Machine

section
variable {s t u : State}

theorem next_laysOut (h : (Host.Outcome.next u : Result) = .next t) (k : LaysOut s u) : LaysOut s t := by cases h; exact k

theorem next_steady (h : (Host.Outcome.next u : Result) = .next t) (k : Steady s u) : LaysOut s t := next_laysOut h k.laysOut

theorem command_laysOut {α : Type} {kind : Word16} {f : HostFrame α} {act : α → State → Answer} (h : ∀ x, LaysOut s (act x s).1) :
    LaysOut s (command kind f s act) := by
  unfold command; split
  · exact (Steady.refl s).laysOut
  · exact queue_steady.laysOut
  · exact queue_steady.laysOut
  · exact (h _).andThen queue_steady

/-- A message leaves for the host, and the journal may note that it did. -/
theorem withSent_steady {out sent : List HostMsg} {j : Journal} : Steady s { s with out := out, sentToHost := sent, journal := j } :=
  Only.steady (may := [.out, .sentToHost, .journal]) (fun p hp => by cases p <;> first | exact absurd (by decide) hp | rfl) (by decide)

theorem withPending_steady {is : List Instr} : Steady s { s with pending := is } :=
  Only.steady (may := [.pending]) (fun p hp => by cases p <;> first | exact absurd (by decide) hp | rfl) (by decide)

/-- Every command and event but a power-on reset. -/
theorem exec_laysOut {i : Instr} (hi : i ≠ .powerOnReset) (h : exec i s = .next t) : LaysOut s t := by
  cases i with
  | powerOnReset => exact absurd rfl hi
  | resetEngine f => exact next_steady h (command_steady (fun _ => engineReset_steady))
  | start f => exact next_steady h (command_steady (fun _ => startPart_steady))
  | setLimits f => exact next_laysOut h (command_laysOut (fun _ => setLimits_laysOut))
  | timeSet f => exact next_steady h (command_steady (fun _ => settled_steady timeSet_steady))
  | programSet f => exact next_laysOut h (command_laysOut (fun _ => programSet_laysOut))
  | programActivate f => exact next_laysOut h (command_laysOut (fun _ => programActivate_laysOut))
  | programDeactivate f => exact next_laysOut h (command_laysOut (fun _ => programDeactivate_laysOut))
  | programLock f => exact next_laysOut h (command_laysOut (fun _ => programLock_laysOut))
  | rangeProbe f => exact next_steady h (command_steady (fun x => by rw [rangeProbe_fst]; exact Steady.refl s))
  | passRangeSet f => exact next_laysOut h (command_laysOut (fun _ => passRangeSet_laysOut))
  | directoryMode f => exact next_steady h (command_steady (fun _ => settled_steady directoryMode_steady))
  | cardEvict f => exact next_steady h (command_steady (fun _ => settled_steady cardEvict_steady))
  | cardAdjustLoad f => exact next_steady h (command_steady (fun _ => cardAdjustLoad_steady))
  | cardAdjustUnload f => exact next_steady h (command_steady (fun _ => cardAdjustUnload_steady))
  | cardAdjustSetBonus f => exact next_steady h (command_steady (fun _ => cardAdjustSetBonus_steady))
  | cardAdjustBlock f => exact next_steady h (command_steady (fun _ => setStatus_steady))
  | cardAdjustUnblock f => exact next_steady h (command_steady (fun _ => setStatus_steady))
  | directoryReadSummary f => exact next_steady h (command_steady (fun _ => Steady.refl s))
  | directoryReadCard f => exact next_steady h (command_steady (fun _ => settled_steady directoryReadCard_steady))
  | directoryReadSet f => exact next_steady h (command_steady (fun _ => directoryReadSet_steady))
  | readFault f => exact next_steady h (command_steady (fun _ => readFault_steady))
  | siteSet f => exact next_laysOut h (command_laysOut (fun _ => siteSet_laysOut))
  | sliceAssign f => exact next_laysOut h (command_laysOut (fun _ => sliceAssign_laysOut))
  | windowSet f => exact next_steady h (command_steady (fun _ => windowSet_steady))
  | linkControlEnable f => exact next_steady h (command_steady (fun _ => linkEnable_steady))
  | linkControlDisable f => exact next_steady h (command_steady (fun _ => settled_steady linkDisable_steady))
  | linkControlReset f => exact next_steady h (command_steady (fun _ => settled_steady linkReset_steady))
  | linkControlSetExpectedIdentity f => exact next_steady h (command_steady (fun _ => setExpectedIdentity_steady))
  | setNotices f => exact next_steady h (command_steady (fun _ => setNotices_steady))
  | readEvents f => exact next_steady h (command_steady (fun _ => withEvents_steady))
  | readCounters f => exact next_steady h (command_steady (fun _ => readCounters_steady))
  | readStatus f => exact next_steady h (command_steady (fun _ => Steady.refl s))
  | unknownCommand f =>
    refine next_steady h ?_
    split
    · exact Steady.refl s
    · exact queue_steady
  | cardData f => exact next_steady h (hostAnswer_steady (fun _ _ _ _ => takeCardData_steady))
  | noSuchCard f => exact next_steady h (hostAnswer_steady (fun _ _ _ _ => takeNoSuchCard_steady))
  | referralAnswer f => exact next_steady h (hostAnswer_steady (fun _ _ _ _ => takeReferralAnswer_steady))
  | posted f => exact next_steady h takePosted_steady
  | journalSend =>
    refine next_steady h ?_
    split
    · exact withSent_steady
    · exact Steady.refl s
  | linkHello link f =>
    exact next_steady h (siteFrame_steady (fun _ => meetHello_steady)
      (fun _ => Steady.trans (Steady.trans loseLink_steady settle_steady) meetHello_steady))
  | presence link f => exact next_steady h (siteFrame_steady (fun _ => Steady.refl s) (fun _ => reload_steady))
  | tillMessageArrival link f =>
    exact next_steady h (siteFrame_steady (fun _ => dropInbound_steady) (fun _ => Steady.trans reload_steady offer_steady))
  | presenceTimeout link =>
    refine next_steady h ?_
    split
    · exact Steady.trans loseLink_steady settle_steady
    · exact Steady.refl s
  | openTill link => exact next_steady h (takeOff_steady (fun _ _ _ => openTillAt_steady))
  | closeTill link => exact next_steady h (takeOff_steady (fun _ _ _ => closeTillAt_steady))
  | enquiry link => exact next_steady h (takeOff_steady (fun _ _ _ => moneyChecks_steady withCardProgram_steady))
  | redeem link => exact next_steady h (takeOff_steady (fun _ _ _ => moneyChecks_steady withCardProgram_steady))
  | hold link => exact next_steady h (takeOff_steady (fun _ _ _ => moneyChecks_steady holdFrom_steady))
  | complete link => exact next_steady h (takeOff_steady (fun _ _ _ => moneyChecks_steady settleHold_steady))
  | release link => exact next_steady h (takeOff_steady (fun _ _ _ => moneyChecks_steady settleHold_steady))
  | reverse link => exact next_steady h (takeOff_steady (fun _ _ _ => moneyChecks_steady reverseFrom_steady))
  | reload link => exact next_steady h (takeOff_steady (fun _ _ _ => moneyChecks_steady withCardProgram_steady))
  | unknownTillKind link => exact next_steady h (takeOff_steady (fun _ _ _ => declineField_steady))
  | delivery link =>
    refine next_steady h ?_
    split
    · exact Steady.trans deliver_steady settle_steady
    · exact Steady.refl s
  | fetchAnswerTimeout tag =>
    refine next_steady h ?_
    split
    · split
      · exact Steady.trans fetchTimedOut_steady settle_steady
      · exact Steady.refl s
    · exact Steady.refl s
  | fetchGateTimeout tag =>
    refine next_steady h ?_
    split
    · split
      · exact Steady.refl s
      · exact Steady.trans fetchTimedOut_steady settle_steady
    · exact Steady.refl s
  | referralTimeout tag =>
    refine next_steady h ?_
    split
    · exact referralTimedOut_steady
    · exact Steady.refl s
  | gateTimeout link sequence =>
    refine next_steady h ?_
    split
    · exact Steady.trans gateTimeout_steady settle_steady
    · exact Steady.refl s
  | holdExpiry site ref =>
    refine next_steady h ?_
    split
    · split
      · exact Steady.trans runUntil_steady settle_steady
      · exact Steady.refl s
    · exact Steady.refl s
  | dayRollover =>
    refine next_steady h ?_
    split
    · exact Steady.refl s
    · exact Steady.trans runUntil_steady settle_steady
  | storedContentAltered set way x => exact next_steady h setDirSet_steady
  | serviceMessageTransmitted =>
    refine next_steady h ?_
    split
    · split
      · exact Steady.refl s
      · exact withSent_steady
    · exact Steady.refl s

/-- A step takes the next command or event from the queue, if there is one, and then makes a change of the layout or none. -/
theorem step_laysOut (hi : s.pending.head? ≠ some .powerOnReset) (h : step s = .next t) : ∃ u, Steady s u ∧ LaysOut u t := by
  cases hp : s.pending with
  | nil => rw [step_of_nil hp] at h; exact ⟨s, Steady.refl s, next_steady h (pass_steady (n := 1))⟩
  | cons c rest =>
    rw [step_of_cons hp] at h
    rw [hp] at hi
    exact ⟨_, withPending_steady, exec_laysOut (fun hc => hi (congrArg some hc)) h⟩

/-- A power-on reset leaves the state after reset, with what the queue still holds. -/
theorem step_of_powerOnReset (hi : s.pending.head? = some .powerOnReset) (h : step s = .next t) :
    ∃ is, t = { State.reset with pending := is } := by
  obtain ⟨rest, hp⟩ := List.head?_eq_some_iff.1 hi
  rw [step_of_cons hp] at h
  cases h
  exact ⟨_, rfl⟩

theorem reset_layoutInOrder (is : List Instr) : LayoutInOrder { State.reset with pending := is } :=
  have ⟨tables, programs, apart, sites, commissioning, limits, exposures, _⟩ := resetMeetsEveryInvariant
  have : LayoutInOrder State.reset :=
    { siteTable := (tablesCanonical_iff _).1 tables .siteIds, programs, apart, sites, commissioning, limits, exposures }
  withPending_steady.layoutInOrder this

end

/-- Settles O50, by the canonical form that a steady change and a write of the layout keep. -/
theorem everyStepKeepsTheTablesCanonical : Obligations.EveryStepKeepsTheTablesCanonical := by
  intro s t hs h
  by_cases hi : s.pending.head? = some .powerOnReset
  · obtain ⟨is, rfl⟩ := step_of_powerOnReset hi h
    exact withPending_steady.laysOut.tablesCanonical resetMeetsEveryInvariant.1
  · obtain ⟨u, hu, hut⟩ := step_laysOut hi h
    exact hut.tablesCanonical (hu.laysOut.tablesCanonical hs)

/-- Settles O51, by the order that a steady change and a write of the layout keep. -/
theorem everyStepKeepsTheLayoutInOrder : Obligations.EveryStepKeepsTheLayoutInOrder := by
  intro s t tables programs apart sites commissioning limits exposures h
  have inOrder : LayoutInOrder t := by
    by_cases hi : s.pending.head? = some .powerOnReset
    · obtain ⟨is, rfl⟩ := step_of_powerOnReset hi h
      exact reset_layoutInOrder is
    · obtain ⟨u, hu, hut⟩ := step_laysOut hi h
      exact hut.layoutInOrder (hu.layoutInOrder
        { siteTable := (tablesCanonical_iff s).1 tables .siteIds, programs, apart, sites, commissioning, limits, exposures })
  exact ⟨inOrder.programs, inOrder.apart, inOrder.sites, inOrder.commissioning, inOrder.limits, inOrder.exposures⟩

/-- Settles O52: no command writes the record of a locked program that is ACTIVE. -/
theorem lockedProgramsNeverChange : Obligations.LockedProgramsNeverChange := by
  intro n s t hl ha hi h
  obtain ⟨u, hu, hut⟩ := step_laysOut hi h
  rw [← hu.program n] at hl ha ⊢
  exact hut.lockedProgram hl ha

end Sys2Proof.Machine
end

section
/-! The arithmetic of debits and captures (R42, R48 to R50). -/

namespace Sys2Proof.Machine

/-! ### Debits (R48, R49) -/

section
variable {a c freeBonus freeCore : Nat} {allowPartial : Bool}

/-- R48: what a debit has available, the bonus allowance and the free core. -/
def debitAvailable (a c freeBonus freeCore : Nat) : Nat := bonusAllowance freeBonus a c + freeCore

theorem debitFor_insufficient
    (h : debitAvailable a c freeBonus freeCore = 0 ∨ debitAvailable a c freeBonus freeCore < a ∧ allowPartial = false) :
    debitFor a c freeBonus freeCore allowPartial = none := by
  unfold debitAvailable at h
  unfold debitFor; dsimp only
  rcases h with h | ⟨hlt, rfl⟩
  · exact if_pos h
  · split
    · rfl
    · rw [if_neg (not_le.2 hlt), if_neg Bool.false_ne_true]

/-- R48, R49: an approved debit is the lesser of the amount and what is available, and says whether that falls short. -/
theorem debitFor_approved (h0 : 0 < debitAvailable a c freeBonus freeCore)
    (h : a ≤ debitAvailable a c freeBonus freeCore ∨ allowPartial = true) :
    debitFor a c freeBonus freeCore allowPartial =
      some (splitDebit (min a (debitAvailable a c freeBonus freeCore)) (bonusAllowance freeBonus a c)
        (decide (debitAvailable a c freeBonus freeCore < a))) := by
  unfold debitAvailable at h0 h ⊢
  unfold debitFor; dsimp only
  rw [if_neg h0.ne']
  by_cases hle : a ≤ bonusAllowance freeBonus a c + freeCore
  · rw [if_pos hle, min_eq_left hle, decide_eq_false (not_lt.2 hle)]
  · rw [if_neg hle, if_pos (h.resolve_left hle), min_eq_right (not_le.1 hle).le, decide_eq_true (not_le.1 hle)]

/-- R49: a split of what the allowance and the free core cover keeps each part within its own. -/
theorem splitDebit_fits {x allowance freeCore : Nat} (h : x ≤ allowance + freeCore) (partly : Bool) :
    (splitDebit x allowance partly).bonus + (splitDebit x allowance partly).core = x ∧
    (splitDebit x allowance partly).bonus ≤ allowance ∧ (splitDebit x allowance partly).core ≤ freeCore := by
  unfold splitDebit; dsimp only; omega

/-- R42, R48: the allowance is within the free bonus and within the cap's share, rounded down. -/
theorem bonusAllowance_le (freeBonus amount cap : Nat) :
    bonusAllowance freeBonus amount cap ≤ freeBonus ∧ bonusAllowance freeBonus amount cap * 100 ≤ amount * cap := by
  refine ⟨Nat.min_le_left _ _, ?_⟩
  calc bonusAllowance freeBonus amount cap * 100 ≤ amount * cap / 100 * 100 := Nat.mul_le_mul_right _ (Nat.min_le_right _ _)
    _ ≤ amount * cap := Nat.div_mul_le_self _ _

end

/-! ### Captures (R50) -/

section
variable {b k tip f freeCore : Nat}

theorem captureFor_within (h : f ≤ b + k) :
    captureFor b k tip f freeCore = some { bonus := min f b, core := f - min f b, extra := 0, partly := false } := if_pos h

theorem captureFor_overTolerance (h : (b + k) * tip / 100 < f - (b + k)) : captureFor b k tip f freeCore = none := by
  have habove : ¬ f ≤ b + k := fun hle => by rw [Nat.sub_eq_zero_of_le hle] at h; exact Nat.not_lt_zero _ h
  unfold captureFor; rw [if_neg habove]; exact if_pos h

/-- R50: above the hold's parts the extra comes from free core, as far as it reaches. -/
theorem captureFor_extra (h : b + k < f) (ht : f - (b + k) ≤ (b + k) * tip / 100) : captureFor b k tip f freeCore =
    some { bonus := b, core := k, extra := min (f - (b + k)) freeCore, partly := decide (b + k + freeCore < f) } := by
  unfold captureFor percentOf
  rw [if_neg (not_le.2 h), if_neg (not_lt.2 ht)]
  split
  · next hle => rw [min_eq_left hle, decide_eq_false (by omega)]
  · next hle => rw [min_eq_right (not_le.1 hle).le, decide_eq_true (by omega)]

end

/-- Settles O40, from the outcomes of the two computations and the bounds of their parts. -/
theorem debitsAndCapturesStayWithinFreeFunds : Obligations.DebitsAndCapturesStayWithinFreeFunds := by
  refine ⟨fun a c freeBonus freeCore allowPartial => ⟨debitFor_insufficient, fun h0 h => ?_⟩,
    fun b k tip f freeCore => ⟨fun h => ?_, captureFor_overTolerance, fun h ht => ?_⟩⟩
  · obtain ⟨hsum, hbonus, hcore⟩ := splitDebit_fits (Nat.min_le_right a (debitAvailable a c freeBonus freeCore))
      (decide (debitAvailable a c freeBonus freeCore < a))
    obtain ⟨hfree, hcap⟩ := bonusAllowance_le freeBonus a c
    exact ⟨_, debitFor_approved h0 h, rfl, rfl, hsum, decide_eq_true_iff, hbonus.trans hfree, hcore,
      (Nat.mul_le_mul_right _ hbonus).trans hcap⟩
  · refine ⟨_, captureFor_within h, rfl, ?_, rfl, rfl, ?_⟩ <;> dsimp only <;> omega
  · refine ⟨_, captureFor_extra h ht, rfl, rfl, rfl, decide_eq_true_iff, ?_⟩
    dsimp only; omega

end Sys2Proof.Machine
end

section
/-! The stand-in decision for a REDEEM whose fetch has timed out. -/

namespace Sys2Proof.Machine

/-! ### A record that joins while its card is in no way and no fetch is for it (R109, R128) -/

section
variable {s : State} {d : Draft} (hr : s.recordOf d.card = none) (hf : s.fetchFor d.card = none)
include hr hf

theorem State.joinRecord_absent : s.joinRecord d = ((s.appendRecord (d.record s)).queue (.journal (d.record s) 0)).warnHigh := by
  have hcount : (s.appendRecord (d.record s)).countUnposted d.card = s.appendRecord (d.record s) := by
    unfold State.countUnposted; rw [State.readRecord_absent (s := s.appendRecord (d.record s)) hr]
  have hfetch : (s.appendRecord (d.record s)).fetchFor d.card = none := hf
  unfold State.joinRecord; dsimp only
  rw [hcount, State.regate_none hfetch]

theorem State.joinRecord_absent_eq : s.joinRecord d =
    { s with journal := (s.joinRecord d).journal, events := (s.joinRecord d).events, out := (s.joinRecord d).out } := by
  rw [State.joinRecord_absent hr hf, State.warnHigh_eq]; rfl

end

/-! ### Admission (R126), the decline of a request that is bound to nothing (R62), and reply gating (R133) -/

/-- R126, R128: what an admitted undoable record makes of the journal. -/
theorem joinUndoable_journal (s : State) (d : Draft) : (joinUndoable d s.unrefusing).journal = s.journal.withUndoable (d.record s) := by
  unfold joinUndoable; rw [State.joinRecord_journal]; rfl

/-- R126, R128: what an admitted undoable record changes, where its card is in no way. -/
theorem joinUndoable_absent {s : State} {d : Draft} (hr : s.recordOf d.card = none) (hf : s.fetchFor d.card = none) : ∃ events out,
    joinUndoable d s.unrefusing = { s with journal := s.journal.withUndoable (d.record s), events := events, out := out } := by
  have hframe := State.joinRecord_absent_eq (s := s.unrefusing.reserveSlot) hr hf
  have hjournal : (s.unrefusing.reserveSlot.joinRecord d).journal = _ := joinUndoable_journal s d
  rw [hjournal] at hframe
  exact ⟨_, _, hframe⟩

theorem State.admitted_room {s : State} (h : s.journal.records.length + s.journal.reserved + 2 ≤ 4096) (l : Nat) (e : ReplyEntry)
    (free : Option Nat) (act : State → State) : s.admitted l e free act = act s.unrefusing := by
  unfold State.admitted; rw [State.admission_room _ ((Journal.hasRoom_iff _ _).2 h)]; rfl

theorem decline_unbound {e : ReplyEntry} (h : e.bound = .free) (l : Nat) (r : Reason) (free : Option Nat) (s : State) :
    decline l e r free s = s.finish l e.slot (.ready (declinedReply e.msg r free) none none) := by
  unfold decline State.clearMark; rw [h]

theorem gate_under (l : Nat) (e : ReplyEntry) (p : Program) (reply : TillReply) (undo : UndoRecord) (sequence : Nat) (s : State) :
    gate l e (some p) reply undo sequence s =
      s.finish l e.slot (gatedBy p.limits.gating s.limits.gate sequence reply undo) := by
  unfold gate gatedBy; dsimp only; cases p.limits.gating <;> rfl

theorem State.underProgram_found {s : State} {card : Nat} {p : Program} (h : s.programOf card = some p) (l : Nat) (e : ReplyEntry)
    (act : Program → State) : s.underProgram l e card act = act p := by
  unfold State.underProgram; rw [h]

/-- R163: what a completed reply does to the links, as the statements say it. -/
theorem State.finish_links (s : State) (l slot : Nat) (st : ReplyState) : s.otherLinks (s.finish l slot st) l ∧
    (s.finish l slot st).link l =
      { s.link l with replies := (s.link l).replies.map (fun y => if y.slot = slot then { y with state := st } else y) } :=
  ⟨fun k hk => (s.finish_link l slot st k).trans (if_neg hk), (s.finish_link l slot st l).trans (if_pos rfl)⟩

/-! ### The amount (R59) -/

section
variable {amount limit exposure : Nat} {allowPartial : Bool}

theorem standInFor_none (h : limit - exposure = 0 ∨ limit - exposure < amount ∧ allowPartial = false) :
    standInFor amount limit exposure allowPartial = none := by
  unfold standInFor
  rcases h with h | ⟨hlt, rfl⟩
  · exact if_pos (Nat.sub_eq_zero_iff_le.1 h)
  · split
    · rfl
    · rw [if_neg (not_le.2 hlt), if_neg Bool.false_ne_true]

theorem standInFor_some (h0 : 0 < limit - exposure) (h : amount ≤ limit - exposure ∨ allowPartial = true) :
    standInFor amount limit exposure allowPartial = some (min amount (limit - exposure), decide (limit - exposure < amount)) := by
  unfold standInFor
  rw [if_neg (not_le.2 (Nat.lt_of_sub_pos h0))]
  by_cases hle : amount ≤ limit - exposure
  · rw [if_pos hle, min_eq_left hle, decide_eq_false (not_lt.2 hle)]
  · rw [if_neg hle, if_pos (h.resolve_left hle), min_eq_right (not_le.1 hle).le, decide_eq_true (not_le.1 hle)]

end

/-! ### The approval (R120, R133) -/

/-- R120: the exposure of a card after a stand-in approval of `x`. -/
def Exposure.raised (x : Nat) (old : Exposure) : Exposure := ⟨old.amount + x, min (old.count + 1) 65535⟩

/-- R120: the STAND-IN record of an approval of `x`. -/
def standInDraft (card x : Nat) (origin : Option Origin) : Draft :=
  { kind := .standIn, card := card, origin := origin, bonusDelta := 0, coreDelta := -(x : Int), forfeited := none, undone := none }

/-- R120: the reply to a stand-in approval of `x`, with the STAND-IN flag and no free balance figure. -/
def standInReply (m : TillMsg) (x : Nat) (partly : Bool) : TillReply :=
  { blankReply m with outcome := if partly then .partly else .approved, standIn := true, approved := x, core := x }

/-- R63, R120: the undo record of a stand-in approval of `x`, which is made in no stay. -/
def State.standInUndo (s : State) (card x : Nat) (origin : Option Origin) : UndoRecord :=
  { card := card, effect := .standIn x s.date, stay := none, sequence := some s.journal.nextSeq, origin := origin }

/-- R120: a stand-in approval of `x` is counted, and STAND-IN is raised with the card's new exposure. -/
def State.tellStandIn (s : State) (card x : Nat) (new : Exposure) (sequence : Nat) : State :=
  ({ s with counters := { s.counters with standIn := s.counters.standIn.bump } } : State).raise .standIn
    (.standIn card x new.amount new.count sequence)

section
variable {l card x : Nat} {e : ReplyEntry} {p : Program} {s : State} {partly : Bool}

/-- R120: the steps of a stand-in approval that has been admitted. -/
theorem applyStandIn_unrefusing : applyStandIn l e p card x partly s.unrefusing =
    gate l e (some p) (standInReply e.msg x partly) (s.standInUndo card x (originOf e s)) s.journal.nextSeq
      ((joinUndoable (standInDraft card x (originOf e s)) (s.setExposure card ((s.exposure card).raised x)).unrefusing).tellStandIn card x
        ((s.exposure card).raised x) s.journal.nextSeq) := rfl

/-- R120, R133: what a stand-in approval leads to for a card that is in no way and has no fetch. -/
theorem applyStandIn_absent (hr : s.recordOf card = none) (hf : s.fetchFor card = none) :
    ∃ events out, events.pending.getLsbD 9 = true ∧ applyStandIn l e p card x partly s.unrefusing =
      ({ s with
        exposures := (s.setExposure card ((s.exposure card).raised x)).exposures
        journal := s.journal.withUndoable ((standInDraft card x (originOf e s)).record s), events := events, out := out
        counters := { s.counters with standIn := s.counters.standIn.bump } } : State).finish l e.slot
          (gatedBy p.limits.gating s.limits.gate s.journal.nextSeq (standInReply e.msg x partly)
            (s.standInUndo card x (originOf e s))) := by
  obtain ⟨events, out, hjoin⟩ := joinUndoable_absent (s := s.setExposure card ((s.exposure card).raised x))
    (d := standInDraft card x (originOf e s)) hr hf
  rw [applyStandIn_unrefusing, gate_under, hjoin]
  exact ⟨{ events with pending := events.pending ||| Event.standIn.bit }, _, pending_raised events.pending .standIn, rfl⟩

end

/-! ### The decision (R59) -/

section
variable {l card : Nat} {e : ReplyEntry} {p : Program} {s : State} (hp : s.programOf card = some p)
include hp

theorem standInDecision_declined (h : standInFor (amountOf e.msg) p.limits.standInLimit (s.exposure card).amount (partialAllowed e.msg) =
    none) : standInDecision l e card s = decline l e .unavailable none s := by
  unfold standInDecision; rw [State.underProgram_found hp, h]

/-- R59, R119, R126: an amount is approved where the exposure table has an entry for the card or a place for one, and the journal room. -/
theorem standInDecision_approved {x : Nat} {partly : Bool}
    (h : standInFor (amountOf e.msg) p.limits.standInLimit (s.exposure card).amount (partialAllowed e.msg) = some (x, partly))
    (hroom : s.exposure card ≠ ⟨0, 0⟩ ∨ s.exposures.cells.length < 2048)
    (hj : s.journal.records.length + s.journal.reserved + 2 ≤ 4096) :
    standInDecision l e card s = applyStandIn l e p card x partly s.unrefusing := by
  have hopen : ¬ (s.exposure card = Exposure.none ∧ Config.exposures ≤ s.exposures.cells.length) := fun ⟨hnone, hfull⟩ =>
    hroom.elim (fun k => k hnone) (fun k => (not_lt.2 hfull) k)
  unfold standInDecision; rw [State.underProgram_found hp, h]; dsimp only
  rw [if_neg hopen, State.admitted_room hj]

end

theorem serveTimedOut_redeem {card l : Nat} {e : ReplyEntry} (h : e.msg.kind = .redeem) (s : State) :
    serveTimedOut card l e s = standInDecision l e card s := by
  unfold serveTimedOut; rw [h]

/-- R140: the till fields of a request that noted its till. -/
theorem originOf_noted {e : ReplyEntry} {n : NotedTill} (h : e.noted = some n) (s : State) :
    originOf e s = some (s.tillFields n e.msg) := by
  unfold originOf; rw [h]; rfl

theorem standInReply_redeem {m : TillMsg} (h : m.kind = .redeem) (x : Nat) (partly : Bool) : standInReply m x partly =
    { lane := m.lane, kind := 4#8, outcome := if partly then .partly else .approved, reason := none, training := false, standIn := true
      hostDecided := false, free := none, approved := x, bonus := 0, core := x, ref := m.tillRef, report := ShiftReport.zero } := by
  unfold standInReply blankReply replyRef; rw [h]; rfl

/-- Settles O43, from the amount that the room allows and from what an approval of it leads to. -/
theorem standInTakesTheRoomThatIsLeft : Obligations.StandInTakesTheRoomThatIsLeft := by
  intro l card e n p s hn hb hk hp hway hf hroom hj left may
  rw [serveTimedOut_redeem hk]
  refine ⟨fun hnone => ?_, fun hleft hfits => ?_⟩
  · rw [standInDecision_declined hp (standInFor_none hnone), decline_unbound hb]
  · have hr : s.recordOf card = none := by unfold State.recordOf; rw [hway]
    obtain ⟨events, out, hraised, happly⟩ := applyStandIn_absent (l := l) (e := e) (p := p) (x := min e.msg.amount.toNat left)
      (partly := decide (left < e.msg.amount.toNat)) hr hf
    rw [standInDecision_approved hp (standInFor_some hleft hfits) hroom hj]
    simp only [originOf_noted hn, standInReply_redeem hk, decide_eq_true_eq] at happly
    intro x joined undo reply t
    have ht : t = _ := happly
    rw [ht]
    obtain ⟨hothers, hlink⟩ := State.finish_links _ l e.slot _
    exact ⟨rfl, Table.get_set_same _ _ _ _, fun c hc => Table.get_set_other _ _ _ hc, hothers, hraised, hlink⟩

end Sys2Proof.Machine
end

section
/-! A request that hits a resident record, and the forfeit of an expired bonus at its touch. -/

namespace Sys2Proof.Machine

/-! ### The hit (R4, R7, R11) -/

section
variable {l : Nat} {e : ReplyEntry} {card stay : Nat} {r : CardRecord} {s : State}

theorem lookup_hit {onMiss : State → State} (hr : s.recordOf card = some (r, stay)) (hv : r.verifies = true) :
    lookup l e card onMiss s = evaluate l e card s := by
  obtain ⟨no, hf⟩ := State.recordOf_some hr
  unfold lookup; rw [hf]; dsimp only; rw [State.readRecord_good hr hv]

/-- R6, R7: a request that hits is evaluated. -/
theorem directoryDecision_hit (h : s.Hit card r stay) : directoryDecision l e card s = evaluate l e card s := by
  rw [directoryDecision_direct h.direct]
  rcases h.mode with hm | hm <;> rw [hm] <;> exact lookup_hit h.record h.verified

theorem State.Found.not_flushing (h : s.Found card r stay) : s.dirMode.isFlushing = false := by
  rcases h.mode with hm | hm <;> rw [hm] <;> rfl

theorem State.touch_eq (s : State) (card : Nat) : s.touch card = { s with dir := (s.touch card).dir } := by
  unfold State.touch; split <;> rfl

theorem State.touch_others (s : State) (card : Nat) : s.otherSets (s.touch card) (setOf card) := by
  unfold State.touch; split
  · exact s.setDirSet_others _ _
  · exact fun _ _ => rfl

theorem State.Found.touch (h : s.Found card r stay) : (s.touch card).Found card r stay where
  mode := by rw [(s.touch_only card).dirMode]; exact h.mode
  record := (State.recordOf_touch h.apart card).trans h.record
  verified := h.verified
  apart := State.inOrder_touch h.apart
  unfetched := (State.fetchFor_congr (s.touch_only card).requests card).trans h.unfetched

/-- A way moved to the most recently used place stands last. -/
theorem DirSet.getLast?_toMru {n : Nat} {d : DirSet} (h : d.inOrder n) {w : Way} (hw : w ∈ d.ways) :
    (d.toMru w.no).ways.getLast? = some w := by
  have hmem : w ∈ d.ways.filter (fun v => decide (v.no = w.no)) := List.mem_filter.2 ⟨hw, decide_eq_true rfl⟩
  have hlast := List.getLast_mem (List.ne_nil_of_mem hmem)
  obtain ⟨hv, hno⟩ := List.mem_filter.1 hlast
  unfold DirSet.toMru; dsimp only
  rw [List.getLast?_append_of_ne_nil _ (List.ne_nil_of_mem hmem), List.getLast?_eq_some_getLast (List.ne_nil_of_mem hmem),
    DirSet.way_unique h hv hw (of_decide_eq_true hno)]

theorem State.Found.mostRecent_touch (h : s.Found card r stay) : (s.touch card).mostRecent card := by
  obtain ⟨no, hf⟩ := State.recordOf_some h.record
  obtain ⟨hmem, hcard⟩ := DirSet.holding_some hf
  unfold State.touch; rw [hf]; dsimp only
  unfold State.mostRecent; rw [State.setDirSet_dirSet, if_pos rfl, DirSet.getLast?_toMru h.apart hmem]
  exact hcard

/-! ### A written record and a journal record that joins with it (R2, R128) -/

/-- R4: the writing of a record moves no way. -/
theorem State.mostRecent_writeRecord (hr : s.recordOf card = some (r, stay)) (f : CardRecord → CardRecord) (hc : (f r).data.card = card)
    (hm : s.mostRecent card) : (s.writeRecord card f).mostRecent card := by
  obtain ⟨no, hf⟩ := State.recordOf_some hr
  unfold State.mostRecent at hm
  obtain ⟨w, hw, hwc⟩ := Option.bind_eq_some_iff.1 hm
  unfold State.writeRecord; rw [hf]; dsimp only
  unfold State.mostRecent DirSet.put
  rw [State.setDirSet_dirSet, if_pos rfl, List.getLast?_map, hw]
  dsimp only [Option.map_some, Option.bind_some]
  split
  · exact congrArg some hc
  · exact hwc

theorem State.mostRecent_joinRecord {d : Draft} (hr : s.recordOf d.card = some (r, stay)) (hv : r.verifies = true)
    (hf : s.fetchFor d.card = none) (hm : s.mostRecent d.card) : (s.joinRecord d).mostRecent d.card := by
  have hcard : r.data.card = d.card := State.recordOf_card hr
  have hwritten : ((s.appendRecord (d.record s)).writeUnposted d.card (fun n => n + 1)).mostRecent d.card :=
    State.mostRecent_writeRecord (s := s.appendRecord (d.record s)) hr _ hcard hm
  rw [State.joinRecord_resident hr hv hf]
  exact State.mostRecent_congr (State.warnHigh_only _).dir hwritten

/-- R2, R128: what the writing of a record's fields leads to with the joining of a journal record of the card. -/
theorem State.Found.written_joined (h : s.Found card r stay) {f : CardData → CardData} (hc : (f r.data).card = card) {d : Draft}
    (hd : d.card = card) {t : State} (ht : (s.writeData card f).joinRecord d = t) :
    t = { s with
      dir := t.dir, events := t.events, out := t.out
      journal := { s.journal with
        records := s.journal.records ++ [d.record s], nextSeq := nextSequence s.journal.nextSeq
        highArmed := s.journal.highArmed && decide (s.journal.records.length ≠ 3072) } } ∧
    s.wrote t card (sealRecord (f r.data) (r.unposted + 1)) stay ∧ (s.mostRecent card → t.mostRecent card) ∧
    (s.journal.records.length ≠ 3072 → t.events = s.events ∧ t.out = s.out ++ [.journal (d.record s) 0]) := by
  subst hd
  have hwrote := State.wrote_writeData h.apart h.record f hc
  have hset := State.inOrder_writeData h.apart h.record f hc
  have hrecent : s.mostRecent d.card → (s.writeData d.card f).mostRecent d.card := State.mostRecent_writeRecord h.record _ hc
  obtain ⟨dir, hdir⟩ : ∃ dir, s.writeData d.card f = { s with dir := dir } := ⟨_, State.writeRecord_eq _ _ _⟩
  rw [hdir] at ht hwrote hset hrecent
  have hrecord := hwrote.1
  have hfetch : ({ s with dir := dir } : State).fetchFor d.card = none := (State.fetchFor_congr (s := s) rfl d.card).trans h.unfetched
  have hframe := State.joinRecord_eq hrecord (sealRecord_verifies _ _) hfetch
  have hjoined := State.wrote_joinRecord hrecord (sealRecord_verifies _ _) hfetch hset
  have hquiet := State.joinRecord_quiet hrecord (sealRecord_verifies _ _) hfetch
  have hlast := fun hm => State.mostRecent_joinRecord hrecord (sealRecord_verifies _ _) hfetch (hrecent hm)
  rw [State.joinRecord_journal] at hframe
  subst ht
  exact ⟨hframe, hwrote.trans hjoined, hlast, hquiet⟩

/-! ### The forfeit test (R58, R127, R138) -/

/-- R58: the FORFEIT record of an amount. -/
def forfeitDraft (card amount : Nat) : Draft :=
  { kind := .forfeit, card := card, origin := none, bonusDelta := -(amount : Int), coreDelta := 0, forfeited := none, undone := none }

/-- R58: what no hold holds of an expired bonus is forfeited, where the journal has room for its record. -/
theorem State.Found.forfeitTest_eq (h : s.Found card r stay) : s.forfeitTest card =
    if (inDate r.data s.date = false ∧ s.heldBonus card < r.data.bonus) ∧ s.journal.hasRoom 1 = true then
      (s.writeData card (fun d => { d with bonus := s.heldBonus card })).joinRecord
        (forfeitDraft card (r.data.bonus - s.heldBonus card))
    else s := by
  unfold State.forfeitTest; rw [State.readRecord_good h.record h.verified]
  simp only [Bool.and_eq_true, Bool.not_eq_true', decide_eq_true_eq]
  rfl

theorem inDate_expired {d : CardData} {date : Nat} (h : ∀ day ∈ d.expiry, day < date) : inDate d date = false := by
  unfold inDate; split
  · next day hday => exact decide_eq_false (not_le.2 (h day hday))
  · rfl

/-- R43: a bonus that has expired is not free. -/
theorem State.freeBonus_expired {d : CardData} (h : inDate d s.date = false) : s.freeBonus d = 0 := by
  unfold State.freeBonus bonusUsable; rw [h]; rfl

/-! ### The ENQUIRY (R65) -/

/-- R65, R44: the reply to an ENQUIRY that meets the record's fields. -/
def State.enquiryReply (s : State) (m : TillMsg) (d : CardData) : TillReply :=
  if d.status = .blocked then declinedReply m .cardBlocked (some (s.freeFigure d))
  else approvedReply m false 0 (s.freeBonus d) (s.freeCore d) (s.freeFigure d)

theorem evalEnquiry_unbound (hb : e.bound = .free) (d : CardData) :
    evalEnquiry l e d s = s.finish l e.slot (.ready (s.enquiryReply e.msg d) none none) := by
  unfold evalEnquiry State.enquiryReply
  split
  · exact decline_unbound hb _ _ _ _
  · rfl

theorem State.withRecord_found {act : CardData → Nat → State → State} (h : (s.forfeitTest card).recordOf card = some (r, stay)) :
    s.withRecord l e card act = act r.data stay (s.forfeitTest card) := by
  unfold State.withRecord; dsimp only; rw [h]

theorem evaluate_enquiry {p : Program} (hk : e.msg.kind = .enquiry) (hp : s.programOf card = some p) :
    evaluate l e card s = (s.touch card).withRecord l e card (fun d _ => evalEnquiry l e d) := by
  have htouch : (s.touch card).programOf card = some p := by rw [State.touch_eq]; exact hp
  unfold evaluate; dsimp only; rw [hk]; exact State.underProgram_found htouch _ _ _

/-- R65: what is told of a card whose bonus has expired: none of it is free. -/
theorem State.enquiryReply_expired {m : TillMsg} {d : CardData} {core : Nat} (hk : m.kind = .enquiry) (hd : inDate d s.date = false)
    (hcore : s.freeCore d = core) : s.enquiryReply m d = if d.status = .blocked then declinedReply m .cardBlocked (some core) else
      { lane := m.lane, kind := 3#8, outcome := .approved, reason := none, training := false, standIn := false, hostDecided := false
        free := some core, approved := 0, bonus := 0, core := core, ref := m.tillRef, report := ShiftReport.zero } := by
  unfold State.enquiryReply approvedReply blankReply replyRef State.freeFigure
  rw [State.freeBonus_expired hd, hcore, Nat.zero_add, hk]; rfl

end

/-! ### The request taken off, its card's way touched -/

section
variable {s t u : State} {l : Fin 8} {m : TillMsg} {rest : List TillMsg} {n : NotedTill} {card stay : Nat} {r : CardRecord}

/-- `t` is the part `s` once the request at the front of link `l`, bound to nothing, has been taken off and has touched the card's way. -/
structure State.Touched (s t : State) (l : Nat) (m : TillMsg) (rest : List TillMsg) (n : NotedTill) (card : Nat) (r : CardRecord)
    (stay : Nat) : Prop where
  frame : ∃ dir links, t = { s with dir := dir, links := links, nextSlot := s.nextSlot + 1 }
  found : t.Found card r stay
  recent : t.mostRecent card
  sets : s.otherSets t (setOf card)
  records : ∀ c, t.recordOf c = s.recordOf c
  taken : s.takenOff t l m rest n .free .reserved

theorem State.Hit.touched (h : s.Hit card r stay) :
    s.Touched ((s.take l (s.askEntry m n .free) rest).touch card) l m rest n card r stay := by
  have hfound : (s.take l (s.askEntry m n .free) rest).Found card r stay := ⟨h.mode, h.record, h.verified, h.apart, h.unfetched⟩
  obtain ⟨hothers, hlink⟩ := (State.reached_free (s := s) (l := l) (m := m) (rest := rest) (n := n)).taken
  have hlinks : ∀ k, ((s.take l (s.askEntry m n .free) rest).touch card).link k = (s.take l (s.askEntry m n .free) rest).link k :=
    fun k => by unfold State.link; rw [(State.touch_only _ card).links]
  exact
    { frame := ⟨_, _, State.touch_eq _ card⟩
      found := hfound.touch
      recent := hfound.mostRecent_touch
      sets := State.touch_others _ card
      records := State.recordOf_touch hfound.apart
      taken := ⟨fun k hk => (hlinks k).trans (hothers k hk), (hlinks l).trans hlink⟩ }

/-- R163: the entry of the request, at the newest end of its queue, is completed there. -/
theorem State.takenOff_finish (h : s.Taking l m rest) (ht : s.takenOff t l m rest n .free .reserved) (hu : u.links = t.links)
    (st : ReplyState) : s.takenOff (u.finish l s.nextSlot st) l m rest n .free st := by
  obtain ⟨hothers, hlink⟩ := ht
  have hlinks : ∀ k, u.link k = t.link k := fun k => by unfold State.link; rw [hu]
  refine ⟨fun k hk => ?_, ?_⟩
  · rw [State.finish_link, if_neg hk, hlinks, hothers k hk]
  · have hlast := replies_finish_last (e := s.askEntry m n .free) (fun x hx => (h.fresh x hx).ne) (fun x => { x with state := st })
    rw [State.finish_link, if_pos rfl, hlinks, hlink]
    exact congrArg (fun replies => { s.link l with inbound := rest, replies := replies }) hlast

/-- R4, R163: what is left of the directory and the links when the touched part `t` goes on to `u` at the card alone and the request's
reply is completed. -/
theorem State.Touched.finished (ht : s.Touched t l m rest n card r stay) (h : s.Taking l m rest) (hu : u.links = t.links)
    (hsets : t.otherSets u (setOf card)) (hcards : t.otherCards u card) (hrecent : u.mostRecent card) (st : ReplyState) :
    s.otherLinks (u.finish l s.nextSlot st) l ∧ s.otherSets (u.finish l s.nextSlot st) (setOf card) ∧
    s.otherCards (u.finish l s.nextSlot st) card ∧ (u.finish l s.nextSlot st).mostRecent card ∧
    (u.finish l s.nextSlot st).link l = s.takenLink l m rest (some n) .free st := by
  obtain ⟨hothers, hlink⟩ := State.takenOff_finish h ht.taken hu st
  exact ⟨hothers, fun k hk => (hsets k hk).trans (ht.sets k hk), fun c hc => (hcards c hc).trans (ht.records c),
    State.mostRecent_congr rfl hrecent, hlink⟩

/-- R65, R7: an ENQUIRY that hits is evaluated against the record that the forfeit test leaves. -/
theorem exec_enquiry_hit {p : Program} {k : Nat} (h : s.Trading l m rest n) (hk : m.kind = .enquiry)
    (hc : cardOfBcd m.card = some card) (hp : s.programOf card = some p) (hh : s.Hit card r stay)
    (ht : (s.take l (s.askEntry m n .free) rest).touch card = t) (hu : t.forfeitTest card = u) {x : CardRecord}
    (hx : u.recordOf card = some (x, k)) :
    exec (.enquiry l) s = .next (u.finish l s.nextSlot (.ready (u.enquiryReply m x.data) none none)) := by
  have hhit : (s.take l (s.askEntry m n .free) rest).Hit card r stay :=
    ⟨⟨hh.mode, hh.record, hh.verified, hh.apart, hh.unfetched⟩, hh.direct⟩
  have htaken : exec (.enquiry l) s = .next (evaluate l (s.askEntry m n .free) card (s.take l (s.askEntry m n .free) rest)).settle := by
    rw [← directoryDecision_hit hhit]
    refine congrArg Host.Outcome.next ((takeOff_money h (decide_eq_true hk) (congrArg Option.isSome hc) rfl).trans ?_)
    exact congrArg State.settle (withCardProgram_reaches hc (Option.isSome_iff_exists.2 ⟨p, hp⟩))
  have hmode : (evaluate l (s.askEntry m n .free) card (s.take l (s.askEntry m n .free) rest)).dirMode.isFlushing = false := by
    rw [(evaluate_only _ _ _ _).dirMode]; exact hh.not_flushing
  have hprogram : (s.take l (s.askEntry m n .free) rest).programOf card = some p := hp
  subst ht hu
  rw [htaken, State.settle_of_not_flushing hmode, evaluate_enquiry (e := s.askEntry m n .free) hk hprogram, State.withRecord_found hx]
  exact congrArg Host.Outcome.next (evalEnquiry_unbound rfl x.data)

end

/-- Settles O33: a forfeit is the writing of the record with a FORFEIT record, or none; either way the reply counts no bonus. -/
theorem anExpiredBonusIsForfeitedAtATouch : Obligations.AnExpiredBonusIsForfeitedAtATouch := by
  intro l m rest n card p r stay s h hk hc hp hh hexpired held core hheld joined reply replied
  have hcard : r.data.card = card := State.recordOf_card hh.record
  generalize htouch : (s.take l (s.askEntry m n .free) rest).touch card = t
  have ht : s.Touched t l m rest n card r stay := htouch ▸ hh.touched
  obtain ⟨dir, links, hframe⟩ := ht.frame
  have hdate : t.date = s.date := by rw [hframe]; rfl
  have hholds : t.holds = s.holds := by rw [hframe]
  have hjournal : t.journal = s.journal := by rw [hframe]
  have hbonus : t.heldBonus card = held := by unfold State.heldBonus State.holdsOf; rw [hholds]
  have hdue : inDate r.data t.date = false := by rw [hdate]; exact inDate_expired hexpired
  have htest := ht.found.forfeitTest_eq
  rw [hjournal, hbonus] at htest
  have honly := State.forfeitTest_only t card
  generalize hu : t.forfeitTest card = u at htest honly
  have hudate : u.date = t.date := by unfold State.date; rw [honly.clock]
  have huholds : u.holds = s.holds := honly.holds.trans hholds
  -- The reply tells of the free core alone, whatever bonus the forfeit test has left the record.
  have hreplied : ∀ (x : CardRecord) (b : Nat), u.recordOf card = some (x, stay) → x.data = { r.data with bonus := b } →
      t.otherSets u (setOf card) → t.otherCards u card → u.mostRecent card →
      ∃ after, exec (.enquiry l) s = .next { u with links := after } ∧ replied { u with links := after } := by
    intro x b hx hdata hsets hcards hrecent
    have hcore : u.freeCore { r.data with bonus := b } = core := by
      unfold State.freeCore State.heldCore State.holdsOf; rw [huholds]; dsimp only; rw [hcard]
    have hexec := exec_enquiry_hit h hk hc hp hh htouch hu hx
    rw [hdata, State.enquiryReply_expired (d := { r.data with bonus := b }) hk (hudate ▸ hdue) hcore] at hexec
    exact ⟨_, hexec, ht.finished h.toTaking honly.links hsets hcards hrecent _⟩
  refine ⟨fun hroom => ?_, fun hfull => ?_⟩
  · rw [if_pos ⟨⟨hdue, hheld⟩, (Journal.hasRoom_iff _ _).2 hroom⟩] at htest
    have hjoined : (forfeitDraft card (r.data.bonus - held)).record t = joined := by rw [hframe]; rfl
    obtain ⟨huframe, ⟨hrecord, hcards, hsets, -⟩, hrecent, hquiet⟩ := ht.found.written_joined hcard rfl htest.symm
    rw [hjoined, hjournal] at huframe
    rw [hjoined, hjournal] at hquiet
    obtain ⟨after, hexec, hafter⟩ := hreplied _ held hrecord rfl hsets hcards (hrecent ht.recent)
    refine ⟨_, hexec, ?_, hafter, hrecord, fun hlen => ?_⟩
    · rw [huframe, hframe]
    · rw [hframe] at hquiet
      exact hquiet hlen
  · rw [if_neg fun ⟨_, hroom⟩ => absurd ((Journal.hasRoom_iff _ _).1 hroom) (not_le.2 hfull)] at htest
    subst htest
    obtain ⟨after, hexec, hafter⟩ := hreplied r r.data.bonus ht.found.record rfl (fun _ _ => rfl) (fun _ _ => rfl) ht.recent
    refine ⟨_, hexec, ?_, hafter, ht.found.record⟩
    rw [hframe]

end Sys2Proof.Machine
end

section
/-! The first checks of the seven money requests: their fields, their amount, the training answer and the till's state. -/

namespace Sys2Proof.Machine

/-! ### The checks as each kind makes them (R61, R75, R85, R88, R92) -/

/-- The seven kinds of money request. -/
def isMoney : TillKind → Bool
  | .openTill | .closeTill | .unknown _ => false
  | _ => true

/-- R61, R85, R88: the fields that a request of the message's kind reads are in good form. -/
def moneyFieldsOk (m : TillMsg) : Bool :=
  match m.kind with
  | .enquiry => cardOk m
  | .redeem => cardOk m && partialOk m && tillRefOk m
  | .reload => cardOk m && tillRefOk m
  | .reverse => tillRefOk m
  | .hold => cardOk m && partialOk m && holdRefOk m
  | .complete => holdRefOk m && tillRefOk m
  | .release => holdRefOk m
  | _ => false

/-- R61: the amount of a request that reads one is in range. -/
def moneyAmountOk (m : TillMsg) : Bool :=
  match m.kind with
  | .redeem | .hold | .reload | .complete => amountOk m
  | _ => true

/-- R80, R99: the amount that a training answer approves. -/
def trainingAmount (m : TillMsg) : Nat :=
  match m.kind with
  | .redeem | .hold | .reload | .complete => amountOf m
  | _ => 0

/-- The way of a request that has passed its first checks. -/
def moneyPath (l : Nat) (e : ReplyEntry) (n : NotedTill) : State → State :=
  match e.msg.kind with
  | .enquiry | .redeem | .reload => withCardProgram l e
  | .hold => holdFrom l e n
  | .complete | .release => settleHold l e n
  | .reverse => reverseFrom l e n
  | _ => id

theorem partialOk_iff (m : TillMsg) : partialOk m = true ↔ m.allowPartial = 0#8 ∨ m.allowPartial = 1#8 := by
  refine ⟨fun h => ?_, partialOk_of⟩
  unfold partialOk yesNo at h
  split at h
  · next h0 => exact .inl h0
  · split at h
    · next h1 => exact .inr h1
    · cases h

theorem moneyFieldsOk_iff (m : TillMsg) : moneyFieldsOk m = true ↔ fieldsGood m := by
  unfold moneyFieldsOk fieldsGood
  cases m.kind <;> simp [partialOk_iff, cardOk, cardNo, tillRefOk, holdRefOk, and_assoc]

theorem amountOk_iff (m : TillMsg) : amountOk m = true ↔ 1 ≤ m.amount.toNat ∧ m.amount.toNat ≤ 9999999 := by
  unfold amountOk; rw [Bool.and_eq_true, decide_eq_true_iff, decide_eq_true_iff]; rfl

theorem moneyAmountOk_iff (m : TillMsg) :
    moneyAmountOk m = true ↔ (readsAmount m → 1 ≤ m.amount.toNat ∧ m.amount.toNat ≤ 9999999) := by
  unfold moneyAmountOk readsAmount
  cases m.kind <;> simp [amountOk_iff]

theorem isMoney_of_fieldsGood {m : TillMsg} (h : fieldsGood m) : isMoney m.kind = true := by
  unfold fieldsGood at h
  cases hk : m.kind
  case openTill => rw [hk] at h; exact h.elim
  case closeTill => rw [hk] at h; exact h.elim
  case unknown code => rw [hk] at h; exact h.elim
  all_goals rfl

section
variable {s : State} {l : Fin 8} {m : TillMsg} {rest : List TillMsg} {n : NotedTill}

/-- R162: a request at the front of an UP link whose lane is mapped is taken off, whatever its till and the till's state. -/
theorem takeOff_mapped (h : s.Taking l m rest) (hn : s.resolve l m.lane.toNat = some n) {want : TillKind → Bool}
    (hw : want m.kind = true) (act : ReplyEntry → NotedTill → State → State) :
    takeOff l want s act = act (s.askEntry m n .free) n (s.take l (s.askEntry m n .free) rest) := by
  unfold takeOff
  rw [State.takeable_of_taking h]; dsimp only
  rw [if_pos hw, State.newEntry_eq hn]; rfl

/-- R61: whatever its kind, a money request that is taken off meets its first checks. -/
theorem exec_money (h : s.Taking l m rest) (hn : s.resolve l m.lane.toNat = some n) (hm : isMoney m.kind = true) :
    exec (takeOffOf m.kind l) s = .next (moneyChecks l (s.askEntry m n .free) n (moneyFieldsOk m) (moneyAmountOk m) (trainingAmount m)
      (s.take l (s.askEntry m n .free) rest) (moneyPath l (s.askEntry m n .free) n)) := by
  unfold moneyFieldsOk moneyAmountOk trainingAmount moneyPath
  cases hk : m.kind
  case openTill => rw [hk] at hm; cases hm
  case closeTill => rw [hk] at hm; cases hm
  case unknown code => rw [hk] at hm; cases hm
  all_goals
    dsimp only [State.askEntry]
    rw [hk]
    exact congrArg Host.Outcome.next (takeOff_mapped h hn (decide_eq_true hk) _)

end

/-! ### What each check answers (R61, R80) -/

section
variable {l amount : Nat} {e : ReplyEntry} {n : NotedTill} {fields fits : Bool} {s : State} {act : State → State}

theorem moneyChecks_fields (hf : fields = false) :
    moneyChecks l e n fields fits amount s act = declineField l e (isTraining n.till) .badRequest s := by
  unfold moneyChecks; rw [hf]; rfl

theorem moneyChecks_amount (hf : fields = true) (ha : fits = false) :
    moneyChecks l e n fields fits amount s act = declineField l e (isTraining n.till) .badAmount s := by
  unfold moneyChecks; rw [hf, ha]; rfl

theorem moneyChecks_training (hf : fields = true) (ha : fits = true) (hn : n.till < 16) :
    moneyChecks l e n fields fits amount s act = ready l e (trainingReply e.msg amount) none s := by
  have ht : isTraining n.till = true := decide_eq_true hn
  unfold moneyChecks; rw [hf, ha, ht]; rfl

theorem moneyChecks_closed (hf : fields = true) (ha : fits = true) (hn : 16 ≤ n.till) (ho : (s.till n.till).isOpen = false) :
    moneyChecks l e n fields fits amount s act = decline l e .tillClosed none s := by
  have ht : isTraining n.till = false := decide_eq_false (not_lt.2 hn)
  unfold moneyChecks; rw [hf, ha, ht, ho]; rfl

/-- R61: an ordinary till's decline for a field is as any other. -/
theorem declineField_ordinary (hn : 16 ≤ n.till) (r : Reason) :
    declineField l e (isTraining n.till) r s = s.finish l e.slot (.ready (declinedReply e.msg r none) none none) := by
  have ht : isTraining n.till = false := decide_eq_false (not_lt.2 hn)
  unfold declineField; rw [ht]; rfl

end

section
variable {s : State} {l : Fin 8} {m : TillMsg} {rest : List TillMsg} {n : NotedTill}

/-- R162, R163: what a request leaves whose reply is READY as soon as it has been taken off. -/
theorem State.take_finish (h : s.Taking l m rest) (st : ReplyState) :
    let t := (s.take l (s.askEntry m n .free) rest).finish l s.nextSlot st
    t = { s with links := t.links, nextSlot := s.nextSlot + 1 } ∧ s.otherLinks t l ∧
      t.link l = s.takenLink l m rest (some n) .free st :=
  ⟨rfl, State.takenOff_finish h State.reached_free.taken rfl st⟩

end

/-- Settles O29: the training answer comes before the till's state. -/
theorem trainingTillsAreAnsweredAtOnce : Obligations.TrainingTillsAreAnsweredAtOnce := by
  intro l m rest n s h hn htill hfields hamount x
  have hx : trainingAmount m = x := by
    unfold trainingAmount
    cases hk : m.kind <;> simp [x, hk, amountOf]
  have hexec := exec_money h hn (isMoney_of_fieldsGood hfields)
  rw [moneyChecks_training ((moneyFieldsOk_iff m).2 hfields) ((moneyAmountOk_iff m).2 hamount) htill, hx] at hexec
  exact ⟨_, hexec, State.take_finish h _⟩

/-! ### What a request in good form has (R61, R85, R88) -/

section
variable {m : TillMsg} (h : fieldsGood m)
include h

theorem tillRef_of_fieldsGood (hk : m.kind = .redeem ∨ m.kind = .reload ∨ m.kind = .reverse ∨ m.kind = .complete) :
    m.tillRef ≠ 0#32 := by
  unfold fieldsGood at h
  rcases hk with hk | hk | hk | hk <;> rw [hk] at h
  · exact h.2.2
  · exact h.2
  · exact h
  · exact h.2

theorem holdRef_of_fieldsGood (hk : m.kind = .hold ∨ m.kind = .complete ∨ m.kind = .release) : m.holdRef ≠ 0#32 := by
  unfold fieldsGood at h
  rcases hk with hk | hk | hk <;> rw [hk] at h
  · exact h.2.2
  · exact h.1
  · exact h

theorem card_of_fieldsGood (hk : m.kind = .enquiry ∨ m.kind = .redeem ∨ m.kind = .hold ∨ m.kind = .reload) :
    (cardOfBcd m.card).isSome = true := by
  unfold fieldsGood at h
  rcases hk with hk | hk | hk | hk <;> rw [hk] at h
  · exact h
  · exact h.1
  · exact h.1
  · exact h.1

theorem allowPartial_of_fieldsGood (hk : m.kind = .redeem ∨ m.kind = .hold) : m.allowPartial = 0#8 ∨ m.allowPartial = 1#8 := by
  unfold fieldsGood at h
  rcases hk with hk | hk <;> rw [hk] at h
  · exact h.2.1
  · exact h.2.1

end

/-- Settles O30: each check in its order, on the state the take-off leaves. -/
theorem moneyRequestsFailTheirFirstChecks : Obligations.MoneyRequestsFailTheirFirstChecks := by
  intro l m rest n s h hn htill declines
  have hdeclines : ∀ reason, exec (takeOffOf m.kind l) s = .next ((s.take l (s.askEntry m n .free) rest).finish l s.nextSlot
      (.ready (declinedReply m reason none) none none)) → declines reason := fun reason hexec => ⟨_, hexec, State.take_finish h _⟩
  have hbad : isMoney m.kind = true → ¬ fieldsGood m → declines .badRequest := fun hm hf => by
    have hexec := exec_money h hn hm
    rw [moneyChecks_fields (Bool.eq_false_iff.2 (mt (moneyFieldsOk_iff m).1 hf)), declineField_ordinary htill] at hexec
    exact hdeclines _ hexec
  refine ⟨fun hk h0 => hbad ?_ fun hf => tillRef_of_fieldsGood hf hk h0, fun hk h0 => hbad ?_ fun hf => holdRef_of_fieldsGood hf hk h0,
    fun hk hc => hbad ?_ fun hf => ?_, fun code hk => ?_,
    fun hk h0 h1 => hbad ?_ fun hf => (allowPartial_of_fieldsGood hf hk).elim h0 h1, fun hf => ?_⟩
  · rcases hk with hk | hk | hk | hk <;> rw [hk] <;> rfl
  · rcases hk with hk | hk | hk <;> rw [hk] <;> rfl
  · rcases hk with hk | hk | hk | hk <;> rw [hk] <;> rfl
  · have hcard := card_of_fieldsGood hf hk
    rw [hc] at hcard; cases hcard
  · have hexec : exec (takeOffOf m.kind l) s = .next (takeOff l isUnknown s
        (fun e n s => declineField l e (isTraining n.till) .badRequest s)) := by rw [hk]; rfl
    rw [takeOff_mapped h hn (by rw [hk]; rfl), declineField_ordinary htill] at hexec
    exact hdeclines _ hexec
  · rcases hk with hk | hk <;> rw [hk] <;> rfl
  · have hexec := exec_money h hn (isMoney_of_fieldsGood hf)
    have hfields := (moneyFieldsOk_iff m).2 hf
    refine ⟨fun hk hrange => ?_, fun hrange hclosed => ?_⟩
    · have hamount : moneyAmountOk m = false :=
        Bool.eq_false_iff.2 fun k => absurd ((moneyAmountOk_iff m).1 k hk) (by omega)
      rw [moneyChecks_amount hfields hamount, declineField_ordinary htill] at hexec
      exact hdeclines _ hexec
    · rw [moneyChecks_closed (s := s.take l (s.askEntry m n .free) rest) hfields ((moneyAmountOk_iff m).2 hrange) htill hclosed,
        decline_unbound rfl] at hexec
      exact hdeclines _ hexec

end Sys2Proof.Machine
end

section
/-! A request that is evaluated against a resident record, whatever it is bound to: what its decline leaves, and what an approval leaves
that makes an undoable journal record. -/

namespace Sys2Proof.Machine

/-! ### The request taken off, its card's way touched (R4, R162) -/

/-- `t` is the part `s` once the request at the front of link `l` has been taken off, bound as `b`, and has touched the card's way. -/
structure State.Met (s t : State) (l : Nat) (m : TillMsg) (rest : List TillMsg) (n : NotedTill) (b : Binding) (card : Nat) (r : CardRecord)
    (stay : Nat) : Prop where
  frame : ∃ dir links tills, t = { s.reached links tills with dir := dir }
  found : t.Found card r stay
  recent : t.mostRecent card
  sets : s.otherSets t (setOf card)
  records : ∀ c, t.recordOf c = s.recordOf c
  marks : s.marked t n b true
  taken : s.takenOff t l m rest n b .reserved

section
variable {s t u : State} {l : Nat} {m : TillMsg} {rest : List TillMsg} {n : NotedTill} {b : Binding} {card stay : Nat} {r : CardRecord}

theorem State.Reached.met (hr : s.Reached t l m rest n b) (h : s.Found card r stay) :
    s.Met (t.touch card) l m rest n b card r stay := by
  obtain ⟨⟨links, tills, rfl⟩, hmarks, hothers, hlink⟩ := hr
  have hfound : (s.reached links tills).Found card r stay := ⟨h.mode, h.record, h.verified, h.apart, h.unfetched⟩
  have hlinks : ∀ k, ((s.reached links tills).touch card).link k = (s.reached links tills).link k :=
    fun k => by unfold State.link; rw [(State.touch_only _ card).links]
  have htills : ∀ k, ((s.reached links tills).touch card).till k = (s.reached links tills).till k :=
    fun k => by unfold State.till; rw [(State.touch_only _ card).tills]
  exact
    { frame := ⟨_, links, tills, State.touch_eq _ card⟩
      found := hfound.touch
      recent := hfound.mostRecent_touch
      sets := State.touch_others (s.reached links tills) card
      records := State.recordOf_touch hfound.apart
      marks := fun k => (htills k).trans (hmarks k)
      taken := ⟨fun k hk => (hlinks k).trans (hothers k hk), (hlinks l).trans hlink⟩ }

/-- A request that is bound to nothing marks nothing. -/
theorem State.Touched.met (ht : s.Touched t l m rest n card r stay) : s.Met t l m rest n .free card r stay where
  frame := have ⟨dir, links, h⟩ := ht.frame; ⟨dir, links, s.tills, h⟩
  found := ht.found
  recent := ht.recent
  sets := ht.sets
  records := ht.records
  marks := fun _ => by obtain ⟨dir, links, rfl⟩ := ht.frame; rfl
  taken := ht.taken

theorem State.Touched.tills (ht : s.Touched t l m rest n card r stay) : t.tills = s.tills := by
  obtain ⟨dir, links, rfl⟩ := ht.frame; rfl

/-- R163: the entry of the request, at the newest end of its queue, is completed there, whatever it is bound to. -/
theorem State.takenOff_completed (hfresh : ∀ e ∈ (s.link l).replies, e.slot < s.nextSlot) (ht : s.takenOff t l m rest n b .reserved)
    (hu : u.links = t.links) (st : ReplyState) : s.takenOff (u.finish l s.nextSlot st) l m rest n b st := by
  obtain ⟨hothers, hlink⟩ := ht
  have hlinks : ∀ k, u.link k = t.link k := fun k => by unfold State.link; rw [hu]
  refine ⟨fun k hk => ?_, ?_⟩
  · rw [State.finish_link, if_neg hk, hlinks, hothers k hk]
  · have hlast := replies_finish_last (e := s.askEntry m n b) (fun x hx => (hfresh x hx).ne) (fun x => { x with state := st })
    rw [State.finish_link, if_pos rfl, hlinks, hlink]
    exact congrArg (fun replies => { s.link l with inbound := rest, replies := replies }) hlast

theorem State.marked_congr {on : Bool} (hu : u.tills = t.tills) (h : s.marked t n b on) : s.marked u n b on := fun k => by
  have hk : u.till k = t.till k := by unfold State.till; rw [hu]
  exact hk.trans (h k)

/-- R52: a RESERVED entry adds nothing to the pending amounts. -/
theorem State.undoRecords_takenOff (h : s.takenOff t l m rest n b .reserved) : t.undoRecords = s.undoRecords := by
  obtain ⟨hothers, hlink⟩ := h
  unfold State.undoRecords
  refine congrArg (fun f => linkNumbers.flatMap f) (funext fun k => ?_)
  by_cases hk : k = l
  · subst hk
    rw [hlink]
    exact (List.filterMap_append).trans (List.append_nil _)
  · rw [hothers k hk]

theorem State.Met.pendingSum (ht : s.Met t l m rest n b card r stay) (c : Nat) (part : Effect → Nat) :
    t.pendingSum c part = s.pendingSum c part := by
  unfold State.pendingSum; rw [State.undoRecords_takenOff ht.taken]

/-! What an evaluation reads is as it was before the take-off. -/

section
variable (ht : s.Met t l m rest n b card r stay)
include ht

theorem State.Met.journal : t.journal = s.journal := by obtain ⟨dir, links, tills, rfl⟩ := ht.frame; rfl

theorem State.Met.limits : t.limits = s.limits := by obtain ⟨dir, links, tills, rfl⟩ := ht.frame; rfl

theorem State.Met.date : t.date = s.date := by obtain ⟨dir, links, tills, rfl⟩ := ht.frame; rfl

theorem State.Met.freeBonus (d : CardData) : t.freeBonus d = s.freeBonus d := by obtain ⟨dir, links, tills, rfl⟩ := ht.frame; rfl

theorem State.Met.freeCore (d : CardData) : t.freeCore d = s.freeCore d := by obtain ⟨dir, links, tills, rfl⟩ := ht.frame; rfl

theorem State.Met.freeFigure (d : CardData) : t.freeFigure d = s.freeBonus d + s.freeCore d := by
  unfold State.freeFigure; rw [ht.freeBonus, ht.freeCore]

theorem State.Met.record (d : Draft) : d.record t = d.record s := by obtain ⟨dir, links, tills, rfl⟩ := ht.frame; rfl

theorem State.Met.originOf (c : Binding) : originOf (s.askEntry m n c) t = some (s.tillFields n m) := by
  obtain ⟨dir, links, tills, rfl⟩ := ht.frame
  exact originOf_noted rfl _

theorem State.Met.programOf (c : Nat) : t.programOf c = s.programOf c := by obtain ⟨dir, links, tills, rfl⟩ := ht.frame; rfl

theorem State.Met.nothingToForfeit (hn : s.NothingToForfeit r) : t.NothingToForfeit r := by
  obtain ⟨dir, links, tills, rfl⟩ := ht.frame; exact hn

end

/-! ### The forfeit test of a card with nothing to forfeit (R58) -/

theorem State.Found.forfeitTest_nothing (h : s.Found card r stay) (hn : s.NothingToForfeit r) : s.forfeitTest card = s := by
  have hcard : r.data.card = card := State.recordOf_card h.record
  rw [h.forfeitTest_eq, if_neg]
  rintro ⟨⟨hdate, hheld⟩, -⟩
  rcases hn with hn | hn
  · rw [hdate] at hn; cases hn
  · rw [hcard] at hn; exact absurd hheld (not_lt.2 hn)

/-- R45: an evaluation against a record with nothing to forfeit meets it as it stands. -/
theorem State.Met.withRecord (ht : s.Met t l m rest n b card r stay) (hn : s.NothingToForfeit r) (e : ReplyEntry)
    (act : CardData → Nat → State → State) : t.withRecord l e card act = act r.data stay t := by
  have hsame : t.forfeitTest card = t := ht.found.forfeitTest_nothing (ht.nothingToForfeit hn)
  rw [State.withRecord_found (r := r) (stay := stay) (by rw [hsame]; exact ht.found.record), hsame]

/-! ### Declines (R62, R79) -/

/-- R62: a decline changes the links alone, and the tills where a REVERSE ends. -/
theorem decline_eq (l : Nat) (e : ReplyEntry) (reason : Reason) (free : Option Nat) (s : State) : decline l e reason free s =
    { s with
      dir := (decline l e reason free s).dir, links := (decline l e reason free s).links, tills := (decline l e reason free s).tills } := by
  unfold decline State.clearMark; split <;> rfl

theorem decline_dir (l : Nat) (e : ReplyEntry) (reason : Reason) (free : Option Nat) (s : State) :
    (decline l e reason free s).dir = s.dir := (decline_only s l e reason free).dir

/-- R62, R79, R163: what is left when a request that has met its card's record is declined, in a part `u` that differs from the touched
part `t` neither in the directory nor at the links and tills. -/
theorem State.Met.refused (ht : s.Met t l m rest n b card r stay) (hfresh : ∀ e ∈ (s.link l).replies, e.slot < s.nextSlot)
    (hdir : u.dir = t.dir) (hlinks : u.links = t.links) (htills : u.tills = t.tills) (reason : Reason) (free : Option Nat) :
    let v := decline l (s.askEntry m n b) reason free u
    s.marked v n b false ∧ s.otherSets v (setOf card) ∧ s.otherCards v card ∧ v.mostRecent card ∧ v.recordOf card = some (r, stay) ∧
    s.takenOff v l m rest n b (.ready (declinedReply m reason free) none none) := by
  have hsame : (decline l (s.askEntry m n b) reason free u).dir = t.dir := (decline_dir _ _ _ _ _).trans hdir
  have hrecords : ∀ c, (decline l (s.askEntry m n b) reason free u).recordOf c = s.recordOf c := fun c =>
    (State.recordOf_congr (State.findWay_congr hsame c)).trans (ht.records c)
  refine ⟨State.marked_clearMark (State.marked_congr htills ht.marks), fun k hk => (State.dirSet_congr hsame k).trans (ht.sets k hk),
    fun c _ => hrecords c, State.mostRecent_congr hsame ht.recent, ?_, ?_⟩
  · rw [hrecords, ← ht.records]; exact ht.found.record
  · exact State.takenOff_completed hfresh ht.taken (((State.clearMark_only u _).links).trans hlinks) _

/-- R126: a request is declined SYSTEM-BUSY where the journal has no room for its record and its undo slot. -/
theorem State.admitted_full (h : 4096 < s.journal.records.length + s.journal.reserved + 2) (l : Nat) (e : ReplyEntry)
    (free : Option Nat) (act : State → State) :
    s.admitted l e free act = decline l e .systemBusy free (s.full (kindCode e.msg.kind)) := by
  unfold State.admitted; rw [State.admission_eq_full _ ((Journal.hasRoom_false_iff _ _).2 h)]

/-! R138: a failed admission reads neither the directory nor the links and tills. -/

theorem State.full_dir (s : State) (dir : Table DirSet) (kind : Word16) :
    ({ s with dir := dir } : State).full kind = { s.full kind with dir := dir } := by
  unfold State.full; dsimp only; split <;> rfl

theorem State.full_reached (s : State) (links : Table Link) (tills : Table Till) (kind : Word16) :
    (s.reached links tills).full kind = (s.full kind).reached links tills := by
  unfold State.full State.reached; dsimp only; split <;> rfl

/-- R126, R138: what is left when a request that has met its card's record is declined SYSTEM-BUSY. -/
theorem State.Met.busy (ht : s.Met t l m rest n b card r stay) (kind : Word16) (free : Option Nat) :
    let v := decline l (s.askEntry m n b) .systemBusy free (t.full kind)
    v = { s.full kind with dir := v.dir, links := v.links, tills := v.tills, nextSlot := s.nextSlot + 1 } := by
  have hslot : (s.full kind).nextSlot = s.nextSlot := (s.full_only kind).nextSlot
  obtain ⟨dir, links, tills, rfl⟩ := ht.frame
  rw [State.full_dir, State.full_reached, ← hslot]
  exact decline_eq _ _ _ _ _

/-! ### Approvals with an undoable record (R126, R128) -/

/-- `t` is the part `s` once the undoable record `j` of the card has been admitted: the card's record is `x` in its stay. -/
structure State.Journaled (s t : State) (card : Nat) (x : CardRecord) (stay : Nat) (j : JournalRecord) : Prop where
  frame : t = { s with dir := t.dir, journal := s.journal.withUndoable j, events := t.events, out := t.out }
  wrote : s.wrote t card x stay
  recent : s.mostRecent card → t.mostRecent card
  quiet : s.journal.records.length ≠ 3072 → t.events = s.events ∧ t.out = s.out ++ [.journal j 0]

theorem State.Found.reserved (h : s.Found card r stay) : s.unrefusing.reserveSlot.Found card r stay :=
  ⟨h.mode, h.record, h.verified, h.apart, h.unfetched⟩

/-- R128: an undoable record joins that leaves the balances as they are. -/
theorem State.Found.journaled (h : s.Found card r stay) {d : Draft} (hd : d.card = card) :
    s.Journaled (joinUndoable d s.unrefusing) card (sealRecord r.data (r.unposted + 1)) stay (d.record s) := by
  subst hd
  have hframe := State.joinRecord_eq (d := d) h.reserved.record h.verified h.reserved.unfetched
  have hjournal : (s.unrefusing.reserveSlot.joinRecord d).journal = _ := joinUndoable_journal s d
  rw [hjournal] at hframe
  exact
    { frame := hframe
      wrote := State.wrote_congr (s := s.unrefusing.reserveSlot) rfl rfl
        (State.wrote_joinRecord h.reserved.record h.verified h.reserved.unfetched h.reserved.apart)
      recent := State.mostRecent_joinRecord (s := s.unrefusing.reserveSlot) h.reserved.record h.verified h.reserved.unfetched
      quiet := State.joinRecord_quiet (s := s.unrefusing.reserveSlot) h.reserved.record h.verified h.reserved.unfetched }

theorem State.writeData_reserveSlot (h : s.recordOf card = some (r, stay)) (f : CardData → CardData) :
    (s.writeData card f).reserveSlot = s.reserveSlot.writeData card f := by
  obtain ⟨no, hf⟩ := State.recordOf_some h
  have hreserved : s.reserveSlot.findWay card = some ⟨no, .valid r stay⟩ := hf
  unfold State.writeData State.writeRecord; rw [hf, hreserved]; rfl

/-- R2, R128: an undoable record joins once the record's fields have been written. -/
theorem State.Found.written_journaled (h : s.Found card r stay) {f : CardData → CardData} (hc : (f r.data).card = card) {d : Draft}
    (hd : d.card = card) :
    s.Journaled (joinUndoable d (s.unrefusing.writeData card f)) card (sealRecord (f r.data) (r.unposted + 1)) stay (d.record s) := by
  unfold joinUndoable
  rw [State.writeData_reserveSlot (s := s.unrefusing) h.record]
  obtain ⟨hframe, hwrote, hrecent, hquiet⟩ := h.reserved.written_joined hc hd rfl
  exact { frame := hframe, wrote := State.wrote_congr rfl rfl hwrote, recent := hrecent, quiet := hquiet }

theorem State.Journaled.limits {x : CardRecord} {j : JournalRecord} (h : s.Journaled t card x stay j) : t.limits = s.limits := by
  rw [h.frame]

theorem State.Journaled.tills {x : CardRecord} {j : JournalRecord} (h : s.Journaled t card x stay j) : t.tills = s.tills := by
  rw [h.frame]

/-- R133: a reply under the program that a card has, or has not. -/
theorem gate_programOf (l : Nat) (e : ReplyEntry) (card : Nat) (reply : TillReply) (undo : UndoRecord) (sequence : Nat) (s u : State) :
    gate l e (s.programOf card) reply undo sequence u =
      u.finish l e.slot (gatedBy (s.gatingOf card) u.limits.gate sequence reply undo) := by
  unfold State.gatingOf
  cases s.programOf card with
  | none => rfl
  | some p => exact gate_under _ _ _ _ _ _ _

/-- R128, R163: what is left when a request that has met its card's record is approved, its record `j` has joined in `u`, and its reply is
completed as `st`. -/
theorem State.Met.approved (ht : s.Met t l m rest n b card r stay) (hfresh : ∀ e ∈ (s.link l).replies, e.slot < s.nextSlot)
    {x : CardRecord} {j : JournalRecord} (hj : t.Journaled u card x stay j) (st : ReplyState) :
    let v := u.finish l s.nextSlot st
    v = { s with
      dir := v.dir, links := v.links, tills := v.tills, nextSlot := s.nextSlot + 1, journal := s.journal.withUndoable j
      events := v.events, out := v.out } ∧
    s.marked v n b true ∧
    (s.otherSets v (setOf card) ∧ s.otherCards v card ∧ v.mostRecent card ∧ v.recordOf card = some (x, stay)) ∧
    s.takenOff v l m rest n b st ∧
    (s.journal.records.length ≠ 3072 → v.events = s.events ∧ v.out = s.out ++ [.journal j 0]) := by
  obtain ⟨hframe, ⟨hrecord, hcards, hsets, -⟩, hrecent, hquiet⟩ := hj
  have hlinks : u.links = t.links := by rw [hframe]
  have htills : u.tills = t.tills := by rw [hframe]
  obtain ⟨dir, links, tills, htframe⟩ := ht.frame
  refine ⟨?_, State.marked_congr (t := u) rfl (State.marked_congr htills ht.marks),
    ⟨fun k hk => (hsets k hk).trans (ht.sets k hk), fun c hc => (hcards c hc).trans (ht.records c), hrecent ht.recent, hrecord⟩,
    State.takenOff_completed hfresh ht.taken hlinks st, fun hlen => ?_⟩
  · rw [hframe, htframe]; rfl
  · rw [htframe] at hquiet
    exact hquiet hlen

end

/-! ### From the take-off to the evaluation (R6, R61) -/

section
variable {s t : State} {l : Fin 8} {m : TillMsg} {rest : List TillMsg} {n : NotedTill} {b : Binding} {card stay : Nat} {r : CardRecord}

/-- R61: a money request of an OPEN ordinary till, its fields and its amount in order, goes its kind's way. -/
theorem exec_trading (h : s.Trading l m rest n) (hf : fieldsGood m)
    (ha : readsAmount m → 1 ≤ m.amount.toNat ∧ m.amount.toNat ≤ 9999999) : exec (takeOffOf m.kind l) s =
      .next (moneyPath l (s.askEntry m n .free) n (s.take l (s.askEntry m n .free) rest)).settle := by
  rw [exec_money h.toTaking h.mapped (isMoney_of_fieldsGood hf),
    moneyChecks_pass (s := s.take l (s.askEntry m n .free) rest) ((moneyFieldsOk_iff m).2 hf) ((moneyAmountOk_iff m).2 ha) h.ordinary
      h.opened]

theorem moneyPath_card {l : Nat} {e : ReplyEntry} (hk : e.msg.kind = .enquiry ∨ e.msg.kind = .redeem ∨ e.msg.kind = .reload) :
    moneyPath l e n = withCardProgram l e := by
  unfold moneyPath; rcases hk with hk | hk | hk <;> rw [hk]

section
variable (h : s.Trading l m rest n) (hk : m.kind = .enquiry ∨ m.kind = .redeem ∨ m.kind = .reload) (hf : fieldsGood m)
  (ha : readsAmount m → 1 ≤ m.amount.toNat ∧ m.amount.toNat ≤ 9999999) (hc : cardOfBcd m.card = some card)
include h hk hf ha hc

/-- R29, R30: an ENQUIRY, REDEEM or RELOAD for a card with no program. -/
theorem declines_noProgram (hp : s.programOf card = none) : s.declines l m rest n .free .noProgram := by
  have hexec := exec_trading h hf ha
  have hno : cardNo (s.askEntry m n .free).msg = some card := hc
  have hnone : (s.take l (s.askEntry m n .free) rest).programOf card = none := hp
  rw [moneyPath_card (e := s.askEntry m n .free) hk] at hexec
  unfold withCardProgram at hexec
  rw [hno] at hexec; dsimp only at hexec
  unfold State.underProgram at hexec
  rw [hnone] at hexec
  exact State.reached_free.declines h.fresh hexec

/-- R6, R7, R61: an ENQUIRY, REDEEM or RELOAD that hits is evaluated. -/
theorem exec_cardRequest_hit {p : Program} (hp : s.programOf card = some p) (hh : s.Hit card r stay) : exec (takeOffOf m.kind l) s =
    .next (evaluate l (s.askEntry m n .free) card (s.take l (s.askEntry m n .free) rest)) := by
  have hhit : (s.take l (s.askEntry m n .free) rest).Hit card r stay :=
    ⟨⟨hh.mode, hh.record, hh.verified, hh.apart, hh.unfetched⟩, hh.direct⟩
  have hmode : (evaluate l (s.askEntry m n .free) card (s.take l (s.askEntry m n .free) rest)).dirMode.isFlushing = false := by
    rw [(evaluate_only _ _ _ _).dirMode]; exact hh.not_flushing
  rw [exec_trading h hf ha, moneyPath_card (e := s.askEntry m n .free) hk,
    withCardProgram_reaches hc (Option.isSome_iff_exists.2 ⟨p, hp⟩)]
  unfold directoryMeets; dsimp only
  rw [directoryDecision_hit hhit, State.settle_of_not_flushing hmode]

end

/-- R45, R62: a request that is declined against the record it has met. -/
theorem State.Met.declinesAgainst (ht : s.Met t l m rest n b card r stay) (h : s.Taking l m rest) {reason : Reason}
    (hexec : exec (takeOffOf m.kind l) s = .next (decline l (s.askEntry m n b) reason (some (t.freeFigure r.data)) t)) :
    s.declinesAgainst l m rest n b card r stay reason := by
  rw [ht.freeFigure] at hexec
  obtain ⟨hmarks, hsets, hcards, hrecent, hrecord, htaken⟩ := ht.refused h.fresh rfl rfl rfl reason
    (some (s.freeBonus r.data + s.freeCore r.data))
  refine ⟨_, hexec, ?_, hmarks, hsets, hcards, hrecent, hrecord, htaken⟩
  obtain ⟨dir, links, tills, rfl⟩ := ht.frame
  exact decline_eq _ _ _ _ _

end

/-! ### The ENQUIRY of a card with nothing to forfeit (R65) -/

/-- R43: the free core, written out. -/
theorem State.freeCore_eq {s : State} {d : CardData} {card : Nat} (hc : d.card = card) :
    s.freeCore d = d.core - ((s.holds.filter (fun h => decide (h.card = card))).map (fun h => h.core)).sum := by
  subst hc; rfl

theorem inDate_iff (d : CardData) (date : Nat) : inDate d date = true ↔ ∃ day ∈ d.expiry, date ≤ day := by
  unfold inDate; cases d.expiry <;> simp

/-- R43: the free bonus, written out. -/
theorem State.freeBonus_eq {s : State} {d : CardData} {card : Nat} (hc : d.card = card) :
    s.freeBonus d = if (∃ day ∈ d.expiry, s.date ≤ day) ∧ 0 < d.bonus
      then d.bonus - ((s.holds.filter (fun h => decide (h.card = card))).map (fun h => h.bonus)).sum else 0 := by
  subst hc
  unfold State.freeBonus bonusUsable
  simp only [Bool.and_eq_true, decide_eq_true_eq, inDate_iff]
  rfl

theorem State.enquiryReply_eq {s : State} {m : TillMsg} {d : CardData} {bonus core : Nat} (hk : m.kind = .enquiry)
    (hbonus : s.freeBonus d = bonus) (hcore : s.freeCore d = core) : s.enquiryReply m d =
      if d.status = .blocked then declinedReply m .cardBlocked (some (bonus + core)) else
        { lane := m.lane, kind := 3#8, outcome := .approved, reason := none, training := false, standIn := false, hostDecided := false
          free := some (bonus + core), approved := 0, bonus := bonus, core := core, ref := m.tillRef, report := ShiftReport.zero } := by
  subst hbonus hcore
  unfold State.enquiryReply approvedReply blankReply replyRef State.freeFigure
  rw [hk]; rfl

theorem fieldsGood_enquiry {m : TillMsg} {card : Nat} (hk : m.kind = .enquiry) (hc : cardOfBcd m.card = some card) : fieldsGood m := by
  unfold fieldsGood; rw [hk]; exact congrArg Option.isSome hc

theorem not_readsAmount_enquiry {m : TillMsg} (hk : m.kind = .enquiry) : ¬ readsAmount m := by
  unfold readsAmount; rw [hk]; nofun

/-- Settles O32: with nothing to forfeit, the record that the reply tells of is the one that stands. -/
theorem enquiryReportsTheFreeFunds : Obligations.EnquiryReportsTheFreeFunds := by
  refine ⟨?_, fun l m rest n card s h hk hc hp =>
    declines_noProgram h (.inl hk) (fieldsGood_enquiry hk hc) (fun ha => absurd ha (not_readsAmount_enquiry hk)) hc hp⟩
  intro l m rest n card p r stay s h hk hc hp hh hnothing core bonus reply
  have hcard : r.data.card = card := State.recordOf_card hh.record
  generalize htouch : (s.take l (s.askEntry m n .free) rest).touch card = t
  have ht : s.Touched t l m rest n card r stay := htouch ▸ hh.touched
  obtain ⟨dir, links, hframe⟩ := ht.frame
  have hsame : t.forfeitTest card = t := ht.found.forfeitTest_nothing (ht.met.nothingToForfeit hnothing)
  have hbonus : t.freeBonus r.data = bonus := (ht.met.freeBonus _).trans (State.freeBonus_eq hcard)
  have hcore : t.freeCore r.data = core := (ht.met.freeCore _).trans (State.freeCore_eq hcard)
  have hexec := exec_enquiry_hit h hk hc hp hh htouch hsame ht.found.record
  rw [State.enquiryReply_eq hk hbonus hcore] at hexec
  obtain ⟨hlinks, hsets, hcards, hrecent, hlink⟩ := ht.finished h.toTaking rfl (fun _ _ => rfl) (fun _ _ => rfl) ht.recent
    (.ready (if r.data.status = .blocked then declinedReply m .cardBlocked (some (bonus + core)) else reply) none none)
  refine ⟨_, hexec, ?_, hlinks, hsets, hcards, ht.found.record, hrecent, hlink⟩
  rw [hframe]; rfl

end Sys2Proof.Machine
end

section
/-! REDEEM and RELOAD of a resident card with nothing to forfeit. -/

namespace Sys2Proof.Machine

/-! ### What an evaluation comes to (R41, R67, R70) -/

section
variable {l card stay : Nat} {e : ReplyEntry} {p : Program} {d : CardData} {s : State}

theorem evaluate_redeem (hk : e.msg.kind = .redeem) (hp : s.programOf card = some p) :
    evaluate l e card s = (s.touch card).withRecord l e card (evalRedeem l e p) := by
  have htouch : (s.touch card).programOf card = some p := by rw [State.touch_eq]; exact hp
  unfold evaluate; dsimp only; rw [hk]; exact State.underProgram_found htouch _ _ _

theorem evaluate_reload (hk : e.msg.kind = .reload) (hp : s.programOf card = some p) :
    evaluate l e card s = (s.touch card).withRecord l e card (evalReload l e p) := by
  have htouch : (s.touch card).programOf card = some p := by rw [State.touch_eq]; exact hp
  unfold evaluate; dsimp only; rw [hk]; exact State.underProgram_found htouch _ _ _

theorem evalRedeem_blocked (h : d.status = .blocked) :
    evalRedeem l e p d stay s = decline l e .cardBlocked (some (s.freeFigure d)) s := if_pos h

theorem evalReload_blocked (h : d.status = .blocked) :
    evalReload l e p d stay s = decline l e .cardBlocked (some (s.freeFigure d)) s := if_pos h

theorem not_blocked (h : d.status = .active) : ¬ d.status = .blocked := by rw [h]; nofun

theorem evalRedeem_limited (h : d.status = .active) (hl : limitReached p.limits.dailyUseLimit s.date d = true) :
    evalRedeem l e p d stay s = decline l e .limitReached (some (s.freeFigure d)) s := by
  unfold evalRedeem; dsimp only; rw [if_neg (not_blocked h), if_pos hl]

section
variable (h : d.status = .active) (hl : limitReached p.limits.dailyUseLimit s.date d = false)
include h hl

theorem evalRedeem_insufficient
    (hx : debitFor (amountOf e.msg) p.limits.bonusCap (s.freeBonus d) (s.freeCore d) (partialAllowed e.msg) = none) :
    evalRedeem l e p d stay s = decline l e .insufficient (some (s.freeFigure d)) s := by
  unfold evalRedeem; dsimp only; rw [if_neg (not_blocked h), hl, if_neg Bool.false_ne_true, hx]

theorem evalRedeem_admitted {x : Debit}
    (hx : debitFor (amountOf e.msg) p.limits.bonusCap (s.freeBonus d) (s.freeCore d) (partialAllowed e.msg) = some x) :
    evalRedeem l e p d stay s = s.admitted l e (some (s.freeFigure d)) (applyRedeem l e p d stay x) := by
  unfold evalRedeem; dsimp only; rw [if_neg (not_blocked h), hl, if_neg Bool.false_ne_true, hx]

end

theorem evalReload_overMaximum (h : d.status = .active) (hx : s.reloadFits d (amountOf e.msg) p.limits.maximumBalance = false) :
    evalReload l e p d stay s = decline l e .overMaximum (some (s.freeFigure d)) s := by
  unfold evalReload; dsimp only; rw [if_neg (not_blocked h), hx]; rfl

theorem evalReload_admitted (h : d.status = .active) (hx : s.reloadFits d (amountOf e.msg) p.limits.maximumBalance = true) :
    evalReload l e p d stay s = s.admitted l e (some (s.freeFigure d)) (applyReload l e p d stay) := by
  unfold evalReload; dsimp only; rw [if_neg (not_blocked h), hx]; rfl

/-- R53: the test of a RELOAD, written out. -/
theorem State.reloadFits_iff (s : State) (hc : d.card = card) (amount maximum : Nat) : s.reloadFits d amount maximum = true ↔
    d.core + s.pendingSum card Effect.coreCredit + amount + s.pendingSum card Effect.coreDebit ≤ maximum := by
  subst hc; exact decide_eq_true_iff

/-! ### What an admitted approval makes (R67, R70, R133) -/

/-- R67, R47: the record's fields after the debit `x`, its use counted. -/
def debited (d : CardData) (x : Debit) (date : Nat) : CardData :=
  countUse { d with bonus := d.bonus - x.bonus, core := d.core - x.core } date

/-- R67: the DEBIT record of the debit `x`. -/
def debitDraft (card : Nat) (x : Debit) (origin : Option Origin) : Draft :=
  { kind := .debit, card := card, origin := origin, bonusDelta := -(x.bonus : Int), coreDelta := -(x.core : Int), forfeited := none
    undone := none }

/-- R70: the RELOAD record of an amount. -/
def reloadDraft (card amount : Nat) (origin : Option Origin) : Draft :=
  { kind := .reload, card := card, origin := origin, bonusDelta := 0, coreDelta := (amount : Int), forfeited := none, undone := none }

/-- R67: the debit leaves the record, its DEBIT record joins, and the reply waits as the program says. -/
theorem applyRedeem_unrefusing (hc : d.card = card) (x : Debit) :
    let u := joinUndoable (debitDraft card x (originOf e s)) (s.unrefusing.writeData card (fun _ => debited d x s.date))
    applyRedeem l e p d stay x s.unrefusing = u.finish l e.slot (gatedBy p.limits.gating u.limits.gate s.journal.nextSeq
      (approvedReply e.msg x.partly x.amount x.bonus x.core (s.freeFigure (debited d x s.date)))
      { card := card, effect := .redeem x.bonus x.core, stay := some stay, sequence := some s.journal.nextSeq
        origin := originOf e s }) := by
  subst hc; exact gate_under _ _ _ _ _ _ _

/-- R70: the RELOAD record joins, and the reply waits as the program says. -/
theorem applyReload_unrefusing (hc : d.card = card) :
    let u := joinUndoable (reloadDraft card (amountOf e.msg) (originOf e s)) s.unrefusing
    applyReload l e p d stay s.unrefusing = u.finish l e.slot (gatedBy p.limits.gating u.limits.gate s.journal.nextSeq
      (approvedReply e.msg false (amountOf e.msg) 0 (amountOf e.msg) (s.freeFigure d + amountOf e.msg))
      { card := card, effect := .reload (amountOf e.msg), stay := some stay, sequence := some s.journal.nextSeq
        origin := originOf e s }) := by
  subst hc; exact gate_under _ _ _ _ _ _ _

end

/-! ### What a REDEEM or a RELOAD that hits leaves -/

section
variable {s t : State} {l : Fin 8} {m : TillMsg} {rest : List TillMsg} {n : NotedTill} {card stay : Nat} {p : Program} {r : CardRecord}

/-- R126, R138: a request bound to nothing that is declined SYSTEM-BUSY. -/
theorem State.Touched.busy (ht : s.Touched t l m rest n card r stay) (h : s.Taking l m rest) (kind : Word16) (free : Option Nat) :
    let v := decline l (s.askEntry m n .free) .systemBusy free (t.full kind)
    v = { s.full kind with dir := v.dir, links := v.links, nextSlot := s.nextSlot + 1 } ∧
    s.otherLinks v l ∧ s.otherSets v (setOf card) ∧ s.otherCards v card ∧ v.mostRecent card ∧ v.recordOf card = some (r, stay) ∧
    v.link l = s.takenLink l m rest (some n) .free (.ready (declinedReply m .systemBusy free) none none) := by
  have honly := t.full_only kind
  have htills : (decline l (s.askEntry m n .free) .systemBusy free (t.full kind)).tills = (s.full kind).tills := by
    rw [decline_unbound rfl, (State.finish_only _ _ _ _).tills, honly.tills, ht.tills, (s.full_only kind).tills]
  have hframe := ht.met.busy kind free
  dsimp only at hframe
  rw [htills] at hframe
  obtain ⟨-, hsets, hcards, hrecent, hrecord, hothers, hlink⟩ := ht.met.refused h.fresh honly.dir honly.links honly.tills .systemBusy free
  exact ⟨hframe, hothers, hsets, hcards, hrecent, hrecord, hlink⟩

/-- R128, R163: a request bound to nothing that is approved, its record `j` joined in `u`. -/
theorem State.Touched.approved (ht : s.Touched t l m rest n card r stay) (h : s.Taking l m rest) {u : State} {x : CardRecord}
    {j : JournalRecord} (hj : t.Journaled u card x stay j) (st : ReplyState) :
    let v := u.finish l s.nextSlot st
    v = { s with
      dir := v.dir, links := v.links, nextSlot := s.nextSlot + 1, journal := s.journal.withUndoable j, events := v.events
      out := v.out } ∧
    s.otherLinks v l ∧ s.otherSets v (setOf card) ∧ s.otherCards v card ∧ v.mostRecent card ∧ v.recordOf card = some (x, stay) ∧
    v.link l = s.takenLink l m rest (some n) .free st ∧
    (s.journal.records.length ≠ 3072 → v.events = s.events ∧ v.out = s.out ++ [.journal j 0]) := by
  obtain ⟨hframe, -, ⟨hsets, hcards, hrecent, hrecord⟩, ⟨hothers, hlink⟩, hquiet⟩ := ht.met.approved h.fresh hj st
  have htills : (u.finish l s.nextSlot st).tills = s.tills := hj.tills.trans ht.tills
  rw [htills] at hframe
  exact ⟨hframe, hothers, hsets, hcards, hrecent, hrecord, hlink, hquiet⟩

section
variable (h : s.Trading l m rest n) (hf : fieldsGood m) (ha : readsAmount m → 1 ≤ m.amount.toNat ∧ m.amount.toNat ≤ 9999999)
  (hc : cardOfBcd m.card = some card) (hp : s.programOf card = some p) (hh : s.Hit card r stay) (hn : s.NothingToForfeit r)
include h hf ha hc hp hh hn

/-- R67: a REDEEM that hits is evaluated against the record as it stands. -/
theorem exec_redeem_hit (hk : m.kind = .redeem) : exec (takeOffOf m.kind l) s =
    .next (evalRedeem l (s.askEntry m n .free) p r.data stay ((s.take l (s.askEntry m n .free) rest).touch card)) := by
  rw [exec_cardRequest_hit h (.inr (.inl hk)) hf ha hc hp hh,
    evaluate_redeem (e := s.askEntry m n .free) (s := s.take l (s.askEntry m n .free) rest) hk hp, hh.touched.met.withRecord hn]

/-- R70: so is a RELOAD. -/
theorem exec_reload_hit (hk : m.kind = .reload) : exec (takeOffOf m.kind l) s =
    .next (evalReload l (s.askEntry m n .free) p r.data stay ((s.take l (s.askEntry m n .free) rest).touch card)) := by
  rw [exec_cardRequest_hit h (.inr (.inr hk)) hf ha hc hp hh,
    evaluate_reload (e := s.askEntry m n .free) (s := s.take l (s.askEntry m n .free) rest) hk hp, hh.touched.met.withRecord hn]

end

/-- R191: the reply to an approved REDEEM, RELOAD or REVERSE echoes the till reference. -/
theorem approvedReply_eq {code : Byte} (hk : kindByte m.kind = code) (href : replyRef m = m.tillRef) (partly : Bool)
    (approved bonus core free : Nat) : approvedReply m partly approved bonus core free =
      { lane := m.lane, kind := code, outcome := if partly then .partly else .approved, reason := none, training := false
        standIn := false, hostDecided := false, free := some free, approved := approved, bonus := bonus, core := core
        ref := m.tillRef, report := ShiftReport.zero } := by
  unfold approvedReply blankReply; rw [hk, href]

theorem replyRef_till (h : m.kind ≠ .hold ∧ m.kind ≠ .release) : replyRef m = m.tillRef := by
  unfold replyRef; split
  · next hk => exact absurd hk h.1
  · next hk => exact absurd hk h.2
  · rfl

end

/-- Settles O34, from the evaluation of a REDEEM on the touched part. -/
theorem redeemTakesTheDebitAtApproval : Obligations.RedeemTakesTheDebitAtApproval := by
  refine ⟨?_, fun l m rest n card s h hk hf h1 h2 hc => ⟨declines_noProgram h (.inr (.inl hk)) hf (fun _ => ⟨h1, h2⟩) hc, ?_⟩⟩
  · intro l m rest n card p r stay x s h hk hf h1 h2 hc hp hh hn hactive hlimit hdebit used joined undo reply
    have hcard : r.data.card = card := State.recordOf_card hh.record
    have hexec := exec_redeem_hit h hf (fun _ => ⟨h1, h2⟩) hc hp hh hn hk
    have ht := hh.touched (l := l) (m := m) (rest := rest) (n := n)
    generalize (s.take l (s.askEntry m n .free) rest).touch card = t at hexec ht
    have hmet := ht.met
    have hkind : kindCode (s.askEntry m n .free).msg.kind = 4#16 := congrArg kindCode hk
    rw [evalRedeem_admitted hactive (hmet.date ▸ hlimit) (by rw [hmet.freeBonus, hmet.freeCore]; exact hdebit), hk] at hexec
    refine ⟨fun hroom => ?_, fun hfull => ?_⟩
    · have hj := ht.found.written_journaled (f := fun _ => debited r.data x t.date) hcard
        (d := debitDraft card x (originOf (s.askEntry m n .free) t)) rfl
      have hreply : approvedReply (s.askEntry m n .free).msg x.partly x.amount x.bonus x.core (s.freeBonus used + s.freeCore used) =
        reply := approvedReply_eq (congrArg kindByte hk) (replyRef_till (by rw [hk]; exact ⟨nofun, nofun⟩)) _ _ _ _ _
      rw [State.admitted_room (hmet.journal ▸ hroom), applyRedeem_unrefusing hcard, hj.limits, hmet.limits, hmet.journal,
        hmet.freeFigure, hmet.originOf, hmet.date, show debited r.data x s.date = used from rfl, hreply] at hexec
      rw [hmet.originOf, hmet.record, hmet.date] at hj
      exact ⟨_, hexec, ht.approved h.toTaking hj _⟩
    · rw [State.admitted_full (hmet.journal ▸ hfull), hkind, hmet.freeFigure] at hexec
      exact ⟨_, hexec, ht.busy h.toTaking _ _⟩
  · intro p r stay hp hh hn declined
    have hexec := exec_redeem_hit h hf (fun _ => ⟨h1, h2⟩) hc hp hh hn hk
    have ht := (hh.touched (l := l) (m := m) (rest := rest) (n := n)).met
    generalize (s.take l (s.askEntry m n .free) rest).touch card = t at hexec ht
    refine ⟨fun hb => ?_, fun hactive hlimit => ?_, fun hactive hlimit hx => ?_⟩
    · rw [evalRedeem_blocked hb] at hexec
      exact ht.declinesAgainst h.toTaking hexec
    · rw [evalRedeem_limited hactive (ht.date ▸ hlimit)] at hexec
      exact ht.declinesAgainst h.toTaking hexec
    · rw [evalRedeem_insufficient hactive (ht.date ▸ hlimit) (by rw [ht.freeBonus, ht.freeCore]; exact hx)] at hexec
      exact ht.declinesAgainst h.toTaking hexec

/-- Settles O35, from the evaluation of a RELOAD on the touched part. -/
theorem reloadLeavesTheBalancesUntilDelivery : Obligations.ReloadLeavesTheBalancesUntilDelivery := by
  refine ⟨?_, fun l m rest n card s h hk hf h1 h2 hc => ⟨declines_noProgram h (.inr (.inr hk)) hf (fun _ => ⟨h1, h2⟩) hc, ?_⟩⟩
  · intro l m rest n card p r stay s h hk hf h1 h2 hc hp hh hn hactive hfits joined undo reply
    have hcard : r.data.card = card := State.recordOf_card hh.record
    have hexec := exec_reload_hit h hf (fun _ => ⟨h1, h2⟩) hc hp hh hn hk
    have ht := hh.touched (l := l) (m := m) (rest := rest) (n := n)
    generalize (s.take l (s.askEntry m n .free) rest).touch card = t at hexec ht
    have hmet := ht.met
    have hkind : kindCode (s.askEntry m n .free).msg.kind = 9#16 := congrArg kindCode hk
    have hfit : t.reloadFits r.data m.amount.toNat p.limits.maximumBalance = true := by
      rw [State.reloadFits_iff t hcard, hmet.pendingSum, hmet.pendingSum]; exact hfits
    rw [evalReload_admitted hactive hfit, hk] at hexec
    refine ⟨fun hroom => ?_, fun hfull => ?_⟩
    · have hj := ht.found.journaled (d := reloadDraft card m.amount.toNat (originOf (s.askEntry m n .free) t)) rfl
      have hreply : approvedReply (s.askEntry m n .free).msg false m.amount.toNat 0 m.amount.toNat
          (s.freeBonus r.data + s.freeCore r.data + m.amount.toNat) = reply :=
        approvedReply_eq (congrArg kindByte hk) (replyRef_till (by rw [hk]; exact ⟨nofun, nofun⟩)) _ _ _ _ _
      have hamount : amountOf (s.askEntry m n .free).msg = m.amount.toNat := rfl
      rw [State.admitted_room (hmet.journal ▸ hroom), applyReload_unrefusing hcard, hamount, hj.limits, hmet.limits, hmet.journal,
        hmet.freeFigure, hmet.originOf, hreply] at hexec
      rw [hmet.originOf, hmet.record] at hj
      exact ⟨_, hexec, ht.approved h.toTaking hj _⟩
    · rw [State.admitted_full (hmet.journal ▸ hfull), hkind, hmet.freeFigure] at hexec
      exact ⟨_, hexec, ht.busy h.toTaking _ _⟩
  · intro p r stay hp hh hn declined
    have hcard : r.data.card = card := State.recordOf_card hh.record
    have hexec := exec_reload_hit h hf (fun _ => ⟨h1, h2⟩) hc hp hh hn hk
    have ht := (hh.touched (l := l) (m := m) (rest := rest) (n := n)).met
    generalize (s.take l (s.askEntry m n .free) rest).touch card = t at hexec ht
    refine ⟨fun hb => ?_, fun hactive hover => ?_⟩
    · rw [evalReload_blocked hb] at hexec
      exact ht.declinesAgainst h.toTaking hexec
    · have hfit : t.reloadFits r.data m.amount.toNat p.limits.maximumBalance = false := by
        rw [← Bool.not_eq_true, State.reloadFits_iff t hcard, ht.pendingSum, ht.pendingSum]; exact not_le.2 hover
      rw [evalReload_overMaximum hactive hfit] at hexec
      exact ht.declinesAgainst h.toTaking hexec

end Sys2Proof.Machine
end

section
/-! REVERSE: the stack check, the evaluation against a resident record, and the journal-only REVERSE of a STAND-IN entry. -/

namespace Sys2Proof.Machine

/-! ### The stack check (R75) -/

section
variable {ref : Word32} {above : List StackEntry}

theorem stackCheck_none : ∀ {stack : List StackEntry} {stood : Bool}, (∀ x ∈ stack, x.ref ≠ ref) →
    stackCheck ref stood stack = .notFound
  | [], _, _ => rfl
  | x :: _, _, h => (if_neg (h x List.mem_cons_self)).trans (stackCheck_none fun y hy => h y (List.mem_cons_of_mem _ hy))

/-- The entries above the topmost one of the reference are passed over, and what STANDS among them is kept in mind. -/
theorem stackCheck_above (below : List StackEntry) : ∀ {above : List StackEntry} {stood : Bool}, (∀ y ∈ above, y.ref ≠ ref) →
    stackCheck ref stood (above ++ below) = stackCheck ref (stood || above.any (fun y => !y.reversing)) below
  | [], stood, _ => by rw [List.any_nil, Bool.or_false]; rfl
  | x :: above, stood, h => by
    rw [List.any_cons, ← Bool.or_assoc, ← stackCheck_above below fun y hy => h y (List.mem_cons_of_mem _ hy)]
    exact if_neg (h x List.mem_cons_self)

variable {x : StackEntry} {below : List StackEntry} (h : ∀ y ∈ above, y.ref ≠ ref) (hx : x.ref = ref)
include h hx

/-- R75: what the topmost entry of the reference makes of the stack check. -/
theorem stackCheck_topmost : stackCheck ref false (above ++ x :: below) =
    if x.reversing then .notFound else if above.any (fun y => !y.reversing) then .outOfOrder else .found x := by
  rw [stackCheck_above (x :: below) h, Bool.false_or]
  exact if_pos hx

theorem stackCheck_reversing (hr : x.reversing = true) : stackCheck ref false (above ++ x :: below) = .notFound := by
  rw [stackCheck_topmost h hx, if_pos hr]

theorem stackCheck_outOfOrder (hr : x.reversing = false) (hs : ∃ y ∈ above, y.reversing = false) :
    stackCheck ref false (above ++ x :: below) = .outOfOrder := by
  obtain ⟨y, hy, hstands⟩ := hs
  have hany : above.any (fun y => !y.reversing) = true := List.any_eq_true.2 ⟨y, hy, by rw [hstands]; rfl⟩
  rw [stackCheck_topmost h hx, hr, hany]; rfl

theorem stackCheck_found (hr : x.reversing = false) (hs : ∀ y ∈ above, y.reversing = true) :
    stackCheck ref false (above ++ x :: below) = .found x := by
  have hany : above.any (fun y => !y.reversing) = false := List.any_eq_false.2 fun y hy => by rw [hs y hy]; decide
  rw [stackCheck_topmost h hx, hr, hany]; rfl

end

/-! ### The evaluation of a REVERSE (R54, R76) -/

/-- R76: the REVERSAL record of the returned parts, with what is forfeited. -/
def reversalDraft (card back core : Nat) (forfeited : Option Nat) (origin : Option Origin) : Draft :=
  { kind := .reversal, card := card, origin := origin, bonusDelta := (back : Int), coreDelta := (core : Int), forfeited := forfeited
    undone := none }

section
variable {l card stay : Nat} {e : ReplyEntry} {x : StackEntry} {d : CardData} {s : State}

theorem evaluate_reverse (hk : e.msg.kind = .reverse) (hb : e.bound = .entry x) : evaluate l e card s =
    (s.touch card).withRecord l e card (evalReverse l e ((s.touch card).programOf card) x) := by
  unfold evaluate; dsimp only; rw [hk, hb]

theorem evalReverse_overMaximum {p : Option Program} (h : s.reverseFits d (returnedBonus d s.date x.bonus) x.core = false) :
    evalReverse l e p x d stay s = decline l e .overMaximum (some (s.freeFigure d)) s := by
  unfold evalReverse; dsimp only; rw [h]; rfl

theorem evalReverse_admitted {p : Option Program} (h : s.reverseFits d (returnedBonus d s.date x.bonus) x.core = true) :
    evalReverse l e p x d stay s = s.admitted l e (some (s.freeFigure d)) (applyReverse l e p x d stay) := by
  unfold evalReverse; dsimp only; rw [h]; rfl

/-- R54: the credit test of each purse, written out. -/
theorem State.reverseFits_iff (s : State) (hc : d.card = card) (back core : Nat) : s.reverseFits d back core = true ↔
    d.core + s.pendingSum card Effect.coreCredit + core + s.pendingSum card Effect.coreDebit ≤ 9999999 ∧
    (back = 0 ∨ d.bonus + s.pendingSum card Effect.bonusCredit + back + s.pendingSum card Effect.bonusDebit ≤ 9999999) := by
  subst hc
  unfold State.reverseFits
  rw [Bool.and_eq_true, Bool.or_eq_true, decide_eq_true_iff, decide_eq_true_iff, decide_eq_true_iff]; rfl

theorem someIfPositive_forfeited (d : CardData) (date bonus : Nat) : someIfPositive (forfeitedBonus d date bonus) =
    if inDate d date = true ∨ bonus = 0 then none else some bonus := by
  unfold someIfPositive forfeitedBonus
  by_cases hd : inDate d date = true
  · rw [if_pos hd, if_pos rfl, if_pos (.inl hd)]
  · rw [if_neg hd]
    by_cases hb : bonus = 0
    · rw [if_pos hb, if_pos (.inr hb)]
    · rw [if_neg hb, if_neg (not_or.2 ⟨hd, hb⟩)]

/-- R76: the REVERSAL record joins, and the reply waits as the card's program says. -/
theorem applyReverse_unrefusing (hc : d.card = card) :
    let back := returnedBonus d s.date x.bonus
    let u := joinUndoable
      (reversalDraft card back x.core (if inDate d s.date = true ∨ x.bonus = 0 then none else some x.bonus) (originOf e s)) s.unrefusing
    applyReverse l e (s.programOf card) x d stay s.unrefusing = u.finish l e.slot (gatedBy (s.gatingOf card) u.limits.gate
      s.journal.nextSeq (approvedReply e.msg false (x.core + back) back x.core (s.freeFigure d + back + x.core))
      { card := card, effect := .reverse back x.core, stay := some stay, sequence := some s.journal.nextSeq
        origin := originOf e s }) := by
  subst hc
  rw [← someIfPositive_forfeited]
  exact gate_programOf _ _ _ _ _ _ _ _

/-! ### The journal-only REVERSE (R78) -/

/-- R78: the REVERSE of a STAND-IN entry whose card is in no way is journal-only, in every directory mode. -/
theorem standInReverse_journalOnly (h : s.findWay x.card = none) : standInReverse l e x s = journalOnly l e x s := by
  unfold standInReverse
  cases s.dirMode with
  | normal => exact lookup_none h
  | frozen => exact lookup_none h
  | flushing goal => exact flushingDecision_none h
  | off => dsimp only; rw [h]
  | warming => dsimp only; rw [h]

/-- R7, R78: the REVERSE of a STAND-IN entry whose card is found is evaluated. -/
theorem standInReverse_hit {r : CardRecord} (h : s.Found x.card r stay) : standInReverse l e x s = evaluate l e x.card s := by
  unfold standInReverse
  rcases h.mode with hm | hm <;> rw [hm] <;> exact lookup_hit h.record h.verified

/-- R78: the reply to a journal-only REVERSE, with the STAND-IN flag and no free balance figure. -/
def journalOnlyReply (m : TillMsg) (core : Nat) : TillReply := { blankReply m with standIn := true, approved := core, core := core }

/-- R78: the REVERSAL record of a journal-only REVERSE joins, and the reply waits as the card's program says. -/
theorem journalOnly_room (h : s.journal.records.length + s.journal.reserved + 2 ≤ 4096) :
    let u := joinUndoable (reversalDraft x.card 0 x.core none (originOf e s)) s.unrefusing
    journalOnly l e x s = u.finish l e.slot (gatedBy (s.gatingOf x.card) u.limits.gate s.journal.nextSeq
      (journalOnlyReply e.msg x.core)
      { card := x.card, effect := .reverse 0 x.core, stay := none, sequence := some s.journal.nextSeq, origin := originOf e s }) := by
  unfold journalOnly; rw [State.admitted_room h]; exact gate_programOf _ _ _ _ _ _ s _

theorem journalOnly_full (h : 4096 < s.journal.records.length + s.journal.reserved + 2) (hk : e.msg.kind = .reverse) :
    journalOnly l e x s = decline l e .systemBusy none (s.full 8#16) := by
  unfold journalOnly; rw [State.admitted_full h, hk]; rfl

/-- R137: below the high mark the joining of the record of a card in no way is told to the host and raises nothing. -/
theorem State.joinRecord_absent_quiet {d : Draft} (hr : s.recordOf d.card = none) (hf : s.fetchFor d.card = none)
    (h : s.journal.records.length ≠ 3072) :
    (s.joinRecord d).events = s.events ∧ (s.joinRecord d).out = s.out ++ [.journal (d.record s) 0] := by
  have hlen : ((s.appendRecord (d.record s)).queue (.journal (d.record s) 0)).journal.records.length ≠ Config.highMark + 1 := by
    rw [State.queue_journal]; simpa [Config.highMark] using h
  rw [State.joinRecord_absent hr hf, State.warnHigh_quiet hlen]
  exact ⟨rfl, rfl⟩

/-- R126, R128: what an admitted undoable record leaves whose card is in no way and has no fetch. -/
theorem joinUndoable_absent_eq {d : Draft} (hr : s.recordOf d.card = none) (hf : s.fetchFor d.card = none) :
    ∃ events out, joinUndoable d s.unrefusing =
        { s with journal := s.journal.withUndoable (d.record s), events := events, out := out } ∧
      (s.journal.records.length ≠ 3072 → events = s.events ∧ out = s.out ++ [.journal (d.record s) 0]) := by
  obtain ⟨events, out, hjoin⟩ := joinUndoable_absent hr hf
  refine ⟨events, out, hjoin, fun hlen => ?_⟩
  have hquiet := State.joinRecord_absent_quiet (s := s.unrefusing.reserveSlot) hr hf hlen
  unfold joinUndoable at hjoin
  rw [hjoin] at hquiet
  exact hquiet

end

/-! ### From the take-off of a REVERSE to its evaluation (R61, R75) -/

section
variable {l : Nat} {e : ReplyEntry} {n : NotedTill} {s : State}

theorem reverseFrom_notFound (h : stackCheck e.msg.tillRef false (s.till n.till).stack = .notFound) :
    reverseFrom l e n s = decline l e .notFound none s := by
  unfold reverseFrom; rw [h]

theorem reverseFrom_outOfOrder (h : stackCheck e.msg.tillRef false (s.till n.till).stack = .outOfOrder) :
    reverseFrom l e n s = decline l e .outOfOrder none s := by
  unfold reverseFrom; rw [h]

end

section
variable {s t u : State} {l : Fin 8} {m : TillMsg} {rest : List TillMsg} {n : NotedTill} {x : StackEntry} {stay : Nat} {r : CardRecord}

section
variable (h : s.Trading l m rest n) (hk : m.kind = .reverse) (href : m.tillRef ≠ 0#32)
include h hk href

theorem exec_reverse : exec (takeOffOf m.kind l) s =
    .next (reverseFrom l (s.askEntry m n .free) n (s.take l (s.askEntry m n .free) rest)).settle := by
  have hfields : fieldsGood m := by unfold fieldsGood; rw [hk]; exact href
  have hamount : ¬ readsAmount m := by unfold readsAmount; rw [hk]; nofun
  have hpath : moneyPath l (s.askEntry m n .free) n = reverseFrom l (s.askEntry m n .free) n := by
    have hkind : (s.askEntry m n .free).msg.kind = .reverse := hk
    unfold moneyPath; rw [hkind]
  rw [exec_trading h hfields (fun ha => absurd ha hamount), hpath]

/-- R75: a REVERSE that its stack check declines. -/
theorem reverse_declines {reason : Reason} (hfrom : reverseFrom l (s.askEntry m n .free) n (s.take l (s.askEntry m n .free) rest) =
    decline l (s.askEntry m n .free) reason none (s.take l (s.askEntry m n .free) rest)) : s.declines l m rest n .free reason :=
  State.reached_free.declines h.fresh (by rw [← hfrom]; exact exec_reverse h hk href)

variable (hx : stackCheck m.tillRef false (s.till n.till).stack = .found x)
include hx

theorem exec_reverse_found : ∃ t, s.Reached t l m rest n (.entry x) ∧ exec (takeOffOf m.kind l) s =
    .next (directoryMeets l (s.askEntry m n (.entry x)) (.entry x) x.card t).settle := by
  obtain ⟨t, ht, hmeets⟩ := reverseFrom_reaches h.toTaking hx
  exact ⟨t, ht, by rw [exec_reverse h hk href, hmeets]⟩

/-- R76: a REVERSE whose entry's card is found is evaluated, that of a STAND-IN entry whatever pass-through range holds the card. -/
theorem exec_reverse_hit (hh : s.Found x.card r stay) (hdirect : x.kind = .standIn ∨ s.passThrough x.card = false)
    (hn : s.NothingToForfeit r) : ∃ t, s.Met t l m rest n (.entry x) x.card r stay ∧ exec (takeOffOf m.kind l) s =
      .next (evalReverse l (s.askEntry m n (.entry x)) (t.programOf x.card) x r.data stay t) := by
  obtain ⟨t, hr, hexec⟩ := exec_reverse_found h hk href hx
  have hmet := hr.met hh
  have hpass := (hr.reads x.card).1
  have hfound : t.Found x.card r stay := by
    obtain ⟨links, tills, rfl⟩ := hr.frame
    exact ⟨hh.mode, hh.record, hh.verified, hh.apart, hh.unfetched⟩
  have hevaluate : directoryMeets l (s.askEntry m n (.entry x)) (.entry x) x.card t =
      evaluate l (s.askEntry m n (.entry x)) x.card t := by
    unfold directoryMeets; dsimp only
    split
    · exact standInReverse_hit hfound
    · next hkind => exact directoryDecision_hit ⟨hfound, hpass.trans (hdirect.resolve_left hkind)⟩
  have hmode : (evaluate l (s.askEntry m n (.entry x)) x.card t).dirMode.isFlushing = false := by
    rw [(evaluate_only _ _ _ _).dirMode]; exact hfound.not_flushing
  rw [hevaluate, State.settle_of_not_flushing hmode, evaluate_reverse (e := s.askEntry m n (.entry x)) hk rfl,
    hmet.withRecord hn] at hexec
  exact ⟨_, hmet, hexec⟩

/-- R78: a REVERSE of a STAND-IN entry whose card is in no way is taken journal-only. -/
theorem exec_reverse_journalOnly (hkind : x.kind = .standIn) (hf : s.findWay x.card = none) :
    ∃ t, s.Reached t l m rest n (.entry x) ∧ exec (takeOffOf m.kind l) s =
      .next (journalOnly l (s.askEntry m n (.entry x)) x t).settle := by
  obtain ⟨t, hr, hexec⟩ := exec_reverse_found h hk href hx
  obtain ⟨-, -, hway, -⟩ := hr.reads x.card
  rw [directoryMeets_standIn hkind, standInReverse_journalOnly (hway.trans hf)] at hexec
  exact ⟨t, hr, hexec⟩

end

/-! ### What a REVERSE leaves (R14, R79) -/

theorem State.marked_entry {on : Bool} (h : s.marked t n (.entry x) on) : (∀ k, k ≠ n.till → t.till k = s.till k) ∧
    t.till n.till = { s.till n.till with
      stack := (s.till n.till).stack.map (fun y => if y.id = x.id then { y with reversing := on } else y) } :=
  ⟨fun k hk => (h k).trans (if_neg hk), (h n.till).trans (if_pos rfl)⟩

theorem State.takenOff_congr {b : Binding} {st : ReplyState} (hu : u.links = t.links) (h : s.takenOff t l m rest n b st) :
    s.takenOff u l m rest n b st := by
  have hlinks : ∀ k, u.link k = t.link k := fun k => by unfold State.link; rw [hu]
  exact ⟨fun k hk => (hlinks k).trans (h.1 k hk), (hlinks l).trans h.2⟩

/-- R14: the end of a flush changes the mode and raises its event. -/
theorem State.settle_eq (s : State) :
    s.settle = { s with dirMode := s.settle.dirMode, events := s.settle.events, out := s.settle.out } := by
  unfold State.settle; split
  · split <;> rfl
  · rfl

/-- R78: the REVERSAL record of a journal-only REVERSE. -/
def State.journalOnlyRecord (s : State) (n : NotedTill) (m : TillMsg) (x : StackEntry) : JournalRecord :=
  (reversalDraft x.card 0 x.core none (some (s.tillFields n m))).record s

/-- R78: the undo record of a journal-only REVERSE, which is made in no stay. -/
def State.journalOnlyUndo (s : State) (n : NotedTill) (m : TillMsg) (x : StackEntry) : UndoRecord :=
  { card := x.card, effect := .reverse 0 x.core, stay := none, sequence := some s.journal.nextSeq
    origin := some (s.tillFields n m) }

/-- R78, R126, R128: what a journal-only REVERSE leaves where the journal has room. -/
theorem State.Reached.journaledOnly (hr : s.Reached t l m rest n (.entry x)) (h : s.Taking l m rest) (hway : s.findWay x.card = none)
    (hf : s.fetchFor x.card = none) (hroom : s.journal.records.length + s.journal.reserved + 2 ≤ 4096) :
    let v := (journalOnly l (s.askEntry m n (.entry x)) x t).settle
    v = { s with
      links := v.links, tills := v.tills, nextSlot := s.nextSlot + 1, journal := s.journal.withUndoable (s.journalOnlyRecord n m x)
      dirMode := v.dirMode, events := v.events, out := v.out } ∧
    s.marked v n (.entry x) true ∧
    s.takenOff v l m rest n (.entry x) (gatedBy (s.gatingOf x.card) s.limits.gate s.journal.nextSeq (journalOnlyReply m x.core)
      (s.journalOnlyUndo n m x)) ∧
    (s.dirMode.isFlushing = false → v.dirMode = s.dirMode ∧ (s.journal.records.length ≠ 3072 →
      v.events = s.events ∧ v.out = s.out ++ [.journal (s.journalOnlyRecord n m x) 0])) := by
  obtain ⟨links, tills, rfl⟩ := hr.frame
  have hrecord : (s.reached links tills).recordOf x.card = none := by
    have hnone : (s.reached links tills).findWay x.card = none := hway
    unfold State.recordOf; rw [hnone]
  have horigin : originOf (s.askEntry m n (.entry x)) (s.reached links tills) = some (s.tillFields n m) := originOf_noted rfl _
  obtain ⟨events, out, hjoin, hquiet⟩ := joinUndoable_absent_eq (s := s.reached links tills)
    (d := reversalDraft x.card 0 x.core none (some (s.tillFields n m))) hrecord hf
  have happly := journalOnly_room (l := l) (e := s.askEntry m n (.entry x)) (x := x) (s := s.reached links tills) hroom
  rw [horigin, hjoin] at happly
  rw [happly]
  generalize hw : State.finish _ _ _ _ = w
  have hmode : w.dirMode = s.dirMode := by rw [← hw]; rfl
  have htills : w.tills = tills := by rw [← hw]; rfl
  have hsettle := State.settle_only w
  refine ⟨(State.settle_eq w).trans ?_, State.marked_congr (hsettle.tills.trans htills) hr.marks,
    State.takenOff_congr hsettle.links ?_, fun hflush => ?_⟩
  · rw [hsettle.links, hsettle.tills, ← hw]; rfl
  · rw [← hw]; exact State.takenOff_completed h.fresh hr.taken rfl _
  · rw [State.settle_of_not_flushing (s := w) (hmode ▸ hflush), ← hw]
    exact ⟨rfl, hquiet⟩

/-- R78, R79, R138: what a journal-only REVERSE leaves where the journal has no room. -/
theorem State.Reached.busyOnly (hr : s.Reached t l m rest n (.entry x)) (h : s.Taking l m rest) (hk : m.kind = .reverse)
    (hfull : 4096 < s.journal.records.length + s.journal.reserved + 2) :
    let v := (journalOnly l (s.askEntry m n (.entry x)) x t).settle
    v = { s.full 8#16 with
      links := v.links, tills := v.tills, nextSlot := s.nextSlot + 1, dirMode := v.dirMode, events := v.events, out := v.out } ∧
    s.marked v n (.entry x) false ∧
    s.takenOff v l m rest n (.entry x) (.ready (declinedReply m .systemBusy none) none none) ∧
    (s.dirMode.isFlushing = false →
      v.dirMode = s.dirMode ∧ v.events = (s.full 8#16).events ∧ v.out = (s.full 8#16).out) := by
  obtain ⟨links, tills, rfl⟩ := hr.frame
  have honly := s.full_only 8#16
  rw [journalOnly_full (e := s.askEntry m n (.entry x)) (s := s.reached links tills) hfull hk, State.full_reached]
  generalize s.full 8#16 = f at honly ⊢
  have hmarks : s.marked ((f.reached links tills).clearMark (s.askEntry m n (.entry x))) n (.entry x) false :=
    State.marked_clearMark (State.marked_congr (t := s.reached links tills) rfl hr.marks)
  have htaken := State.takenOff_completed (u := (f.reached links tills).clearMark (s.askEntry m n (.entry x))) h.fresh hr.taken
    rfl (.ready (declinedReply m .systemBusy none) none none)
  have hdecline : decline l (s.askEntry m n (.entry x)) .systemBusy none (f.reached links tills) =
      ((f.reached links tills).clearMark (s.askEntry m n (.entry x))).finish l s.nextSlot
        (.ready (declinedReply m .systemBusy none) none none) := rfl
  rw [hdecline]
  generalize hw : State.finish _ _ _ _ = w at htaken ⊢
  have hmode : w.dirMode = s.dirMode := by rw [← hw]; exact honly.dirMode
  have hframe : w = { f with links := w.links, tills := w.tills, nextSlot := s.nextSlot + 1 } := by
    have hslot : s.nextSlot + 1 = w.nextSlot := by rw [← hw]; exact congrArg (· + 1) honly.nextSlot.symm
    rw [hslot, ← hw]; rfl
  have hsettle := State.settle_only w
  refine ⟨(State.settle_eq w).trans ?_, State.marked_congr (hsettle.tills.trans (by rw [← hw]; rfl)) hmarks,
    State.takenOff_congr hsettle.links htaken, fun hflush => ?_⟩
  · rw [hsettle.links, hsettle.tills]
    exact congrArg (fun y : State => { y with dirMode := w.settle.dirMode, events := w.settle.events, out := w.settle.out }) hframe
  · rw [State.settle_of_not_flushing (s := w) (hmode ▸ hflush)]
    exact ⟨hmode, by rw [← hw]; rfl, by rw [← hw]; rfl⟩

/-- R191: the reply to a journal-only REVERSE. -/
theorem journalOnlyReply_eq (hk : m.kind = .reverse) (core : Nat) : journalOnlyReply m core =
    { lane := m.lane, kind := 8#8, outcome := .approved, reason := none, training := false, standIn := true, hostDecided := false
      free := none, approved := core, bonus := 0, core := core, ref := m.tillRef, report := ShiftReport.zero } := by
  unfold journalOnlyReply blankReply replyRef; rw [hk]; rfl

end

/-- Settles O39: a found entry's REVERSE is evaluated against the card's record or taken journal-only, and the stack check ends the others.
-/
theorem reverseMarksItsEntry : Obligations.ReverseMarksItsEntry := by
  refine ⟨?_, fun l m rest n s h hk href => ?_⟩
  · intro l m rest n e s h hk href hx room marked joined undo reply taken gated said
    refine ⟨?_, fun hkind hway hf => ?_⟩
    · intro r stay hh hdirect hn inTime back free j stays fits
      have hcard : r.data.card = e.card := State.recordOf_card hh.record
      obtain ⟨t, ht, hexec⟩ := exec_reverse_hit h hk href hx hh hdirect hn
      have hback : returnedBonus r.data t.date e.bonus = back := by rw [ht.date]; rfl
      have hfits : t.reverseFits r.data back e.core = true ↔ fits := by
        rw [State.reverseFits_iff t hcard, ht.pendingSum, ht.pendingSum, ht.pendingSum, ht.pendingSum]
      refine ⟨fun hover => ?_, fun hfit hroom => ?_, fun hfit hfull => ?_⟩
      · rw [evalReverse_overMaximum (by rw [hback]; exact Bool.eq_false_iff.2 (mt hfits.1 hover))] at hexec
        exact ht.declinesAgainst h.toTaking hexec
      · have hj := ht.found.journaled (d := reversalDraft e.card (returnedBonus r.data t.date e.bonus) e.core
          (if inDate r.data t.date = true ∨ e.bonus = 0 then none else some e.bonus)
          (originOf (s.askEntry m n (.entry e)) t)) rfl
        have hgating : t.gatingOf e.card = s.gatingOf e.card := by unfold State.gatingOf; rw [ht.programOf]
        have hreply : approvedReply (s.askEntry m n (.entry e)).msg false (e.core + back) back e.core
            (s.freeBonus r.data + s.freeCore r.data + back + e.core) = reply back false (some (free + back + e.core)) :=
          approvedReply_eq (congrArg kindByte hk) (replyRef_till (by rw [hk]; exact ⟨nofun, nofun⟩)) _ _ _ _ _
        rw [evalReverse_admitted (by rw [hback]; exact hfits.2 hfit), State.admitted_room (ht.journal ▸ hroom),
          applyReverse_unrefusing hcard, hj.limits, hback, ht.date, ht.limits, ht.journal, ht.freeFigure, ht.originOf, hgating, hreply,
          hk] at hexec
        rw [hback, ht.originOf, ht.record, ht.date] at hj
        obtain ⟨hframe, hmarks, hstays, htaken, hquiet⟩ := ht.approved h.fresh hj
          (gated (reply back false (some (free + back + e.core))) (undo back (some stay)))
        exact ⟨_, hexec, hframe, State.marked_entry hmarks, hstays, htaken, hquiet⟩
      · have hkind : kindCode (s.askEntry m n (.entry e)).msg.kind = 8#16 := congrArg kindCode hk
        rw [evalReverse_admitted (by rw [hback]; exact hfits.2 hfit), State.admitted_full (ht.journal ▸ not_le.1 hfull), hkind,
          ht.freeFigure, hk] at hexec
        have honly := t.full_only 8#16
        obtain ⟨hmarks, hsets, hcards, hrecent, hrecord, htaken⟩ := ht.refused h.fresh honly.dir honly.links honly.tills .systemBusy
          (some free)
        exact ⟨_, hexec, ht.busy _ _, State.marked_entry hmarks, ⟨hsets, hcards, hrecent, hrecord⟩, htaken⟩
    · obtain ⟨t, hr, hexec⟩ := exec_reverse_journalOnly h hk href hx hkind hway
      rw [hk] at hexec
      refine ⟨fun hroom => ?_, fun hfull => ?_⟩
      · obtain ⟨hframe, hmarks, htaken, hquiet⟩ := hr.journaledOnly h.toTaking hway hf hroom
        rw [journalOnlyReply_eq hk] at htaken
        exact ⟨_, hexec, hframe, State.marked_entry hmarks, htaken, hquiet⟩
      · obtain ⟨hframe, hmarks, htaken, hquiet⟩ := hr.busyOnly h.toTaking hk (not_le.1 hfull)
        exact ⟨_, hexec, hframe, State.marked_entry hmarks, htaken, hquiet⟩
  · intro stack
    have hstack : ((s.take l (s.askEntry m n .free) rest).till n.till).stack = stack := rfl
    refine ⟨fun hnone => reverse_declines h hk href (reverseFrom_notFound ?_), fun above x below hsplit habove hx =>
      ⟨fun hr => reverse_declines h hk href (reverseFrom_notFound ?_),
        fun hr hs => reverse_declines h hk href (reverseFrom_outOfOrder ?_), fun hr hs => ?_⟩⟩
    · rw [hstack]; exact stackCheck_none hnone
    · rw [hstack, hsplit]; exact stackCheck_reversing habove hx hr
    · rw [hstack, hsplit]; exact stackCheck_outOfOrder habove hx hr hs
    · rw [hsplit]; exact stackCheck_found habove hx hr hs

end Sys2Proof.Machine
end

section
/-! The Hold Table in order (R81, R82, R84), and what the freeing, the noting, the changing and the making of a hold leave of it. -/

namespace Sys2Proof.Machine

/-! ### The order of the table, part by part -/

/-- What `HoldsInOrder` says, by name. -/
structure HoldsOrdered (s : State) : Prop where
  ids : (s.holds.map (fun h => h.id)).Nodup
  given : ∀ h ∈ s.holds, h.id < s.nextHold
  keys : (s.holds.map (fun h => (h.site, h.ref))).Nodup
  counts : ∀ site, s.siteHoldCount site = (s.holds.filter (fun h => decide (h.site = site))).length
  siteRoom : ∀ site, s.siteHoldCount site ≤ Config.holdsPerSite
  cardRoom : ∀ card, (s.holdsOf card).length ≤ Config.holdsPerCard
  room : s.holds.length ≤ Config.holds
  noteRoom : s.notes.length ≤ Config.notes
  noteKeys : (s.notes.map (fun n => (n.site, n.ref))).Nodup
  unnoted : ∀ n ∈ s.notes, s.holdByKey n.site n.ref = none

theorem holdsInOrder_iff (s : State) : HoldsInOrder s ↔ HoldsOrdered s := by
  refine ⟨fun ⟨ids, given, keys, counts, siteRoom, cardRoom, room, noteRoom, noteKeys, unnoted⟩ => ?_, fun o => ?_⟩
  · exact { ids, given, keys, counts, siteRoom, cardRoom, room, noteRoom, noteKeys, unnoted }
  · exact ⟨o.ids, o.given, o.keys, o.counts, o.siteRoom, o.cardRoom, o.room, o.noteRoom, o.noteKeys, o.unnoted⟩

section
variable {s t : State} {h k : Hold} {site : Nat} {ref : Word32}

theorem State.holdByKey_none_iff : s.holdByKey site ref = none ↔ ∀ x ∈ s.holds, ¬ (x.site = site ∧ x.ref = ref) := by
  unfold State.holdByKey; rw [List.find?_eq_none]; simp only [Bool.and_eq_true, decide_eq_true_eq]

theorem State.holdByKey_some (hx : s.holdByKey site ref = some h) : h ∈ s.holds ∧ h.site = site ∧ h.ref = ref := by
  unfold State.holdByKey at hx
  have hkey := List.find?_some hx
  rw [Bool.and_eq_true, decide_eq_true_eq, decide_eq_true_eq] at hkey
  exact ⟨List.mem_of_find?_eq_some hx, hkey⟩

theorem State.holdById_some {id : Nat} (hx : s.holdById id = some h) : h ∈ s.holds ∧ h.id = id := by
  unfold State.holdById at hx
  have hid := List.find?_some hx
  exact ⟨List.mem_of_find?_eq_some hx, of_decide_eq_true hid⟩

theorem ExpiryNote.hasKey_iff (n : ExpiryNote) (site : Nat) (ref : Word32) :
    n.hasKey site ref = true ↔ n.site = site ∧ n.ref = ref := by
  unfold ExpiryNote.hasKey; rw [Bool.and_eq_true, decide_eq_true_iff, decide_eq_true_iff]

theorem HoldsOrdered.eq_of_key (o : HoldsOrdered s) (hh : h ∈ s.holds) (hk : k ∈ s.holds) (e : k.site = h.site ∧ k.ref = h.ref) :
    k = h := List.inj_on_of_nodup_map o.keys hk hh (Prod.ext e.1 e.2)

/-- The order of the table reads nothing else. -/
theorem HoldsOrdered.congr (o : HoldsOrdered s) (hh : t.holds = s.holds) (hn : t.notes = s.notes) (hc : t.siteHolds = s.siteHolds)
    (hi : t.nextHold = s.nextHold) : HoldsOrdered t := by
  have hcount : ∀ k, t.siteHoldCount k = s.siteHoldCount k := fun k => by unfold State.siteHoldCount; rw [hc]
  have hof : ∀ card, t.holdsOf card = s.holdsOf card := fun card => by unfold State.holdsOf; rw [hh]
  have hkey : ∀ site ref, t.holdByKey site ref = s.holdByKey site ref := fun site ref => by unfold State.holdByKey; rw [hh]
  exact
    { ids := hh ▸ o.ids, given := by rw [hh, hi]; exact o.given, keys := hh ▸ o.keys
      counts := fun k => by rw [hcount, hh]; exact o.counts k
      siteRoom := fun k => (hcount k).trans_le (o.siteRoom k)
      cardRoom := fun card => hof card ▸ o.cardRoom card
      room := hh ▸ o.room, noteRoom := hn ▸ o.noteRoom, noteKeys := hn ▸ o.noteKeys
      unnoted := fun n hm => (hkey _ _).trans (o.unnoted n (hn ▸ hm)) }

/-! ### A hold is freed (R81, R82, R84) -/

/-- The numbers of the holds being their own, the freeing of a live hold takes that one alone from the table. -/
theorem State.freeHold_perm (hids : (s.holds.map (fun h => h.id)).Nodup) (hm : h ∈ s.holds) :
    s.holds.Perm (h :: (s.freeHold h).holds) := by
  have herase : s.holds.erase h = (s.freeHold h).holds := by
    rw [hids.of_map.erase_eq_filter]
    refine List.filter_congr fun k hk => ?_
    have hid : k = h ↔ k.id = h.id := ⟨congrArg _, List.inj_on_of_nodup_map hids hk hm⟩
    simp only [ne_eq, decide_not, bne, beq_eq_decide, decide_eq_decide.2 hid]
  rw [← herase]
  exact List.perm_cons_erase hm

theorem HoldsOrdered.freeHold (o : HoldsOrdered s) (hm : h ∈ s.holds) : HoldsOrdered (s.freeHold h) := by
  have hperm := State.freeHold_perm o.ids hm
  have hsub : (s.freeHold h).holds.Sublist s.holds := List.filter_sublist
  have hcounts : ∀ k, (s.freeHold h).siteHoldCount k = ((s.freeHold h).holds.filter (fun x => decide (x.site = k))).length := fun k => by
    have hlen := (hperm.filter (fun x => decide (x.site = k))).length_eq
    rw [← o.counts k, List.filter_cons] at hlen
    rw [(s.freeHold_effects h).2 k]
    by_cases hk : k = h.site
    · subst hk
      rw [if_pos (decide_eq_true rfl), List.length_cons] at hlen
      rw [if_pos rfl, hlen, Nat.add_sub_cancel]
    · rw [if_neg (by simpa using Ne.symm hk)] at hlen
      rw [if_neg hk, hlen]
  exact
    { ids := o.ids.sublist (hsub.map _)
      given := fun k hk => o.given k (hsub.mem hk)
      keys := o.keys.sublist (hsub.map _)
      counts := hcounts
      siteRoom := fun k => by
        rw [hcounts]
        exact ((hsub.filter _).length_le.trans (o.counts k).ge).trans (o.siteRoom k)
      cardRoom := fun card => (hsub.filter _).length_le.trans (o.cardRoom card)
      room := hsub.length_le.trans o.room
      noteRoom := o.noteRoom
      noteKeys := o.noteKeys
      unnoted := fun n hn => State.holdByKey_none_iff.2 fun x hx => State.holdByKey_none_iff.1 (o.unnoted n hn) x (hsub.mem hx) }

/-- Once a hold is freed its key is live no more. -/
theorem HoldsOrdered.freeHold_key (o : HoldsOrdered s) (hm : h ∈ s.holds) : (s.freeHold h).holdByKey h.site h.ref = none :=
  State.holdByKey_none_iff.2 fun x hx e => by
    obtain ⟨hx, hne⟩ := List.mem_filter.1 hx
    exact of_decide_eq_true hne (congrArg Hold.id (o.eq_of_key hm hx e))

/-! ### An expiry is noted (R84, R95) -/

theorem addNote_sublist (notes : List ExpiryNote) (n : ExpiryNote) : (addNote notes n).Sublist (notes ++ [n]) := by
  unfold addNote; split
  · exact List.Sublist.refl _
  · exact (List.drop_sublist _ _).append_right _

theorem addNote_length {notes : List ExpiryNote} (n : ExpiryNote) (hle : notes.length ≤ Config.notes) :
    (addNote notes n).length ≤ Config.notes := by
  unfold addNote Config.notes at *; split <;> simp <;> omega

/-- A note joins whose key neither a note nor a live hold has. -/
theorem HoldsOrdered.addNote (o : HoldsOrdered s) {n : ExpiryNote} (hn : ∀ x ∈ s.notes, ¬ (x.site = n.site ∧ x.ref = n.ref))
    (hk : s.holdByKey n.site n.ref = none) : HoldsOrdered { s with notes := addNote s.notes n } where
  __ := o
  noteRoom := addNote_length n o.noteRoom
  noteKeys := by
    have hsub := (addNote_sublist s.notes n).map (fun n => (n.site, n.ref))
    refine List.Nodup.sublist hsub ?_
    rw [List.map_append, List.nodup_append]
    refine ⟨o.noteKeys, List.nodup_singleton _, fun a ha b hb e => ?_⟩
    obtain ⟨x, hx, rfl⟩ := List.mem_map.1 ha
    obtain rfl := List.mem_singleton.1 hb
    exact hn x hx (Prod.mk.inj e)
  unnoted x hx := by
    rcases List.mem_append.1 ((addNote_sublist s.notes n).mem hx) with hx | hx
    · exact o.unnoted x hx
    · obtain rfl := List.mem_singleton.1 hx
      exact hk

/-- R84: the key of a live hold is not noted. -/
theorem HoldsOrdered.not_noted (o : HoldsOrdered s) (hm : h ∈ s.holds) : ∀ x ∈ s.notes, ¬ (x.site = h.site ∧ x.ref = h.ref) :=
  fun x hx ⟨hsite, href⟩ => State.holdByKey_none_iff.1 (o.unnoted x hx) h hm ⟨hsite.symm, href.symm⟩

theorem State.expireHold_table (s : State) (h : Hold) : (s.expireHold h).holds = (s.freeHold h).holds ∧
    (s.expireHold h).notes = addNote s.notes ⟨h.site, h.ref, h.id⟩ ∧ (s.expireHold h).siteHolds = (s.freeHold h).siteHolds ∧
    (s.expireHold h).nextHold = s.nextHold := by
  have honly := State.forfeitTest_only { s.freeHold h with notes := addNote s.notes ⟨h.site, h.ref, h.id⟩ } h.card
  exact ⟨honly.holds, honly.notes, honly.siteHolds, honly.nextHold⟩

theorem HoldsOrdered.expireHold (o : HoldsOrdered s) (hm : h ∈ s.holds) : HoldsOrdered (s.expireHold h) :=
  have ⟨hholds, hnotes, hcounts, hnext⟩ := s.expireHold_table h
  ((o.freeHold hm).addNote (n := ⟨h.site, h.ref, h.id⟩) (o.not_noted hm) (o.freeHold_key hm)).congr hholds hnotes hcounts hnext

/-! ### A hold is changed in its place (R82) -/

/-- The change of a hold leaves its number, its key and its card. -/
def KeepsKey (f : Hold → Hold) : Prop := ∀ h, (f h).id = h.id ∧ (f h).site = h.site ∧ (f h).ref = h.ref ∧ (f h).card = h.card

theorem HoldsOrdered.modHold (o : HoldsOrdered s) (id : Nat) {f : Hold → Hold} (hf : KeepsKey f) : HoldsOrdered (s.modHold id f) := by
  generalize hg : (fun h => if h.id = id then f h else h) = g
  have hholds : (s.modHold id f).holds = s.holds.map g := by rw [← hg]; rfl
  have hkept : KeepsKey g := fun h => by
    rw [← hg]; dsimp only; split
    · exact hf h
    · exact ⟨rfl, rfl, rfl, rfl⟩
  have hlen : ∀ p : Hold → Bool, (∀ h, p (g h) = p h) → ((s.modHold id f).holds.filter p).length = (s.holds.filter p).length :=
    fun p hp => by rw [hholds, List.filter_map, List.length_map, show p ∘ g = p from funext hp]
  refine
    { ids := ?_, given := ?_, keys := ?_, counts := fun k => ?_, siteRoom := o.siteRoom, cardRoom := fun card => ?_, room := ?_
      noteRoom := o.noteRoom, noteKeys := o.noteKeys
      unnoted := fun n hn => State.holdByKey_none_iff.2 ?_ }
  · rw [hholds, List.map_map, show (fun h => h.id) ∘ g = fun h => h.id from funext fun h => (hkept h).1]
    exact o.ids
  · rw [hholds, List.forall_mem_map]
    exact fun h hm => (hkept h).1 ▸ o.given h hm
  · rw [hholds, List.map_map, show (fun h : Hold => (h.site, h.ref)) ∘ g = fun h => (h.site, h.ref) from
      funext fun h => Prod.ext (hkept h).2.1 (hkept h).2.2.1]
    exact o.keys
  · rw [hlen _ fun h => by rw [(hkept h).2.1]]
    exact o.counts k
  · exact (hlen _ fun h => by rw [(hkept h).2.2.2]).trans_le (o.cardRoom card)
  · rw [hholds, List.length_map]; exact o.room
  · rw [hholds, List.forall_mem_map]
    intro h hm
    rw [(hkept h).2.1, (hkept h).2.2.1]
    exact State.holdByKey_none_iff.1 (o.unnoted n hn) h hm

/-! ### A hold is made (R81, R82, R84, R86) -/

/-- A hold joins under a new number and a key that is not live, within the three limits; its key's note goes. -/
theorem HoldsOrdered.made (o : HoldsOrdered s) (hid : h.id = s.nextHold) (hkey : s.holdByKey h.site h.ref = none)
    (hlimit : s.holdLimit h.site h.card = false) (hholds : t.holds = s.holds ++ [h]) (hnext : t.nextHold = s.nextHold + 1)
    (hnotes : t.notes = s.notes.filter (fun n => !n.hasKey h.site h.ref))
    (hcount : ∀ k, t.siteHoldCount k = if k = h.site then s.siteHoldCount h.site + 1 else s.siteHoldCount k) : HoldsOrdered t := by
  unfold State.holdLimit at hlimit
  simp only [Bool.or_eq_false_iff, decide_eq_false_iff_not, not_le] at hlimit
  obtain ⟨⟨hcard, hsite⟩, hroom⟩ := hlimit
  have hsub : t.notes.Sublist s.notes := hnotes ▸ List.filter_sublist
  refine
    { ids := ?_, given := ?_, keys := ?_, counts := fun k => ?_, siteRoom := fun k => ?_, cardRoom := fun card => ?_, room := ?_
      noteRoom := hsub.length_le.trans o.noteRoom, noteKeys := o.noteKeys.sublist (hsub.map _)
      unnoted := fun n hn => State.holdByKey_none_iff.2 ?_ }
  · rw [hholds, List.map_append, List.nodup_append]
    refine ⟨o.ids, List.nodup_singleton _, fun a ha b hb e => ?_⟩
    obtain ⟨x, hx, rfl⟩ := List.mem_map.1 ha
    obtain rfl := List.mem_singleton.1 hb
    exact (o.given x hx).ne (e.trans hid)
  · rw [hholds, hnext, List.forall_mem_append, List.forall_mem_singleton, hid]
    exact ⟨fun x hx => Nat.lt_succ_of_lt (o.given x hx), Nat.lt_succ_self _⟩
  · rw [hholds, List.map_append, List.nodup_append]
    refine ⟨o.keys, List.nodup_singleton _, fun a ha b hb e => ?_⟩
    obtain ⟨x, hx, rfl⟩ := List.mem_map.1 ha
    obtain rfl := List.mem_singleton.1 hb
    exact State.holdByKey_none_iff.1 hkey x hx (Prod.mk.inj e)
  · rw [hholds, List.filter_append, List.length_append, hcount, ← o.counts k]
    by_cases hk : k = h.site
    · subst hk; simp
    · rw [if_neg hk, List.filter_cons_of_neg (by simpa using Ne.symm hk)]; rfl
  · rw [hcount]; split
    · exact hsite
    · exact o.siteRoom k
  · unfold State.holdsOf
    rw [hholds, List.filter_append, List.length_append]
    by_cases hk : card = h.card
    · subst hk
      rw [List.filter_cons_of_pos (by simp)]
      exact hcard
    · rw [List.filter_cons_of_neg (by simpa using Ne.symm hk)]
      exact o.cardRoom card
  · rw [hholds, List.length_append]; exact hroom
  · rw [hnotes, List.mem_filter, Bool.not_eq_true'] at hn
    obtain ⟨hn, hne⟩ := hn
    rw [hholds, List.forall_mem_append, List.forall_mem_singleton]
    refine ⟨State.holdByKey_none_iff.1 (o.unnoted n hn), fun ⟨hsite, href⟩ => ?_⟩
    rw [(n.hasKey_iff h.site h.ref).2 ⟨hsite.symm, href.symm⟩] at hne
    cases hne

end

end Sys2Proof.Machine
end

section
/-! What the part does keeps the Hold Table in order (R81, R82, R84): a hold leaves, is noted, changes or joins in one of the few ways
above, and every other change leaves the table, its counts and its notes alone. -/

namespace Sys2Proof.Machine
open Piece

/-- The change keeps the Hold Table in order. -/
def HoldsKept (s t : State) : Prop := HoldsOrdered s → HoldsOrdered t

theorem HoldsKept.refl (s : State) : HoldsKept s s := id

theorem HoldsOrdered.after {s t : State} (o : HoldsOrdered s) (h : HoldsKept s t) : HoldsOrdered t := h o

theorem HoldsKept.trans {s t u : State} (h : HoldsKept s t) (k : HoldsKept t u) : HoldsKept s u := fun o => k (h o)

theorem HoldsKept.foldl {α : Type} {f : State → α → State} (h : ∀ s x, HoldsKept s (f s x)) :
    ∀ (xs : List α) (s : State), HoldsKept s (xs.foldl f s)
  | [], s => HoldsKept.refl s
  | x :: xs, s => (h s x).trans (HoldsKept.foldl h xs (f s x))

/-- A change beside the table. -/
theorem HoldsKept.beside {s t : State}
    (h : (t.holds, t.notes, t.siteHolds, t.nextHold) = (s.holds, s.notes, s.siteHolds, s.nextHold)) : HoldsKept s t := fun o => by
  obtain ⟨hholds, h⟩ := Prod.mk.inj h
  obtain ⟨hnotes, h⟩ := Prod.mk.inj h
  obtain ⟨hcounts, hnext⟩ := Prod.mk.inj h
  exact o.congr hholds hnotes hcounts hnext

/-- The pieces that the order of the table reads. -/
abbrev Piece.ofTable : List Piece := [.holds, .notes, .siteHolds, .nextHold]

theorem Only.holdsKept {may : List Piece} {s t : State} (h : Only may s t)
    (hm : (Piece.ofTable.all fun p => !may.contains p) = true) : HoldsKept s t := by
  have hfree : ∀ p ∈ Piece.ofTable, p ∉ may := fun p hp => by simpa using List.all_eq_true.1 hm p hp
  refine .beside ?_
  rw [h.holds (hfree _ (by simp)), h.notes (hfree _ (by simp)), h.siteHolds (hfree _ (by simp)), h.nextHold (hfree _ (by simp))]

variable {s : State} {l card : Nat} {e : ReplyEntry}

/-! ### Holds that are due -/

theorem expireIfDue_holdsKept {id : Nat} : HoldsKept s (s.expireIfDue id) := by
  unfold State.expireIfDue; split
  · next hh =>
    split
    · exact fun o => o.expireHold (State.holdById_some hh).1
    · exact HoldsKept.refl s
  · exact HoldsKept.refl s

theorem insertByInstant_perm (h : Hold) : ∀ hs : List Hold, (insertByInstant h hs).Perm (h :: hs)
  | [] => List.Perm.refl _
  | x :: hs => by
    unfold insertByInstant; split
    · exact List.Perm.refl _
    · exact ((insertByInstant_perm h hs).cons x).trans (List.Perm.swap h x hs)

theorem sortByInstant_perm (hs : List Hold) : (sortByInstant hs).Perm hs := by
  have inserted : ∀ hs acc : List Hold, (hs.foldl (fun acc h => insertByInstant h acc) acc).Perm (hs ++ acc) := by
    intro hs
    induction hs with
    | nil => exact fun acc => List.Perm.refl _
    | cons h hs ih =>
      exact fun acc => (ih _).trans (((insertByInstant_perm h acc).append_left hs).trans List.perm_middle)
  simpa [sortByInstant] using inserted hs []

theorem dueHolds_live {r : Reading} {h : Hold} (hm : h ∈ s.dueHolds r) : h ∈ s.holds :=
  List.mem_of_mem_filter ((sortByInstant_perm _).mem_iff.1 hm)

theorem HoldsOrdered.dueHolds_ids (o : HoldsOrdered s) (r : Reading) : ((s.dueHolds r).map (fun h => h.id)).Nodup :=
  (((sortByInstant_perm _).map _).nodup_iff).2 (o.ids.sublist (List.filter_sublist.map _))

/-- Live holds of numbers of their own leave the table one after another. -/
theorem HoldsOrdered.foldl_frees {f : State → Hold → State}
    (hf : ∀ s h, HoldsOrdered s → h ∈ s.holds → HoldsOrdered (f s h) ∧ (f s h).holds = (s.freeHold h).holds) :
    ∀ (hs : List Hold) (s : State), HoldsOrdered s → (∀ h ∈ hs, h ∈ s.holds) → (hs.map (fun h => h.id)).Nodup →
      HoldsOrdered (hs.foldl f s)
  | [], _, o, _, _ => o
  | h :: hs, s, o, hm, hnd => by
    obtain ⟨hh, hrest⟩ := List.forall_mem_cons.1 hm
    obtain ⟨hfresh, hnd⟩ := List.nodup_cons.1 hnd
    obtain ⟨o, heq⟩ := hf s h o hh
    refine foldl_frees hf hs _ o (fun k hk => heq ▸ List.mem_filter.2 ⟨hrest k hk, decide_eq_true fun hid => hfresh ?_⟩) hnd
    exact List.mem_map.2 ⟨k, hk, hid⟩

theorem HoldsOrdered.foldl_due {f : State → Hold → State}
    (hf : ∀ s h, HoldsOrdered s → h ∈ s.holds → HoldsOrdered (f s h) ∧ (f s h).holds = (s.freeHold h).holds) (r : Reading)
    (o : HoldsOrdered s) : HoldsOrdered ((s.dueHolds r).foldl f s) :=
  HoldsOrdered.foldl_frees hf _ s o (fun _ => dueHolds_live) (o.dueHolds_ids r)

/-! ### Undos and the emptying of a link (R136, R165, R166) -/

theorem undoHold_holdsKept {u : UndoRecord} {id : Nat} : HoldsKept s (s.undoHold u id) := by
  have purses : ∀ t : State, HoldsKept t ((t.undoPurses u).1.forfeitTest u.card) := fun t =>
    ((t.undoPurses_only u).holdsKept rfl).trans ((State.forfeitTest_only _ _).holdsKept rfl)
  unfold State.undoHold; dsimp only; split
  · next hh => exact fun o => purses _ (o.freeHold (State.holdById_some hh).1)
  · exact purses s

theorem undoBeside_holdsKept {u : UndoRecord} : HoldsKept s (s.undoBeside u) := by
  unfold State.undoBeside; split
  · exact fun o => o.modHold _ fun _ => ⟨rfl, rfl, rfl, rfl⟩
  · exact (s.unexpose_only _ _ _).holdsKept rfl
  · exact HoldsKept.refl s

theorem undoAfter_holdsKept {u : UndoRecord} : HoldsKept s (s.undoAfter u) := by
  unfold State.undoAfter; split
  · exact expireIfDue_holdsKept
  · exact HoldsKept.refl s

theorem undo_holdsKept {u : UndoRecord} : HoldsKept s (s.undo u) := by
  unfold State.undo; split
  · exact undoHold_holdsKept
  · exact HoldsKept.refl s
  · exact (((((s.undoPurses_only u).holdsKept rfl).trans undoBeside_holdsKept).trans ((State.releaseSlot_only _).holdsKept rfl)).trans
      ((State.joinRecord_only _ _).holdsKept rfl)).trans undoAfter_holdsKept

theorem emptyEntry_holdsKept {a : State × Emptied} : HoldsKept a.1 (State.emptyEntry l e a).1 := by
  have dropped : HoldsKept a.1 ((a.1.dropEntry l e.slot).endMark e) :=
    ((a.1.dropEntry_only l e.slot).holdsKept rfl).trans ((State.endMark_only _ e).holdsKept rfl)
  unfold State.emptyEntry; dsimp only; split
  · exact dropped.trans ((State.abandon_only _ _ _).holdsKept rfl)
  · exact dropped.trans undo_holdsKept
  · exact dropped.trans undo_holdsKept
  · exact dropped.trans ((State.queue_only _ _).holdsKept rfl)
  · exact dropped

theorem emptied_holdsKept : ∀ (es : List ReplyEntry) (a : State × Emptied),
    HoldsKept a.1 (es.foldl (fun acc e => State.emptyEntry l e acc) a).1
  | [], a => HoldsKept.refl a.1
  | _ :: es, _ => emptyEntry_holdsKept.trans (emptied_holdsKept es _)

theorem emptyLink_holdsKept {st : LinkState} {n : Emptied} : HoldsKept s (s.emptyLink l st n).1 :=
  ((emptied_holdsKept _ (s, n)).trans ((s.inFallOrder_only _).holdsKept rfl)).trans ((State.closeSession_only _ l st).holdsKept rfl)

theorem loseLink_holdsKept {b : Bool} : HoldsKept s (s.loseLink l b) := emptyLink_holdsKept.trans ((State.raise_only _ _ _).holdsKept rfl)

theorem emptiedLinks_holdsKept : ∀ (ls : List Nat) (a : State × Emptied),
    HoldsKept a.1 (ls.foldl (fun acc l => State.emptyLink acc.1 l .disabled acc.2) a).1
  | [], a => HoldsKept.refl a.1
  | _ :: ls, _ => emptyLink_holdsKept.trans (emptiedLinks_holdsKept ls _)

/-! ### Delivery and the gate timeout (R87, R90, R134) -/

theorem confirm_holdsKept {u : UndoRecord} : HoldsKept s (s.confirm u) := by
  unfold State.confirm; split
  · exact HoldsKept.refl s
  · exact HoldsKept.refl s
  · exact fun o => expireIfDue_holdsKept (o.modHold _ fun _ => ⟨rfl, rfl, rfl, rfl⟩)
  · split
    · next hh => exact fun o => o.freeHold (State.holdById_some hh).1
    · exact HoldsKept.refl s
  · exact (s.credit_only _ _ _ _).holdsKept rfl
  · exact (s.credit_only _ _ _ _).holdsKept rfl

theorem deliver_holdsKept {reply : TillReply} {u : Option UndoRecord} : HoldsKept s (s.deliver l e reply u) := by
  have handed : HoldsKept s ((s.transmit l (.tillReply reply)).dropEntry l e.slot) :=
    ((s.transmit_only l _).holdsKept rfl).trans ((State.dropEntry_only _ l _).holdsKept rfl)
  have confirmed : ∀ x, HoldsKept s ((((s.transmit l (.tillReply reply)).dropEntry l e.slot).confirm x).releaseOf x) := fun _ =>
    (handed.trans confirm_holdsKept).trans ((State.releaseOf_only _ _).holdsKept rfl)
  have lowered : ∀ {t : State}, HoldsKept s t → HoldsKept s (t.lowerExposure e reply) := fun h =>
    h.trans ((State.lowerExposure_only _ e reply).holdsKept rfl)
  unfold State.deliver
  cases u with
  | none =>
    dsimp only; split
    · exact (lowered handed).trans ((State.atTill_only _ _ e reply none).holdsKept rfl)
    · exact lowered handed
  | some x =>
    dsimp only; split
    · exact (lowered (confirmed x)).trans ((State.atTill_only _ _ e reply (some x)).holdsKept rfl)
    · exact lowered (confirmed x)

theorem gateTimeout_holdsKept {reply : TillReply} {u : UndoRecord} : HoldsKept s (s.gateTimeout l e reply u) :=
  (undo_holdsKept.trans ((State.clearMark_only _ e).holdsKept rfl)).trans ((State.finish_only _ l e.slot _).holdsKept rfl)

/-! ### The evaluation of a request (R41, R86, R89, R92) -/

theorem decline_holdsKept {r : Reason} {free : Option Nat} : HoldsKept s (decline l e r free s) := (decline_only s l e r free).holdsKept rfl

theorem unexpected_holdsKept : HoldsKept s (unexpected l e s) := decline_holdsKept

theorem withRecord_holdsKept {act : CardData → Nat → State → State} (h : ∀ d n t, HoldsKept t (act d n t)) :
    HoldsKept s (s.withRecord l e card act) := by
  unfold State.withRecord; dsimp only; split
  · exact ((s.forfeitTest_only card).holdsKept rfl).trans (h _ _ _)
  · exact ((s.forfeitTest_only card).holdsKept rfl).trans unexpected_holdsKept

theorem underProgram_holdsKept {act : Program → State} (h : ∀ p, HoldsKept s (act p)) : HoldsKept s (s.underProgram l e card act) := by
  unfold State.underProgram; split
  · exact decline_holdsKept
  · exact h _

/-- R126: the admission test leaves the table as it is for what an admitted request does. -/
theorem admitted_holdsKept {free : Option Nat} {act : State → State}
    (h : ∀ t, Only [.journal, .events, .out] s t → HoldsKept t (act t)) : HoldsKept s (s.admitted l e free act) := by
  unfold State.admitted; split
  · next ht => exact ((State.admission_frame ht).holdsKept rfl).trans (h _ (State.admission_frame ht))
  · next ht => exact ((State.admission_frame ht).holdsKept rfl).trans decline_holdsKept

section
variable {p : Program} {q : Option Program} {d : CardData} {stay site id : Nat} {x : StackEntry}

theorem evalRedeem_holdsKept : HoldsKept s (evalRedeem l e p d stay s) := by
  unfold evalRedeem; dsimp only; split
  · exact decline_holdsKept
  · split
    · exact decline_holdsKept
    · split
      · exact decline_holdsKept
      · exact admitted_holdsKept fun t _ => (applyRedeem_only t l e p d stay _).holdsKept rfl

theorem evalReload_holdsKept : HoldsKept s (evalReload l e p d stay s) := by
  unfold evalReload; dsimp only; split
  · exact decline_holdsKept
  · split
    · exact decline_holdsKept
    · exact admitted_holdsKept fun t _ => (applyReload_only t l e p d stay).holdsKept rfl

theorem evalReverse_holdsKept : HoldsKept s (evalReverse l e q x d stay s) := by
  unfold evalReverse; dsimp only; split
  · exact decline_holdsKept
  · exact admitted_holdsKept fun t _ => (applyReverse_only t l e q x d stay).holdsKept rfl

/-- R86: a hold is made for a key that is not live, within the three limits. -/
theorem applyHold_holdsKept {x : Debit} (hkey : s.holdByKey site e.msg.holdRef = none) (hlimit : s.holdLimit site d.card = false) :
    HoldsKept s (applyHold l e p site d stay x s) := fun o =>
  have made := o.made (t := ({ s.dropNotes site e.msg.holdRef with
      holds := s.holds ++ [⟨s.nextHold, site, e.msg.holdRef, d.card, x.bonus, x.core, p.limits.tipTolerance,
        expiryInstant s.now p.limits.holdLifetime, .new⟩], nextHold := s.nextHold + 1 } : State).countSite site (fun n => n + 1))
    rfl hkey hlimit rfl rfl rfl fun k => Table.get_set 0 s.siteHolds site k _
  (made.after ((State.writeData_only _ d.card _).holdsKept rfl)).after ((ready_only _ l e _ _).holdsKept rfl)

theorem evalHold_holdsKept : HoldsKept s (evalHold l e p site d stay s) := by
  unfold evalHold; dsimp only; split
  · exact decline_holdsKept
  · split
    · exact decline_holdsKept
    · split
      · exact decline_holdsKept
      · next hkey =>
        split
        · exact decline_holdsKept
        · next hlimit =>
          split
          · exact decline_holdsKept
          · refine admitted_holdsKept fun t ht => applyHold_holdsKept ?_ ?_
            · rw [Option.not_isSome_iff_eq_none] at hkey
              unfold State.holdByKey at hkey ⊢
              rw [ht.holds, hkey]
            · rw [Bool.not_eq_true] at hlimit
              unfold State.holdLimit State.holdsOf State.siteHoldCount at hlimit ⊢
              rw [ht.holds, ht.siteHolds, hlimit]

theorem applyComplete_holdsKept {h : Hold} {x : Capture} : HoldsKept s (applyComplete l e q h d stay x s) := fun o => by
  have written := o.after ((s.writeData_only d.card fun _ =>
    { d with bonus := d.bonus - x.bonus, core := d.core - (x.core + x.extra) }).holdsKept rfl)
  have captured := written.modHold h.id (f := fun y => { y with bonus := 0, core := 0, state := .capturing x.bonus x.core x.extra })
    fun _ => ⟨rfl, rfl, rfl, rfl⟩
  unfold applyComplete
  exact (captured.after ((joinUndoable_only _ _).holdsKept rfl)).after ((gate_only _ l e q _ _ _).holdsKept rfl)

theorem evalComplete_holdsKept : HoldsKept s (evalComplete l e q id d stay s) := by
  unfold evalComplete; dsimp only; split
  · exact decline_holdsKept
  · exact decline_holdsKept
  · split
    · exact decline_holdsKept
    · exact admitted_holdsKept fun _ _ => applyComplete_holdsKept

/-- A hold that a request finds OPEN is live. -/
theorem State.checkHold_live {h : Hold} (hc : s.checkHold id = .live h) : s.holdById id = some h ∧ h.state = .opened := by
  unfold State.checkHold at hc; split at hc
  · next hh =>
    split at hc
    · next ho => cases hc; exact ⟨hh, ho⟩
    · cases hc
  · split at hc <;> cases hc

theorem evalRelease_holdsKept : HoldsKept s (evalRelease l e id d s) := by
  unfold evalRelease; dsimp only; split
  · exact decline_holdsKept
  · exact decline_holdsKept
  · next hc =>
    obtain ⟨hlive, -⟩ := State.holdById_some (State.checkHold_live hc).1
    exact fun o => ((o.freeHold hlive).after ((State.forfeitTest_only _ _).holdsKept rfl)).after ((ready_only _ l e _ _).holdsKept rfl)

theorem releaseWithoutCard_holdsKept : HoldsKept s (releaseWithoutCard l e id s) := by
  unfold releaseWithoutCard; split
  · exact decline_holdsKept
  · exact decline_holdsKept
  · next hc =>
    obtain ⟨hlive, -⟩ := State.holdById_some (State.checkHold_live hc).1
    exact fun o => (o.freeHold hlive).after ((ready_only _ l e _ _).holdsKept rfl)

end

theorem evaluate_holdsKept : HoldsKept s (evaluate l e card s) := by
  refine ((s.touch_only card).holdsKept rfl).trans ?_
  unfold evaluate; dsimp only; split
  · exact underProgram_holdsKept fun _ => withRecord_holdsKept fun d _ t => (evalEnquiry_only t l e d).holdsKept rfl
  · exact underProgram_holdsKept fun _ => withRecord_holdsKept fun _ _ _ => evalRedeem_holdsKept
  · split
    · exact underProgram_holdsKept fun _ => withRecord_holdsKept fun _ _ _ => evalHold_holdsKept
    · exact unexpected_holdsKept
  · exact underProgram_holdsKept fun _ => withRecord_holdsKept fun _ _ _ => evalReload_holdsKept
  · split
    · exact withRecord_holdsKept fun _ _ _ => evalComplete_holdsKept
    · exact unexpected_holdsKept
  · split
    · exact withRecord_holdsKept fun _ _ _ => evalRelease_holdsKept
    · exact unexpected_holdsKept
  · split
    · exact withRecord_holdsKept fun _ _ _ => evalReverse_holdsKept
    · exact unexpected_holdsKept
  · exact unexpected_holdsKept
  · exact unexpected_holdsKept
  · exact unexpected_holdsKept

/-! ### The directory's decision (R41, R110, R115) -/

theorem refer_holdsKept : HoldsKept s (refer l e s) := (refer_only s l e).holdsKept rfl

theorem joinWaitList_holdsKept : HoldsKept s (joinWaitList l e card s) := (joinWaitList_only s l e card).holdsKept rfl

theorem missUnfetched_holdsKept : HoldsKept s (missUnfetched l e s) := by
  unfold missUnfetched; split
  · exact releaseWithoutCard_holdsKept
  · exact decline_holdsKept
  · exact refer_holdsKept

theorem miss_holdsKept : HoldsKept s (miss l e card s) := by
  unfold miss; split
  · unfold missNormal; split
    · exact missUnfetched_holdsKept
    · split
      · exact decline_holdsKept
      · exact (issueFetch_only s l e card _ _).holdsKept rfl
  · exact missUnfetched_holdsKept

theorem meetReserved_holdsKept : HoldsKept s (meetReserved l e card s) := by
  unfold meetReserved; split
  · exact missUnfetched_holdsKept
  · exact joinWaitList_holdsKept

theorem readRecord_holdsKept_of_eq {t : State} {x : Option (CardRecord × Nat)} (h : s.readRecord card = (t, x)) : HoldsKept s t := by
  have := (s.readRecord_only card).holdsKept rfl
  rwa [h] at this

theorem lookup_holdsKept {onMiss : State → State} (h : ∀ t, HoldsKept t (onMiss t)) : HoldsKept s (lookup l e card onMiss s) := by
  unfold lookup; split
  · exact h s
  · split
    · split
      · exact (readRecord_holdsKept_of_eq ‹_›).trans evaluate_holdsKept
      · exact (readRecord_holdsKept_of_eq ‹_›).trans (h _)
    · exact meetReserved_holdsKept
    · exact h s

theorem flushingDecision_holdsKept {onMiss : State → State} (h : ∀ t, HoldsKept t (onMiss t)) :
    HoldsKept s (flushingDecision l e card onMiss s) := by
  unfold flushingDecision; split
  · exact h s
  · split
    · exact decline_holdsKept
    · exact joinWaitList_holdsKept
    · exact h s

theorem directoryDecision_holdsKept : HoldsKept s (directoryDecision l e card s) := by
  unfold directoryDecision; split
  · exact refer_holdsKept
  · split
    · exact refer_holdsKept
    · exact refer_holdsKept
    · exact flushingDecision_holdsKept fun _ => refer_holdsKept
    · exact lookup_holdsKept fun _ => miss_holdsKept
    · exact lookup_holdsKept fun _ => miss_holdsKept

theorem journalOnly_holdsKept {x : StackEntry} : HoldsKept s (journalOnly l e x s) :=
  admitted_holdsKept fun _ _ => ((joinUndoable_only _ _).holdsKept rfl).trans ((gate_only _ l e _ _ _ _).holdsKept rfl)

theorem standInReverse_holdsKept {x : StackEntry} : HoldsKept s (standInReverse l e x s) := by
  unfold standInReverse; split
  · exact lookup_holdsKept fun _ => journalOnly_holdsKept
  · exact lookup_holdsKept fun _ => journalOnly_holdsKept
  · exact flushingDecision_holdsKept fun _ => journalOnly_holdsKept
  iterate 2
    split
    · exact refer_holdsKept
    · exact joinWaitList_holdsKept
    · exact journalOnly_holdsKept

theorem applyStandIn_holdsKept {p : Program} {x : Nat} {partly : Bool} : HoldsKept s (applyStandIn l e p card x partly s) := by
  unfold applyStandIn; dsimp only
  exact ((((s.setExposure_only card _).holdsKept rfl).trans ((joinUndoable_only _ _).holdsKept rfl)).trans
    ((countersThenRaise_only _ _ _ _).holdsKept rfl)).trans ((gate_only _ l e _ _ _ _).holdsKept rfl)

theorem standInDecision_holdsKept : HoldsKept s (standInDecision l e card s) := by
  refine underProgram_holdsKept fun p => ?_
  split
  · exact decline_holdsKept
  · split
    · exact decline_holdsKept
    · exact admitted_holdsKept fun _ _ => applyStandIn_holdsKept

/-! ### The endings of a fetch (R110 to R114) -/

theorem serveWaiters_holdsKept {ws : List Waiter} {act : Nat → ReplyEntry → State → State} (h : ∀ l e t, HoldsKept t (act l e t)) :
    HoldsKept s (s.serveWaiters ws act) := by
  refine HoldsKept.foldl (fun t w => ?_) _ s
  split
  · exact h _ _ _
  · exact HoldsKept.refl t

theorem recheckReverse_holdsKept {x : StackEntry} {act : State → State} (h : HoldsKept s (act s)) :
    HoldsKept s (recheckReverse l e x act s) := by
  unfold recheckReverse; split
  · exact h
  · exact decline_holdsKept
  · exact decline_holdsKept

theorem serveInstalled_holdsKept : HoldsKept s (serveInstalled card l e s) := by
  unfold serveInstalled; split
  · exact recheckReverse_holdsKept evaluate_holdsKept
  · exact evaluate_holdsKept

theorem serveUnknown_holdsKept : HoldsKept s (serveUnknown l e s) := by
  unfold serveUnknown; split
  · exact releaseWithoutCard_holdsKept
  · exact decline_holdsKept

theorem serveTimedOut_holdsKept : HoldsKept s (serveTimedOut card l e s) := by
  unfold serveTimedOut; split
  · exact standInDecision_holdsKept
  · split
    · exact recheckReverse_holdsKept journalOnly_holdsKept
    · exact decline_holdsKept
  · exact releaseWithoutCard_holdsKept
  · exact decline_holdsKept

theorem serveFlushed_holdsKept : HoldsKept s (serveFlushed l e s) := by
  unfold serveFlushed; split
  · split
    · exact recheckReverse_holdsKept journalOnly_holdsKept
    · exact refer_holdsKept
  · exact refer_holdsKept

section
variable {tag gen : Nat} {f : Fetch}

theorem fetchInstalled_holdsKept {d : CardData} : HoldsKept s (fetchInstalled tag f d s) :=
  (((s.setRequest_only tag _).holdsKept rfl).trans ((State.install_only _ _ d).holdsKept rfl)).trans
    (serveWaiters_holdsKept fun _ _ _ => serveInstalled_holdsKept)

theorem fetchUnknown_holdsKept : HoldsKept s (fetchUnknown tag f s) :=
  ((s.endFetch_only tag f).holdsKept rfl).trans (serveWaiters_holdsKept fun _ _ _ => by
    split
    · exact serveFlushed_holdsKept
    · exact serveUnknown_holdsKept)

theorem fetchFlushed_holdsKept : HoldsKept s (fetchFlushed tag f s) :=
  ((s.endFetch_only tag f).holdsKept rfl).trans (serveWaiters_holdsKept fun _ _ _ => serveFlushed_holdsKept)

theorem fetchTimedOut_holdsKept : HoldsKept s (fetchTimedOut tag f s) :=
  (((s.endFetch_only tag f).holdsKept rfl).trans ((State.raise_only _ _ _).holdsKept rfl)).trans (serveWaiters_holdsKept fun _ _ _ => by
    split
    · exact serveFlushed_holdsKept
    · exact serveTimedOut_holdsKept)

theorem hostTimeout_holdsKept {x : HostEntry} : HoldsKept s (hostTimeout tag x s) := by
  unfold hostTimeout; split
  · exact fetchTimedOut_holdsKept
  · exact (referralTimedOut_only s tag _).holdsKept rfl

theorem takeCardData_holdsKept {kind : HostKind} {w : CardWire} : HoldsKept s (takeCardData tag gen kind w s) := by
  have refused : HoldsKept s (s.refuseAnswer Kind.cardData tag gen) := (s.refuseAnswer_only _ tag gen).holdsKept rfl
  unfold takeCardData; split
  · exact refused
  · split
    · exact refused
    · split
      · exact fetchFlushed_holdsKept
      · exact fetchInstalled_holdsKept

theorem takeNoSuchCard_holdsKept {kind : HostKind} {x : Unit} : HoldsKept s (takeNoSuchCard tag gen kind x s) := by
  unfold takeNoSuchCard; split
  · exact (s.refuseAnswer_only _ tag gen).holdsKept rfl
  · exact fetchUnknown_holdsKept

end

theorem settle_holdsKept : HoldsKept s s.settle := s.settle_only.holdsKept rfl

theorem hostAnswer_holdsKept {α : Type} {kind : Word16} {f : AnswerFrame α} {act : Nat → Nat → HostKind → α → State → State}
    (h : ∀ tag gen k y, HoldsKept s (act tag gen k y s)) : HoldsKept s (hostAnswer kind f s act) := by
  unfold hostAnswer; split
  · exact HoldsKept.refl s
  · exact (s.queue_only _).holdsKept rfl
  · split
    · exact (s.lateAnswer_only _ _ _).holdsKept rfl
    · split
      · split
        · exact (h _ _ _ _).trans settle_holdsKept
        · exact (s.lateAnswer_only _ _ _).holdsKept rfl
      · exact (h _ _ _ _).trans settle_holdsKept

theorem takePosted_holdsKept {f : PostedFrame} : HoldsKept s (takePosted f s) := by
  unfold takePosted; split
  · exact HoldsKept.refl s
  · exact s.badPosted_only.holdsKept rfl
  · split
    · exact ((s.post_only _ _ _).holdsKept rfl).trans settle_holdsKept
    · exact s.badPosted_only.holdsKept rfl

/-! ### The clock and the timers (R95, R172, R175) -/

/-- R84, R95: what stands in the table once the clock has reached a hold's instant. -/
theorem State.reachInstant_table (s : State) (h : Hold) : (s.reachInstant h).holds = (s.freeHold h).holds ∧
    (s.reachInstant h).notes = addNote s.notes ⟨h.site, h.ref, h.id⟩ ∧ (s.reachInstant h).siteHolds = (s.freeHold h).siteHolds ∧
    (s.reachInstant h).nextHold = s.nextHold := by
  have expired : ∀ t : State, t.holds = s.holds → t.notes = s.notes → t.siteHolds = s.siteHolds → t.nextHold = s.nextHold →
      (t.expireHold h).settle.holds = (s.freeHold h).holds ∧ (t.expireHold h).settle.notes = addNote s.notes ⟨h.site, h.ref, h.id⟩ ∧
      (t.expireHold h).settle.siteHolds = (s.freeHold h).siteHolds ∧ (t.expireHold h).settle.nextHold = s.nextHold :=
    fun t hh hn hc hi => by
      have honly := (t.expireHold h).settle_only
      obtain ⟨hholds, hnotes, hcounts, hnext⟩ := t.expireHold_table h
      rw [honly.holds, honly.notes, honly.siteHolds, honly.nextHold, hholds, hnotes, hcounts, hnext]
      unfold State.freeHold State.countSite State.siteHoldCount
      rw [hh, hn, hc, hi]
      exact ⟨rfl, rfl, rfl, rfl⟩
  unfold State.reachInstant; split
  · have honly := s.elapseTo_only h.expiry
    exact expired _ honly.holds honly.notes honly.siteHolds honly.nextHold
  · exact expired s rfl rfl rfl rfl

theorem HoldsOrdered.reachInstant (o : HoldsOrdered s) {h : Hold} (hm : h ∈ s.holds) : HoldsOrdered (s.reachInstant h) :=
  have ⟨hholds, hnotes, hcounts, hnext⟩ := s.reachInstant_table h
  have ⟨kholds, knotes, kcounts, knext⟩ := s.expireHold_table h
  (o.expireHold hm).congr (hholds.trans kholds.symm) (hnotes.trans knotes.symm) (hcounts.trans kcounts.symm) (hnext.trans knext.symm)

theorem advanceTo_holdsKept {r : Reading} : HoldsKept s (s.advanceTo r) := fun o =>
  (o.foldl_due (fun t h o hm => ⟨o.reachInstant hm, (t.reachInstant_table h).1⟩) r).after ((State.elapseTo_only _ r).holdsKept rfl)

theorem elapse_holdsKept {n : Nat} : HoldsKept s (s.elapse n) := by
  unfold State.elapse; split
  · exact (s.countDown_only n).holdsKept rfl
  · exact advanceTo_holdsKept.trans ((State.countDown_only _ _).holdsKept rfl)

theorem moveClock_holdsKept {c : Clock} : HoldsKept s (moveClock c s).1 := by
  have expired : ∀ t : State, HoldsKept t (t.inFallOrder ((t.dueHolds c.reading).foldl State.expireHold t)) := fun t o =>
    (o.foldl_due (fun u h o hm => ⟨o.expireHold hm, (u.expireHold_table h).1⟩) c.reading).after ((t.inFallOrder_only _).holdsKept rfl)
  unfold moveClock; dsimp only [done]; split
  · exact (((withClock_only s c).holdsKept rfl).trans ((State.rollover_only _ true).holdsKept rfl)).trans (expired _)
  · exact ((withClock_only s c).holdsKept rfl).trans (expired _)

theorem fireTag_holdsKept {tag : Nat} : HoldsKept s (s.fireTag tag) := by
  unfold State.fireTag; split
  · split
    · exact hostTimeout_holdsKept
    · exact HoldsKept.refl s
  · exact HoldsKept.refl s

theorem fireGates_holdsKept : HoldsKept s (s.fireGates l) := by
  refine HoldsKept.foldl (fun t e => ?_) _ s
  split
  · exact gateTimeout_holdsKept
  · exact HoldsKept.refl t

theorem firePresence_holdsKept : HoldsKept s (s.firePresence l) := by
  unfold State.firePresence; split
  · exact loseLink_holdsKept
  · exact HoldsKept.refl s

theorem fireTimers_holdsKept : HoldsKept s s.fireTimers :=
  ((HoldsKept.foldl (fun _ _ => fireTag_holdsKept) _ s).trans (HoldsKept.foldl (fun _ _ => fireGates_holdsKept) _ _)).trans
    (HoldsKept.foldl (fun _ _ => firePresence_holdsKept) _ _)

theorem pass_holdsKept {n : Nat} : HoldsKept s (s.pass n) := (elapse_holdsKept.trans fireTimers_holdsKept).trans settle_holdsKept

theorem runFor_holdsKept {r : Reading} : ∀ (n : Nat) (s : State), HoldsKept s (State.runFor r n s)
  | 0, _ => advanceTo_holdsKept
  | n + 1, _ => by
    unfold State.runFor; dsimp only; split
    · exact advanceTo_holdsKept
    · exact pass_holdsKept.trans (runFor_holdsKept n _)

theorem runUntil_holdsKept {r : Reading} : HoldsKept s (s.runUntil r) := runFor_holdsKept _ s

end Sys2Proof.Machine
end

section
/-! Every command and event keeps the Hold Table in order, and so does every step (R81, R82, R84). -/

namespace Sys2Proof.Machine

section
variable {s : State} {l card : Nat} {e : ReplyEntry}

theorem command_holdsKept {α : Type} {kind : Word16} {f : HostFrame α} {act : α → State → Answer}
    (h : ∀ x, HoldsKept s (act x s).1) : HoldsKept s (command kind f s act) := by
  unfold command; split
  · exact HoldsKept.refl s
  · exact (s.queue_only _).holdsKept rfl
  · exact (s.queue_only _).holdsKept rfl
  · exact (h _).trans ((State.queue_only _ _).holdsKept rfl)

theorem done_holdsKept {t : State} {d : ResultData} (h : HoldsKept s t) : HoldsKept s (done t d).1 := h

theorem settled_holdsKept {a : Answer} (h : HoldsKept s a.1) : HoldsKept s (settled a).1 := h.trans settle_holdsKept

/-! ### The commands that reach the table -/

/-- R182: the reset empties the table, its counts and its notes. -/
theorem engineReset_holdsKept : HoldsKept s (engineReset s).1 := by
  have cleared : ∀ t : State, HoldsOrdered t.clearEngine := fun t =>
    { ids := List.nodup_nil, given := List.forall_mem_nil _, keys := List.nodup_nil, counts := fun _ => rfl
      siteRoom := fun _ => Nat.zero_le _, cardRoom := fun _ => Nat.zero_le _, room := Nat.zero_le _, noteRoom := Nat.zero_le _
      noteKeys := List.nodup_nil, unnoted := List.forall_mem_nil _ }
  unfold engineReset
  generalize s.emptyAllLinks = emptied
  exact fun _ => cleared emptied.1

theorem timeSet_holdsKept {x : TimeFields} : HoldsKept s (timeSet x s).1 := by
  unfold timeSet; split
  · exact HoldsKept.refl s
  · split
    · exact HoldsKept.refl s
    · dsimp only; split
      · exact (withClock_only s _).holdsKept rfl
      · split
        · exact HoldsKept.refl s
        · exact moveClock_holdsKept

theorem withLink_holdsKept {b : Byte} {act : Nat → State → Answer} (h : ∀ l, HoldsKept s (act l s).1) :
    HoldsKept s (withLink b s act).1 := by
  unfold withLink; split
  · exact h _
  · exact HoldsKept.refl s

theorem linkDisable_holdsKept {b : Byte} : HoldsKept s (linkDisable b s).1 := withLink_holdsKept fun l => by
  dsimp only; split
  · exact .beside rfl
  · exact HoldsKept.trans (t := s.setEnabled l false) (.beside rfl) emptyLink_holdsKept

theorem linkReset_holdsKept {b : Byte} : HoldsKept s (linkReset b s).1 := withLink_holdsKept fun _ => by
  split
  · exact HoldsKept.refl s
  · exact emptyLink_holdsKept

/-! ### The commands that leave the table alone -/

theorem startPart_holdsKept : HoldsKept s (startPart s).1 := by
  unfold startPart; split
  · exact HoldsKept.refl s
  · split
    · exact HoldsKept.refl s
    · have listened := s.listenAll_only.holdsKept rfl
      generalize s.listenAll = t at listened ⊢
      exact done_holdsKept (listened.trans (.beside rfl))

theorem setLimits_holdsKept {x : LimitsFields} : HoldsKept s (setLimits x s).1 := by
  unfold setLimits; dsimp only; split <;> exact .beside rfl

theorem withProgram_holdsKept {b : Byte} {act : Nat → State → Answer} (h : ∀ n, HoldsKept s (act n s).1) :
    HoldsKept s (withProgram b s act).1 := by
  rw [withProgram_eq]; split
  · exact HoldsKept.refl s
  · exact h _

theorem programSet_holdsKept {x : ProgramFields} : HoldsKept s (programSet x s).1 := withProgram_holdsKept fun _ => by
  split
  · exact HoldsKept.refl s
  · split
    · exact HoldsKept.refl s
    · split <;> exact .beside rfl

theorem programActivate_holdsKept {b : Byte} : HoldsKept s (programActivate b s).1 := withProgram_holdsKept fun _ => by
  split
  · exact HoldsKept.refl s
  · split
    · exact HoldsKept.refl s
    · split <;> exact .beside rfl

theorem programDeactivate_holdsKept {b : Byte} : HoldsKept s (programDeactivate b s).1 := withProgram_holdsKept fun _ => by
  split
  · exact HoldsKept.refl s
  · split <;> exact .beside rfl

theorem programLock_holdsKept {b : Byte} : HoldsKept s (programLock b s).1 := withProgram_holdsKept fun _ => by
  split
  · exact HoldsKept.refl s
  · split <;> exact .beside rfl

theorem passRangeSet_holdsKept {x : PassRangeFields} : HoldsKept s (passRangeSet x s).1 := by
  unfold passRangeSet; split
  · exact HoldsKept.refl s
  · dsimp only; split <;> exact .beside rfl

theorem siteSet_holdsKept {x : SiteFields} : HoldsKept s (siteSet x s).1 := by
  unfold siteSet; split
  · exact HoldsKept.refl s
  · split
    · exact HoldsKept.refl s
    · split <;> exact .beside rfl

theorem sliceAssign_holdsKept {x : SliceFields} : HoldsKept s (sliceAssign x s).1 := by
  unfold sliceAssign; split
  · exact HoldsKept.refl s
  · split
    · exact HoldsKept.refl s
    · split
      · exact HoldsKept.refl s
      · split <;> exact .beside rfl

theorem directoryMode_holdsKept {b : Byte} : HoldsKept s (directoryMode b s).1 := by
  unfold directoryMode; split
  · exact HoldsKept.refl s
  · split
    · exact HoldsKept.refl s
    · split
      · exact HoldsKept.refl s
      · exact .beside rfl
      · exact .beside rfl
      · split <;> exact .beside rfl

theorem withCard_holdsKept {w : Word64} {act : Nat → State → Answer} (h : ∀ card, HoldsKept s (act card s).1) :
    HoldsKept s (withCard w s act).1 := by
  unfold withCard; split
  · exact HoldsKept.refl s
  · exact h _

theorem cardEvict_holdsKept {w : Word64} : HoldsKept s (cardEvict w s).1 := withCard_holdsKept fun _ => by
  split
  · split <;> exact .beside rfl
  · exact HoldsKept.refl s
  · exact HoldsKept.refl s

theorem adjusting_holdsKept {w : Word64} {act : Nat → CardRecord → State → Answer} (h : ∀ card r t, HoldsKept t (act card r t).1) :
    HoldsKept s (adjusting w s act).1 := by
  unfold adjusting; split
  · exact HoldsKept.refl s
  · refine withCard_holdsKept fun _ => ?_
    split
    · exact HoldsKept.refl s
    · split
      · exact HoldsKept.refl s
      · split
        · exact (readRecord_holdsKept_of_eq ‹_›).trans (h _ _ _)
        · exact readRecord_holdsKept_of_eq ‹_›

theorem occupied_holdsKept_of_eq {t : State} {b : Bool} (h : s.occupied card = (t, b)) : HoldsKept s t := by
  unfold State.occupied at h; split at h <;>
    (obtain ⟨rfl, -⟩ := Prod.mk.inj h; exact readRecord_holdsKept_of_eq ‹_›)

theorem loadAbsent_holdsKept {d : Option CardData} : HoldsKept s (loadAbsent d card s).1 := by
  unfold loadAbsent; split
  · exact HoldsKept.refl s
  · split
    · exact HoldsKept.refl s
    · split
      · exact HoldsKept.refl s
      · split
        · exact HoldsKept.refl s
        · exact (s.install_only _ _).holdsKept rfl

theorem cardAdjustLoad_holdsKept {x : CardWire} : HoldsKept s (cardAdjustLoad x s).1 := by
  unfold cardAdjustLoad; split
  · exact HoldsKept.refl s
  · split
    · exact HoldsKept.refl s
    · unfold loadRecord; split
      · exact occupied_holdsKept_of_eq ‹_›
      · exact (occupied_holdsKept_of_eq ‹_›).trans loadAbsent_holdsKept

theorem cardAdjustUnload_holdsKept {w : Word64} : HoldsKept s (cardAdjustUnload w s).1 := adjusting_holdsKept fun _ _ t => by
  split
  · exact HoldsKept.refl t
  · split <;> exact .beside rfl

theorem setBonusTo_holdsKept {bonus : Nat} {carried : Option Nat} {r : CardRecord} :
    HoldsKept s (setBonusTo bonus carried card r s).1 := by
  unfold setBonusTo; dsimp only; split
  · exact HoldsKept.refl s
  · split
    · exact done_holdsKept ((s.writeData_only card _).holdsKept rfl)
    · split
      · next h => exact (State.admission_frame h).holdsKept rfl
      · next h =>
        exact done_holdsKept ((((State.admission_frame h).holdsKept rfl).trans ((State.writeData_only _ card _).holdsKept rfl)).trans
          ((State.joinRecord_only _ _).holdsKept rfl))

theorem cardAdjustSetBonus_holdsKept {x : SetBonusFields} : HoldsKept s (cardAdjustSetBonus x s).1 := adjusting_holdsKept fun _ _ t => by
  unfold setBonus; split
  · exact HoldsKept.refl t
  · split
    · exact HoldsKept.refl t
    · exact setBonusTo_holdsKept

theorem setStatus_holdsKept {status : CardStatus} {w : Word64} : HoldsKept s (setStatus status w s).1 :=
  adjusting_holdsKept fun card _ t => done_holdsKept ((t.writeData_only card _).holdsKept rfl)

theorem directoryReadCard_holdsKept {w : Word64} : HoldsKept s (directoryReadCard w s).1 := withCard_holdsKept fun card => by
  show HoldsKept s (s.cardReport card).1
  unfold State.cardReport; split
  · split
    · exact HoldsKept.refl s
    · exact (s.checkFault_only _ _).holdsKept rfl
  · exact HoldsKept.refl s
  · exact HoldsKept.refl s

theorem directoryReadSet_holdsKept {n : Word16} : HoldsKept s (directoryReadSet n s).1 := by
  unfold directoryReadSet; split <;> exact HoldsKept.refl s

theorem windowSet_holdsKept {x : WindowFields} : HoldsKept s (windowSet x s).1 := by
  unfold windowSet; dsimp only; split
  · exact HoldsKept.refl s
  · split
    · exact HoldsKept.refl s
    · split
      · exact HoldsKept.refl s
      · split <;> exact .beside rfl

theorem linkEnable_holdsKept {b : Byte} : HoldsKept s (linkEnable b s).1 := withLink_holdsKept fun _ => by
  dsimp only; split <;> exact .beside rfl

theorem setExpectedIdentity_holdsKept {x : IdentityFields} : HoldsKept s (setExpectedIdentity x s).1 :=
  withLink_holdsKept fun _ => .beside rfl

theorem setNotices_holdsKept {x : NoticeFields} : HoldsKept s (setNotices x s).1 := by
  unfold setNotices; split
  · exact HoldsKept.refl s
  · exact HoldsKept.refl s
  · split <;> exact .beside rfl

/-! ### Site links and take-off -/

theorem siteFrame_holdsKept {α : Type} {f : SiteFrame α} {listening up : α → State → State} (h : ∀ x, HoldsKept s (listening x s))
    (k : ∀ x, HoldsKept s (up x s)) : HoldsKept s (siteFrame l f s listening up) := by
  unfold siteFrame; split
  · exact HoldsKept.refl s
  · exact (s.badFrame_only l).holdsKept rfl
  · exact (s.badFrame_only l).holdsKept rfl
  · exact h _
  · exact k _

theorem takeOff_holdsKept {want : TillKind → Bool} {act : ReplyEntry → NotedTill → State → State}
    (h : ∀ e n t, HoldsKept t (act e n t)) : HoldsKept s (takeOff l want s act) := by
  unfold takeOff; split
  · exact HoldsKept.refl s
  · split
    · dsimp only; split
      · exact ((s.take_only l _ _).holdsKept rfl).trans decline_holdsKept
      · exact ((s.take_only l _ _).holdsKept rfl).trans (h _ _ _)
    · exact HoldsKept.refl s

theorem moneyChecks_holdsKept {n : NotedTill} {a b : Bool} {amount : Nat} {act : State → State} (h : HoldsKept s (act s)) :
    HoldsKept s (moneyChecks l e n a b amount s act) := by
  unfold moneyChecks; split
  · exact (declineField_only s l e _ _).holdsKept rfl
  · split
    · exact (declineField_only s l e _ _).holdsKept rfl
    · split
      · exact (ready_only s l e _ _).holdsKept rfl
      · split
        · exact decline_holdsKept
        · exact h.trans settle_holdsKept

theorem bindTo_holdsKept {b : Binding} {act : ReplyEntry → State → State} (h : ∀ e t, HoldsKept t (act e t)) :
    HoldsKept s (bindTo l e b s act) := ((s.modEntry_only l e.slot _).holdsKept rfl).trans (h _ _)

theorem withCardProgram_holdsKept : HoldsKept s (withCardProgram l e s) := by
  unfold withCardProgram; split
  · exact unexpected_holdsKept
  · exact underProgram_holdsKept fun _ => directoryDecision_holdsKept

section
variable {n : NotedTill}

theorem reverseFrom_holdsKept : HoldsKept s (reverseFrom l e n s) := by
  unfold reverseFrom; split
  · exact decline_holdsKept
  · exact decline_holdsKept
  · refine bindTo_holdsKept fun _ t => ?_
    unfold reverseEntry; dsimp only; split
    · exact ((t.setMark_only n.till _ true).holdsKept rfl).trans standInReverse_holdsKept
    · exact ((t.setMark_only n.till _ true).holdsKept rfl).trans directoryDecision_holdsKept

theorem holdFrom_holdsKept : HoldsKept s (holdFrom l e n s) := by
  unfold holdFrom; split
  · exact unexpected_holdsKept
  · split
    · exact decline_holdsKept
    · exact withCardProgram_holdsKept

theorem settleHold_holdsKept : HoldsKept s (settleHold l e n s) := by
  unfold settleHold; split
  · exact unexpected_holdsKept
  · split
    · split
      · exact bindTo_holdsKept fun _ _ => directoryDecision_holdsKept
      · exact decline_holdsKept
    · split
      · exact decline_holdsKept
      · exact refer_holdsKept

end

end

/-! ### The steps -/

section
variable {s t u : State}

theorem next_holdsKept (h : (Host.Outcome.next u : Result) = .next t) (k : HoldsKept s u) : HoldsKept s t := by cases h; exact k

/-- Every command and event but a power-on reset. -/
theorem exec_holdsKept {i : Instr} (hi : i ≠ .powerOnReset) (h : exec i s = .next t) : HoldsKept s t := by
  cases i with
  | powerOnReset => exact absurd rfl hi
  | resetEngine f => exact next_holdsKept h (command_holdsKept fun _ => engineReset_holdsKept)
  | start f => exact next_holdsKept h (command_holdsKept fun _ => startPart_holdsKept)
  | setLimits f => exact next_holdsKept h (command_holdsKept fun _ => setLimits_holdsKept)
  | timeSet f => exact next_holdsKept h (command_holdsKept fun _ => settled_holdsKept timeSet_holdsKept)
  | programSet f => exact next_holdsKept h (command_holdsKept fun _ => programSet_holdsKept)
  | programActivate f => exact next_holdsKept h (command_holdsKept fun _ => programActivate_holdsKept)
  | programDeactivate f => exact next_holdsKept h (command_holdsKept fun _ => programDeactivate_holdsKept)
  | programLock f => exact next_holdsKept h (command_holdsKept fun _ => programLock_holdsKept)
  | rangeProbe f => exact next_holdsKept h (command_holdsKept fun x => by rw [rangeProbe_fst]; exact HoldsKept.refl s)
  | passRangeSet f => exact next_holdsKept h (command_holdsKept fun _ => passRangeSet_holdsKept)
  | directoryMode f => exact next_holdsKept h (command_holdsKept fun _ => settled_holdsKept directoryMode_holdsKept)
  | cardEvict f => exact next_holdsKept h (command_holdsKept fun _ => settled_holdsKept cardEvict_holdsKept)
  | cardAdjustLoad f => exact next_holdsKept h (command_holdsKept fun _ => cardAdjustLoad_holdsKept)
  | cardAdjustUnload f => exact next_holdsKept h (command_holdsKept fun _ => cardAdjustUnload_holdsKept)
  | cardAdjustSetBonus f => exact next_holdsKept h (command_holdsKept fun _ => cardAdjustSetBonus_holdsKept)
  | cardAdjustBlock f => exact next_holdsKept h (command_holdsKept fun _ => setStatus_holdsKept)
  | cardAdjustUnblock f => exact next_holdsKept h (command_holdsKept fun _ => setStatus_holdsKept)
  | directoryReadSummary f => exact next_holdsKept h (command_holdsKept fun _ => HoldsKept.refl s)
  | directoryReadCard f => exact next_holdsKept h (command_holdsKept fun _ => settled_holdsKept directoryReadCard_holdsKept)
  | directoryReadSet f => exact next_holdsKept h (command_holdsKept fun _ => directoryReadSet_holdsKept)
  | readFault f => exact next_holdsKept h (command_holdsKept fun _ => .beside rfl)
  | siteSet f => exact next_holdsKept h (command_holdsKept fun _ => siteSet_holdsKept)
  | sliceAssign f => exact next_holdsKept h (command_holdsKept fun _ => sliceAssign_holdsKept)
  | windowSet f => exact next_holdsKept h (command_holdsKept fun _ => windowSet_holdsKept)
  | linkControlEnable f => exact next_holdsKept h (command_holdsKept fun _ => linkEnable_holdsKept)
  | linkControlDisable f => exact next_holdsKept h (command_holdsKept fun _ => settled_holdsKept linkDisable_holdsKept)
  | linkControlReset f => exact next_holdsKept h (command_holdsKept fun _ => settled_holdsKept linkReset_holdsKept)
  | linkControlSetExpectedIdentity f => exact next_holdsKept h (command_holdsKept fun _ => setExpectedIdentity_holdsKept)
  | setNotices f => exact next_holdsKept h (command_holdsKept fun _ => setNotices_holdsKept)
  | readEvents f => exact next_holdsKept h (command_holdsKept fun _ => .beside rfl)
  | readCounters f => exact next_holdsKept h (command_holdsKept fun _ => .beside rfl)
  | readStatus f => exact next_holdsKept h (command_holdsKept fun _ => HoldsKept.refl s)
  | unknownCommand f => refine next_holdsKept h ?_; split <;> exact .beside rfl
  | cardData f => exact next_holdsKept h (hostAnswer_holdsKept fun _ _ _ _ => takeCardData_holdsKept)
  | noSuchCard f => exact next_holdsKept h (hostAnswer_holdsKept fun _ _ _ _ => takeNoSuchCard_holdsKept)
  | referralAnswer f =>
    exact next_holdsKept h (hostAnswer_holdsKept fun tag gen kind x => (takeReferralAnswer_only s tag gen kind x).holdsKept rfl)
  | posted f => exact next_holdsKept h takePosted_holdsKept
  | journalSend => refine next_holdsKept h ?_; split <;> exact .beside rfl
  | linkHello link f =>
    exact next_holdsKept h (siteFrame_holdsKept (fun x => (meetHello_only s _ x).holdsKept rfl)
      fun x => (loseLink_holdsKept.trans settle_holdsKept).trans ((meetHello_only _ _ x).holdsKept rfl))
  | presence link f => exact next_holdsKept h (siteFrame_holdsKept (fun _ => HoldsKept.refl s) fun _ => (s.reload_only _).holdsKept rfl)
  | tillMessageArrival link f =>
    exact next_holdsKept h (siteFrame_holdsKept (fun _ => (s.dropInbound_only _).holdsKept rfl)
      fun _ => ((s.reload_only _).holdsKept rfl).trans ((State.offer_only _ _ _).holdsKept rfl))
  | presenceTimeout link =>
    refine next_holdsKept h ?_
    split
    · exact loseLink_holdsKept.trans settle_holdsKept
    · exact HoldsKept.refl s
  | openTill link => exact next_holdsKept h (takeOff_holdsKept fun e n t => (openTillAt_only t _ e n).holdsKept rfl)
  | closeTill link => exact next_holdsKept h (takeOff_holdsKept fun e n t => (closeTillAt_only t _ e n).holdsKept rfl)
  | enquiry link => exact next_holdsKept h (takeOff_holdsKept fun _ _ _ => moneyChecks_holdsKept withCardProgram_holdsKept)
  | redeem link => exact next_holdsKept h (takeOff_holdsKept fun _ _ _ => moneyChecks_holdsKept withCardProgram_holdsKept)
  | hold link => exact next_holdsKept h (takeOff_holdsKept fun _ _ _ => moneyChecks_holdsKept holdFrom_holdsKept)
  | complete link => exact next_holdsKept h (takeOff_holdsKept fun _ _ _ => moneyChecks_holdsKept settleHold_holdsKept)
  | release link => exact next_holdsKept h (takeOff_holdsKept fun _ _ _ => moneyChecks_holdsKept settleHold_holdsKept)
  | reverse link => exact next_holdsKept h (takeOff_holdsKept fun _ _ _ => moneyChecks_holdsKept reverseFrom_holdsKept)
  | reload link => exact next_holdsKept h (takeOff_holdsKept fun _ _ _ => moneyChecks_holdsKept withCardProgram_holdsKept)
  | unknownTillKind link => exact next_holdsKept h (takeOff_holdsKept fun e _ t => (declineField_only t _ e _ _).holdsKept rfl)
  | delivery link =>
    refine next_holdsKept h ?_
    split
    · exact deliver_holdsKept.trans settle_holdsKept
    · exact HoldsKept.refl s
  | fetchAnswerTimeout tag =>
    refine next_holdsKept h ?_
    split
    · split
      · exact fetchTimedOut_holdsKept.trans settle_holdsKept
      · exact HoldsKept.refl s
    · exact HoldsKept.refl s
  | fetchGateTimeout tag =>
    refine next_holdsKept h ?_
    split
    · split
      · exact HoldsKept.refl s
      · exact fetchTimedOut_holdsKept.trans settle_holdsKept
    · exact HoldsKept.refl s
  | referralTimeout tag =>
    refine next_holdsKept h ?_
    split
    · exact (referralTimedOut_only s _ _).holdsKept rfl
    · exact HoldsKept.refl s
  | gateTimeout link sequence =>
    refine next_holdsKept h ?_
    split
    · exact gateTimeout_holdsKept.trans settle_holdsKept
    · exact HoldsKept.refl s
  | holdExpiry site ref =>
    refine next_holdsKept h ?_
    split
    · split
      · exact runUntil_holdsKept.trans settle_holdsKept
      · exact HoldsKept.refl s
    · exact HoldsKept.refl s
  | dayRollover =>
    refine next_holdsKept h ?_
    split
    · exact HoldsKept.refl s
    · exact runUntil_holdsKept.trans settle_holdsKept
  | storedContentAltered set way x => exact next_holdsKept h (.beside rfl)
  | serviceMessageTransmitted =>
    refine next_holdsKept h ?_
    split
    · split <;> exact .beside rfl
    · exact HoldsKept.refl s

theorem step_holdsKept (h : step s = .next t) : HoldsKept s t := by
  by_cases hi : s.pending.head? = some .powerOnReset
  · obtain ⟨is, rfl⟩ := step_of_powerOnReset hi h
    exact fun _ => ((holdsInOrder_iff _).1 reset_holdsInOrder).after (.beside rfl)
  · cases hp : s.pending with
    | nil => rw [step_of_nil hp] at h; exact next_holdsKept h pass_holdsKept
    | cons c rest =>
      rw [step_of_cons hp] at h
      rw [hp] at hi
      exact HoldsKept.trans (t := { s with pending := rest }) (.beside rfl) (exec_holdsKept (fun hc => hi (congrArg some hc)) h)

end

/-- Settles O59, by what each command and event does to the table: a live hold leaves, is noted or changes in its place, a hold of a new
number joins within the limits, or the table stays. -/
theorem everyStepKeepsTheHoldTableInOrder : Obligations.EveryStepKeepsTheHoldTableInOrder :=
  fun _ _ _ ho h => (holdsInOrder_iff _).2 (step_holdsKept h ((holdsInOrder_iff _).1 ho))

end Sys2Proof.Machine
end

section
/-! HOLD_EXPIRY: the clock reaches the instant of an OPEN hold, which leaves the table (R95, R172, R176). -/

namespace Sys2Proof.Machine
open Piece

/-! ### The readings that the clock runs through (R172) -/

section
variable {s : State}

theorem Reading.le_iff {a b : Reading} : a.le b = true ↔ a.ms ≤ b.ms := decide_eq_true_iff

theorem Reading.ms_ofMs (n : Nat) : (Reading.ofMs n).ms = n := Nat.div_add_mod' n Config.dayMs

theorem State.now_of_set (hset : s.clock.notSet = false) : s.now = s.clock.reading := by
  unfold State.now Clock.now; rw [hset]; rfl

theorem State.max_now_ms (s : State) (r : Reading) : (s.now.max r).ms = max s.now.ms r.ms := by
  unfold Reading.max
  by_cases h : s.now.ms ≤ r.ms
  · rw [if_pos (Reading.le_iff.2 h), max_eq_right h]
  · rw [if_neg (mt Reading.le_iff.1 h), max_eq_left (le_of_not_ge h)]

/-- R95: but for its reading, the clock is as it was when a hold's instant has come. -/
theorem State.reachInstant_clock (s : State) (h : Hold) (r : Reading) :
    ({ (s.reachInstant h).clock with reading := r } : Clock) = { s.clock with reading := r } := by
  have expired : ∀ t : State, (t.expireHold h).settle.clock = t.clock := fun t =>
    (State.settle_only _).clock.trans (t.expireHold_only h).clock
  unfold State.reachInstant; rw [expired]; split
  · rw [State.elapseTo_clock]
  · rfl

/-- R172: the clock stands at the reading that it has run on to. -/
theorem State.advanceTo_clock (s : State) (r : Reading) : (s.advanceTo r).clock = { s.clock with reading := r } := by
  have reached : ∀ (hs : List Hold) (s : State),
      ({ (hs.foldl State.reachInstant s).clock with reading := r } : Clock) = { s.clock with reading := r } := by
    intro hs
    induction hs with
    | nil => exact fun _ => rfl
    | cons h hs ih => exact fun s => (ih _).trans (s.reachInstant_clock h r)
  exact (State.elapseTo_clock _ r).trans (reached _ s)

theorem State.advanceTo_now (hset : s.clock.notSet = false) (r : Reading) : (s.advanceTo r).now = r := by
  have hclock := s.advanceTo_clock r
  rw [State.now_of_set (by rw [hclock]; exact hset), hclock]

theorem State.elapse_clock {n : Nat} (hset : s.clock.notSet = false) (hlast : s.clock.reading.ms + n ≤ lastReading.ms) (hn : 0 < n) :
    (s.elapse n).clock = { s.clock with reading := Reading.ofMs (s.clock.reading.ms + n) } := by
  have hbefore : ¬ (s.clock.notSet = true ∨ lastReading.le s.clock.reading = true) := by
    rw [hset, Reading.le_iff]; simp only [Bool.false_eq_true, false_or]; omega
  unfold State.elapse; rw [if_neg hbefore, Nat.min_eq_left hlast]
  exact (State.countDown_only _ _).clock.trans (s.advanceTo_clock _)

/-- R172, R176: the clock runs for as long as the timers do, while it is short of its last reading. -/
theorem State.pass_clock {n : Nat} (hset : s.clock.notSet = false) (hlast : s.clock.reading.ms + n ≤ lastReading.ms) (hn : 0 < n) :
    (s.pass n).clock = { s.clock with reading := Reading.ofMs (s.clock.reading.ms + n) } :=
  ((State.settle_only _).clock.trans (State.fireTimers_only _).clock).trans (State.elapse_clock hset hlast hn)

theorem State.stretch_bounds {n : Nat} (hn : 0 < n) : 0 < s.stretch n ∧ s.stretch n ≤ n :=
  ⟨lt_min hn (lt_max_of_lt_left Nat.one_pos), min_le_left _ _⟩

/-- R172: from one timer or instant to the next, the clock comes to its target. -/
theorem State.runFor_now {r : Reading} (hr : r.ms ≤ lastReading.ms) : ∀ (n : Nat) (s : State), s.clock.notSet = false →
    (State.runFor r n s).now.ms = max s.now.ms r.ms
  | 0, s, hset => by
    unfold State.runFor
    rw [State.advanceTo_now hset, s.max_now_ms]
  | n + 1, s, hset => by
    unfold State.runFor; dsimp only; split
    · rw [State.advanceTo_now hset, s.max_now_ms]
    · next hleft =>
      obtain ⟨hleft, -⟩ := not_or.1 hleft
      obtain ⟨hpos, hle⟩ := s.stretch_bounds (Nat.pos_of_ne_zero hleft)
      have hnow := State.now_of_set hset
      have hclock := State.pass_clock (n := s.stretch (r.ms - s.now.ms)) hset (by rw [hnow] at hle hleft ⊢; omega) hpos
      rw [State.runFor_now hr n _ (by rw [hclock]; exact hset), State.now_of_set (by rw [hclock]; exact hset), hclock, Reading.ms_ofMs,
        ← hnow]
      omega

/-! ### The holds that the clock passes (R95) -/

/-- R95: the holds whose instants the clock has reached are gone. -/
theorem State.foldl_reachInstant_holds : ∀ (hs : List Hold) (s : State),
    (hs.foldl State.reachInstant s).holds = s.holds.filter (fun k => hs.all fun h => decide (k.id ≠ h.id))
  | [], s => (List.filter_true s.holds).symm
  | h :: hs, s => by
    rw [List.foldl_cons, State.foldl_reachInstant_holds hs, (s.reachInstant_table h).1, (s.freeHold_effects h).1, List.filter_filter]
    exact List.filter_congr fun k _ => by rw [List.all_cons, Bool.and_comm]

theorem State.mem_dueHolds {r : Reading} {k : Hold} : k ∈ s.dueHolds r ↔ k ∈ s.holds ∧ k.state = .opened ∧ k.expiry.ms ≤ r.ms := by
  unfold State.dueHolds
  rw [mem_sortByInstant, List.mem_filter, Bool.and_eq_true, decide_eq_true_iff]
  exact Iff.rfl.and (Iff.rfl.and Reading.le_iff)

/-- R95: a hold that is left once the clock has run on shares its number with no hold that was due. -/
theorem State.mem_advanceTo_holds {r : Reading} {k : Hold} (hk : k ∈ (s.advanceTo r).holds) :
    k ∈ s.holds ∧ ∀ h ∈ s.dueHolds r, k.id ≠ h.id := by
  unfold State.advanceTo at hk
  rw [(State.elapseTo_only _ r).holds, State.foldl_reachInstant_holds, List.mem_filter, List.all_eq_true] at hk
  obtain ⟨hmem, hall⟩ := hk
  exact ⟨hmem, fun h hh => of_decide_eq_true (hall h hh)⟩

/-- The hold that alone is due, under a number of its own. -/
theorem State.dueHolds_alone {r : Reading} {h : Hold} (hm : h ∈ s.dueHolds r)
    (hothers : ∀ k ∈ s.holds, k.state = .opened → k.id ≠ h.id → r.ms < k.expiry.ms)
    (hown : (s.holds.filter (fun k => k.id = h.id)).length = 1) : s.dueHolds r = [h] := by
  have hperm := sortByInstant_perm (s.holds.filter (fun h => decide (h.state = .opened) && h.expiry.le r))
  have hdue : (s.holds.filter (fun h => decide (h.state = .opened) && h.expiry.le r)).length ≤ 1 := by
    rw [← hown, ← List.countP_eq_length_filter, ← List.countP_eq_length_filter]
    refine List.countP_mono_left fun k hk hdue => decide_eq_true (by_contra fun hne => ?_)
    obtain ⟨hopened, hexpiry⟩ := Bool.and_eq_true_iff.1 hdue
    exact absurd (Reading.le_iff.1 hexpiry) (not_le.2 (hothers k hk (of_decide_eq_true hopened) hne))
  have hlen : (s.dueHolds r).length ≤ 1 := hperm.length_eq ▸ hdue
  match s.dueHolds r, hlen, hm with
  | [k], _, hm => rw [List.mem_singleton.1 hm]
  | _ :: _ :: _, hlen, _ => simp at hlen

/-- R84, R95: what the table holds once the clock has run past one instant. -/
theorem State.advanceTo_alone {r : Reading} {h : Hold} (halone : s.dueHolds r = [h]) :
    (s.advanceTo r).holds = (s.freeHold h).holds ∧ (s.advanceTo r).notes = addNote s.notes ⟨h.site, h.ref, h.id⟩ ∧
    (s.advanceTo r).siteHolds = (s.freeHold h).siteHolds := by
  have hrun := (s.reachInstant h).elapseTo_only r
  obtain ⟨hholds, hnotes, hcounts, -⟩ := s.reachInstant_table h
  unfold State.advanceTo; rw [halone, List.foldl_cons, List.foldl_nil]
  exact ⟨hrun.holds.trans hholds, hrun.notes.trans hnotes, hrun.siteHolds.trans hcounts⟩

theorem addNote_getLast? (notes : List ExpiryNote) (n : ExpiryNote) : (addNote notes n).getLast? = some n := by
  unfold addNote; split <;> exact List.getLast?_concat

end

/-! ### The frame of the clock's advance -/

theorem Only.advanced {s t : State} (h : Only (ofClock ++ [.links, .dirMode]) s t)
    (hclock : t.clock = { s.clock with reading := t.clock.reading }) : t = { s with
      clock := { s.clock with reading := t.clock.reading }, tills := t.tills, exposures := t.exposures, holds := t.holds
      notes := t.notes, siteHolds := t.siteHolds, dir := t.dir, dirMode := t.dirMode, fault := t.fault, counters := t.counters
      events := t.events, journal := t.journal, requests := t.requests, generations := t.generations, out := t.out
      links := t.links } := by
  rw [← hclock, ← h.pending, ← h.part, ← h.limits, ← h.programs, ← h.passRanges, ← h.renoted, ← h.siteIds, ← h.slices, ← h.nextStay,
    ← h.nextHold, ← h.nextEntry, ← h.nextSlot, ← h.sentToHost]

section
variable {s : State} {h : Hold}

theorem exec_holdExpiry {site : Fin 512} {ref : Word32} (hkey : s.holdByKey site.val ref = some h) (hopened : h.state = .opened)
    (hset : s.clock.notSet = false) (hlast : h.expiry.ms ≤ lastReading.ms) :
    exec (.holdExpiry site ref) s = .next (s.runUntil h.expiry).settle := by
  have hrow : exec (.holdExpiry site ref) s = execHoldExpiry site ref s := rfl
  rw [hrow]; unfold execHoldExpiry
  rw [hkey]; dsimp only
  rw [if_pos ⟨hopened, hset, Reading.le_iff.2 hlast⟩]

theorem State.runUntil_now (hset : s.clock.notSet = false) {r : Reading} (hr : r.ms ≤ lastReading.ms) :
    (s.runUntil r).now.ms = max s.now.ms r.ms := State.runFor_now hr _ s hset

end

/-- Settles O9: the clock comes to the instant from stretch to stretch, and while no timer runs out on the way it comes there in one, over
the instants of the holds that are due. -/
theorem holdExpiryFreesTheHold : Obligations.HoldExpiryFreesTheHold := by
  intro site ref h s hkey hopened hset hlast
  obtain ⟨hm, hsite, href⟩ := State.holdByKey_some hkey
  have hexec := exec_holdExpiry hkey hopened hset hlast
  have hsettle := (s.runUntil h.expiry).settle_only
  have hnow : (s.runUntil h.expiry).settle.now.ms = max s.now.ms h.expiry.ms := by
    unfold State.now; rw [hsettle.clock]; exact State.runUntil_now hset hlast
  refine ⟨_, hexec, hnow, fun hcanonical hquiet => ?_⟩
  have hms := s.max_now_ms h.expiry
  rw [← hms] at hnow
  rw [State.runUntil_quiet hquiet] at hsettle hnow ⊢
  generalize s.now.max h.expiry = r at *
  have hnowle : s.now.ms ≤ r.ms := by rw [hms]; exact le_max_left _ _
  have hge : h.expiry.ms ≤ r.ms := by rw [hms]; exact le_max_right _ _
  have hdue : h ∈ s.dueHolds r := State.mem_dueHolds.2 ⟨hm, hopened, hge⟩
  have hholds := hsettle.holds
  have hleft : ∀ k ∈ (s.advanceTo r).settle.holds, k ∈ s.holds ∧ ∀ x ∈ s.dueHolds r, k.id ≠ x.id := fun k hk =>
    State.mem_advanceTo_holds (hholds ▸ hk)
  have hwf : s.links.wf Link.default = true := (tablesCanonical_iff s).1 hcanonical .links
  obtain ⟨hclock, hlinks⟩ := State.advanceTo_effects hset hwf hnowle
  refine ⟨fun k hk => (hleft k hk).2 h hdue, fun k hk hstate => ?_, fun hothers hown => ?_, fun l => ?_, ?_⟩
  · obtain ⟨hk, hne⟩ := hleft k hk
    rw [hnow]
    exact lt_of_not_ge fun hle => hne k (State.mem_dueHolds.2 ⟨hk, hstate, hle⟩) rfl
  · rw [hnow] at hothers
    obtain ⟨htable, hnotes, hcounts⟩ := State.advanceTo_alone (State.dueHolds_alone hdue hothers hown)
    obtain ⟨hfreed, hcount⟩ := s.freeHold_effects h
    refine ⟨(hholds.trans htable).trans hfreed, ?_, ?_⟩
    · unfold State.siteHoldCount at hcount ⊢
      rw [hsettle.siteHolds, hcounts, hcount, if_pos hsite.symm, hsite]
    · rw [hsettle.notes, hnotes, addNote_getLast?, hsite, href]
  · have : (s.advanceTo r).settle.link l = (s.advanceTo r).link l := by unfold State.link; rw [hsettle.links]
    rw [this, hlinks l, hms]
    congr 1; omega
  · refine Only.advanced ((s.advanceTo_only r).trans (hsettle.mono (by decide))) ?_
    rw [hsettle.clock, hclock]

end Sys2Proof.Machine
end

section
/-! The requests that make, capture and free a hold: what each evaluation comes to, and what is left of the part beside the hold. -/

namespace Sys2Proof.Machine

/-! ### A request that marks no stack entry (R62, R79) -/

section
variable {s : State} {l card stay : Nat} {e : ReplyEntry} {r : CardRecord}

theorem Binding.hold_ne_entry (id card : Nat) : ∀ x, Binding.hold id card ≠ .entry x := fun _ => nofun

/-- R79: only a REVERSE has a mark to clear. -/
theorem decline_unmarked (hb : ∀ x, e.bound ≠ .entry x) (l : Nat) (reason : Reason) (free : Option Nat) (s : State) :
    decline l e reason free s = s.finish l e.slot (.ready (declinedReply e.msg reason free) none none) := by
  unfold decline State.clearMark; split
  · next hx _ => exact absurd hx (hb _)
  · rfl

/-- R45, R58: a request evaluated against a resident record with nothing to forfeit meets it as it stands. -/
theorem State.Found.withRecord (h : s.Found card r stay) (hn : s.NothingToForfeit r) (e : ReplyEntry)
    (act : CardData → Nat → State → State) : (s.touch card).withRecord l e card act = act r.data stay (s.touch card) := by
  have hnothing : (s.touch card).NothingToForfeit r := by rw [State.touch_eq]; exact hn
  have hsame := h.touch.forfeitTest_nothing hnothing
  rw [State.withRecord_found (r := r) (stay := stay) (by rw [hsame]; exact h.touch.record), hsame]

/-- R111: what is left when a request that waited for its card's fetch is declined against the record that the fetch installed. -/
theorem State.Found.declinesWaiting (h : s.Found card r stay) (hb : ∀ x, e.bound ≠ .entry x) {reason : Reason}
    (hdecline : evaluate l e card s = decline l e reason (some ((s.touch card).freeFigure r.data)) (s.touch card)) :
    s.declinesWaiting l e card r stay reason := by
  have hserve : serveInstalled card l e s = evaluate l e card s := by
    unfold serveInstalled; split
    · next hx => exact absurd hx (hb _)
    · rfl
  have hfigure : (s.touch card).freeFigure r.data = s.freeBonus r.data + s.freeCore r.data := by rw [State.touch_eq]; rfl
  have hlinks : ∀ k, (s.touch card).link k = s.link k := fun k => by unfold State.link; rw [(s.touch_only card).links]
  rw [hfigure, decline_unmarked hb] at hdecline
  obtain ⟨hothers, hlink⟩ := State.finish_links (s.touch card) l e.slot
    (.ready (declinedReply e.msg reason (some (s.freeBonus r.data + s.freeCore r.data))) none none)
  refine ⟨_, hserve.trans hdecline, ?_, fun k hk => (hothers k hk).trans (hlinks k), s.touch_others card,
    fun c _ => State.recordOf_touch h.apart c, State.mostRecent_congr rfl h.mostRecent_touch, h.touch.record, ?_⟩
  · rw [State.touch_eq]; rfl
  · rw [hlink, hlinks]

end

/-! ### The part beside its Hold Table and its journal -/

/-- The part with these holds, hold numbers, notes and counts, and this journal. -/
def State.tabled (s : State) (holds : List Hold) (nextHold : Nat) (notes : List ExpiryNote) (renoted : List Nat) (counts : Table Nat)
    (journal : Journal) : State :=
  { s with holds := holds, nextHold := nextHold, notes := notes, renoted := renoted, siteHolds := counts, journal := journal }

theorem State.modHold_tabled (s : State) (id : Nat) (f : Hold → Hold) : s.modHold id f =
    s.tabled (s.holds.map (fun h => if h.id = id then f h else h)) s.nextHold s.notes s.renoted s.siteHolds s.journal := rfl

theorem State.freeHold_tabled (s : State) (h : Hold) : s.freeHold h =
    s.tabled (s.holds.filter (fun x => decide (x.id ≠ h.id))) s.nextHold s.notes s.renoted
      (s.siteHolds.set 0 h.site (s.siteHoldCount h.site - 1)) s.journal := rfl

/-- The directory does not read the Hold Table. -/
theorem State.writeData_modHold (s : State) (card id : Nat) (f : CardData → CardData) (g : Hold → Hold) :
    (s.writeData card f).modHold id g = (s.modHold id g).writeData card f := by
  have hway : (s.modHold id g).findWay card = s.findWay card := rfl
  unfold State.writeData State.writeRecord; rw [hway]; split <;> rfl

section
variable {s t u : State} {l : Nat} {m : TillMsg} {rest : List TillMsg} {n : NotedTill} {b : Binding} {card stay : Nat} {r : CardRecord}

/-- R4, R162: neither does what a request has met of the part before it is evaluated. -/
theorem State.Met.tabled (ht : s.Met t l m rest n b card r stay) (holds : List Hold) (nextHold : Nat) (notes : List ExpiryNote)
    (renoted : List Nat) (counts : Table Nat) (journal : Journal) :
    (s.tabled holds nextHold notes renoted counts journal).Met (t.tabled holds nextHold notes renoted counts journal) l m rest n b card r
      stay := by
  obtain ⟨⟨dir, links, tills, rfl⟩, found, recent, sets, records, marks, taken⟩ := ht
  exact
    { frame := ⟨dir, links, tills, rfl⟩
      found := ⟨found.mode, found.record, found.verified, found.apart, found.unfetched⟩
      recent := recent, sets := sets, records := records, marks := marks, taken := taken }

theorem State.Met.modHold (ht : s.Met t l m rest n b card r stay) (id : Nat) (f : Hold → Hold) :
    (s.modHold id f).Met (t.modHold id f) l m rest n b card r stay := by
  rw [State.modHold_tabled, State.modHold_tabled]
  have htabled := ht.tabled (s.holds.map (fun h => if h.id = id then f h else h)) s.nextHold s.notes s.renoted s.siteHolds s.journal
  obtain ⟨dir, links, tills, rfl⟩ := ht.frame
  exact htabled

theorem State.Met.freeHold (ht : s.Met t l m rest n b card r stay) (h : Hold) :
    (s.freeHold h).Met (t.freeHold h) l m rest n b card r stay := by
  rw [State.freeHold_tabled, State.freeHold_tabled]
  have htabled := ht.tabled (s.holds.filter (fun x => decide (x.id ≠ h.id))) s.nextHold s.notes s.renoted
    (s.siteHolds.set 0 h.site (s.siteHoldCount h.site - 1)) s.journal
  obtain ⟨dir, links, tills, rfl⟩ := ht.frame
  exact htabled

theorem State.Met.holdById (ht : s.Met t l m rest n b card r stay) (id : Nat) : t.holdById id = s.holdById id := by
  obtain ⟨dir, links, tills, rfl⟩ := ht.frame; rfl

/-- R44: the figure reads the holds and the date alone. -/
theorem State.freeFigure_congr (hh : t.holds = s.holds) (hc : t.clock = s.clock) (d : CardData) :
    t.freeBonus d + t.freeCore d = s.freeFigure d := by
  unfold State.freeFigure State.freeBonus State.freeCore State.heldBonus State.heldCore State.holdsOf State.date
  rw [hh, hc]

/-! ### What is left of a request that marks no stack entry (R126, R138, R163) -/

section
variable (ht : s.Met t l m rest n b card r stay) (hfresh : ∀ e ∈ (s.link l).replies, e.slot < s.nextSlot) (htills : t.tills = s.tills)
include ht hfresh htills

/-- R44, R163: the reply of a request is completed in a part `u` that goes on from the touched part at the card's way alone; the figure that
it tells of is the one that is left. -/
theorem State.Met.completed (hu : u = { t with dir := u.dir }) (hsets : t.otherSets u (setOf card)) (hcards : t.otherCards u card)
    (hrecent : u.mostRecent card) (d : CardData) (st : Nat → ReplyState) :
    let v := u.finish l s.nextSlot (st (s.freeFigure d))
    v = { s with dir := v.dir, links := v.links, nextSlot := s.nextSlot + 1 } ∧
    s.otherLinks v l ∧ s.otherSets v (setOf card) ∧ s.otherCards v card ∧ v.mostRecent card ∧ v.recordOf card = u.recordOf card ∧
    v.link l = s.takenLink l m rest (some n) b (st (v.freeBonus d + v.freeCore d)) := by
  have hlinks : u.links = t.links := by rw [hu]
  obtain ⟨hothers, hlink⟩ := State.takenOff_completed hfresh ht.taken hlinks (st (s.freeFigure d))
  refine ⟨?_, hothers, fun k hk => (hsets k hk).trans (ht.sets k hk), fun c hc => (hcards c hc).trans (ht.records c),
    State.mostRecent_congr rfl hrecent, rfl, ?_⟩
  · obtain ⟨dir, links, tills, rfl⟩ := ht.frame
    cases htills
    rw [hu]; rfl
  · have hfigure : u.freeBonus d + u.freeCore d = s.freeFigure d := by
      obtain ⟨dir, links, tills, rfl⟩ := ht.frame
      exact State.freeFigure_congr (by rw [hu]; rfl) (by rw [hu]; rfl) d
    rw [hlink, ← hfigure]; rfl

/-- R44, R128, R163: the reply of a request is completed once its record `j` has joined in `u`; the figure that it tells of is the one that
is left. -/
theorem State.Met.approvedUnmarked {x : CardRecord} {j : JournalRecord} (hj : t.Journaled u card x stay j) (d : CardData)
    (st : Nat → ReplyState) :
    let v := u.finish l s.nextSlot (st (s.freeFigure d))
    v = { s with
      dir := v.dir, links := v.links, nextSlot := s.nextSlot + 1, journal := s.journal.withUndoable j, events := v.events
      out := v.out } ∧
    s.otherLinks v l ∧ s.otherSets v (setOf card) ∧ s.otherCards v card ∧ v.mostRecent card ∧ v.recordOf card = some (x, stay) ∧
    v.link l = s.takenLink l m rest (some n) b (st (v.freeBonus d + v.freeCore d)) ∧
    (s.journal.records.length ≠ 3072 → v.events = s.events ∧ v.out = s.out ++ [.journal j 0]) := by
  obtain ⟨hframe, -, ⟨hsets, hcards, hrecent, hrecord⟩, ⟨hothers, hlink⟩, hquiet⟩ := ht.approved hfresh hj (st (s.freeFigure d))
  have hsame : (u.finish l s.nextSlot (st (s.freeFigure d))).tills = s.tills := hj.tills.trans htills
  rw [hsame] at hframe
  refine ⟨hframe, hothers, hsets, hcards, hrecent, hrecord, ?_, hquiet⟩
  have hfigure : u.freeBonus d + u.freeCore d = s.freeFigure d := by
    obtain ⟨dir, links, tills, rfl⟩ := ht.frame
    exact State.freeFigure_congr (by rw [hj.frame]; rfl) (by rw [hj.frame]; rfl) d
  rw [hlink, ← hfigure]; rfl

theorem State.Met.busyUnmarked (hb : ∀ x, b ≠ .entry x) (kind : Word16) (free : Option Nat) :
    let v := decline l (s.askEntry m n b) .systemBusy free (t.full kind)
    v = { s.full kind with dir := v.dir, links := v.links, nextSlot := s.nextSlot + 1 } ∧
    s.otherLinks v l ∧ s.otherSets v (setOf card) ∧ s.otherCards v card ∧ v.mostRecent card ∧ v.recordOf card = some (r, stay) ∧
    v.link l = s.takenLink l m rest (some n) b (.ready (declinedReply m .systemBusy free) none none) := by
  have honly := t.full_only kind
  have hsame : (decline l (s.askEntry m n b) .systemBusy free (t.full kind)).tills = (s.full kind).tills := by
    rw [decline_unmarked hb, (State.finish_only _ _ _ _).tills, honly.tills, htills, (s.full_only kind).tills]
  have hframe := ht.busy kind free
  dsimp only at hframe
  rw [hsame] at hframe
  obtain ⟨-, hsets, hcards, hrecent, hrecord, hothers, hlink⟩ := ht.refused hfresh honly.dir honly.links honly.tills .systemBusy free
  exact ⟨hframe, hothers, hsets, hcards, hrecent, hrecord, hlink⟩

end

/-! ### What an evaluation reads of a hold (R43, R88, R94) -/

theorem State.checkHold_of_opened {h : Hold} (hid : s.holdById h.id = some h) (ho : h.state = .opened) : s.checkHold h.id = .live h := by
  unfold State.checkHold; rw [hid]; exact if_pos ho

theorem State.checkHold_of_other {h : Hold} {id : Nat} (hid : s.holdById id = some h) (ho : h.state ≠ .opened) :
    s.checkHold id = .notFound := by
  unfold State.checkHold; rw [hid]; exact if_neg ho

theorem State.expired_iff (id : Nat) : s.expired id = true ↔ (∃ y ∈ s.notes, y.hold = id) ∨ id ∈ s.renoted := by
  unfold State.expired
  rw [Bool.or_eq_true, List.any_eq_true, List.contains_iff_mem]
  simp only [decide_eq_true_eq]

theorem State.checkHold_of_expired {id : Nat} (hid : s.holdById id = none) (he : (∃ y ∈ s.notes, y.hold = id) ∨ id ∈ s.renoted) :
    s.checkHold id = .tooLate := by
  unfold State.checkHold; rw [hid]; exact if_pos ((State.expired_iff id).2 he)

theorem State.checkHold_of_gone {id : Nat} (hid : s.holdById id = none) (he : ¬ ((∃ y ∈ s.notes, y.hold = id) ∨ id ∈ s.renoted)) :
    s.checkHold id = .notFound := by
  unfold State.checkHold; rw [hid]; exact if_neg (mt (State.expired_iff id).1 he)

theorem State.noted_iff (site : Nat) (ref : Word32) : s.noted site ref = true ↔ ∃ y ∈ s.notes, y.site = site ∧ y.ref = ref := by
  unfold State.noted
  rw [List.any_eq_true]
  exact exists_congr fun y => and_congr_right fun _ => y.hasKey_iff site ref

end

/-! ### COMPLETE and RELEASE, from the take-off to the directory (R88, R92) -/

section
variable {s t : State} {l : Fin 8} {m : TillMsg} {rest : List TillMsg} {n : NotedTill} {site card stay : Nat} {h : Hold} {r : CardRecord}

/-- R91, R93: in FROZEN a request bound to a hold is settled without its card, where the card is not resident; in NORMAL where its set
has no victim. -/
theorem directoryDecision_unfetched {e : ReplyEntry} {id c : Nat} (hb : e.bound = .hold id c) (hp : s.passThrough card = false)
    (hw : s.dirMode = .frozen ∧ s.recordOf card = none ∨ s.dirMode = .normal ∧ s.findWay card = none ∧ s.victim card = none) :
    directoryDecision l e card s = missUnfetched l e s := by
  rw [directoryDecision_direct hp]
  rcases hw with ⟨hm, hr⟩ | ⟨hm, hf, hv⟩
  · have hmiss : miss l e card s = missUnfetched l e s := by unfold miss; rw [hm]
    rw [hm]; dsimp only
    cases hf : s.findWay card with
    | none => exact (lookup_none hf).trans hmiss
    | some w =>
      obtain ⟨no, st⟩ := w
      cases st with
      | invalid => unfold lookup; rw [hf]; exact hmiss
      | reserved k =>
        rw [lookup_reserved hf]; unfold meetReserved; rw [hm, hb]
      | valid r stay => rw [State.recordOf_of_findWay hf] at hr; cases hr
  · rw [hm]; dsimp only
    rw [lookup_none hf]; unfold miss; rw [hm]; dsimp only
    unfold missNormal; rw [hv]

section
variable (ht : s.Trading l m rest n) (hk : m.kind = .complete ∨ m.kind = .release) (hf : fieldsGood m)
  (ha : readsAmount m → 1 ≤ m.amount.toNat ∧ m.amount.toNat ≤ 9999999)
include ht hk hf ha

theorem exec_settleHold : exec (takeOffOf m.kind l) s =
    .next (settleHold l (s.askEntry m n .free) n (s.take l (s.askEntry m n .free) rest)).settle := by
  have hpath : moneyPath l (s.askEntry m n .free) n = settleHold l (s.askEntry m n .free) n := by
    have hkind : (s.askEntry m n .free).msg.kind = m.kind := rfl
    unfold moneyPath; rw [hkind]; rcases hk with hk | hk <;> rw [hk]
  rw [exec_trading ht hf ha, hpath]

variable (hn : n.site = some site)
include hn

/-- R88, R92: a hold that is not OPEN. -/
theorem settleHold_declines_notFound (hx : s.holdByKey site m.holdRef = some h) (ho : h.state ≠ .opened) :
    s.declines l m rest n .free .notFound := by
  have hexec := exec_settleHold ht hk hf ha
  have hkey : (s.take l (s.askEntry m n .free) rest).holdByKey site (s.askEntry m n .free).msg.holdRef = some h := hx
  unfold settleHold at hexec
  rw [hn] at hexec; dsimp only at hexec
  rw [hkey] at hexec; dsimp only at hexec
  rw [if_neg ho] at hexec
  exact State.reached_free.declines ht.fresh hexec

/-- R94: a key that is not live is too late, or another part's. -/
theorem settleHold_unknown (hx : s.holdByKey site m.holdRef = none) :
    ((∃ y ∈ s.notes, y.site = site ∧ y.ref = m.holdRef) → s.declines l m rest n .free .tooLate) ∧
    (¬ (∃ y ∈ s.notes, y.site = site ∧ y.ref = m.holdRef) → s.refers l m rest n .free) := by
  have hexec := exec_settleHold ht hk hf ha
  have hkey : (s.take l (s.askEntry m n .free) rest).holdByKey site (s.askEntry m n .free).msg.holdRef = none := hx
  have hnoted : (s.take l (s.askEntry m n .free) rest).noted site (s.askEntry m n .free).msg.holdRef = true ↔
      ∃ y ∈ s.notes, y.site = site ∧ y.ref = m.holdRef := State.noted_iff (s := s.take l (s.askEntry m n .free) rest) site m.holdRef
  unfold settleHold at hexec
  rw [hn] at hexec; dsimp only at hexec
  rw [hkey] at hexec; dsimp only at hexec
  refine ⟨fun hknown => ?_, fun hknown => ?_⟩
  · rw [if_pos (hnoted.2 hknown)] at hexec
    exact State.reached_free.declines ht.fresh hexec
  · rw [if_neg (mt hnoted.1 hknown)] at hexec
    exact State.reached_free.refers ht.fresh hexec

/-- R88, R92: an OPEN hold's request meets the directory for the hold's card, bound to the hold. -/
theorem exec_settleHold_opened (hx : s.holdByKey site m.holdRef = some h) (ho : h.state = .opened) :
    ∃ links, s.Reached (s.reached links s.tills) l m rest n (.hold h.id h.card) ∧ exec (takeOffOf m.kind l) s =
      .next (directoryDecision l (s.askEntry m n (.hold h.id h.card)) h.card (s.reached links s.tills)).settle := by
  obtain ⟨links, hbind⟩ := State.reached_bind (s := s) (l := l) (m := m) (rest := rest) (n := n) (.hold h.id h.card)
  have hreached := State.reached_hold (n := n) ht.toTaking h.id h.card
  have hexec := exec_settleHold ht hk hf ha
  have hkey : (s.take l (s.askEntry m n .free) rest).holdByKey site (s.askEntry m n .free).msg.holdRef = some h := hx
  unfold settleHold at hexec
  rw [hn] at hexec; dsimp only at hexec
  rw [hkey] at hexec; dsimp only at hexec
  rw [if_pos ho] at hexec
  unfold bindTo at hexec
  have hslot : (s.askEntry m n .free).slot = s.nextSlot := rfl
  rw [hslot, hbind] at hexec
  rw [hbind] at hreached
  exact ⟨links, hreached, hexec⟩

/-- R88, R92: the request of an OPEN hold whose card is found is evaluated. -/
theorem exec_settleHold_hit (hx : s.holdByKey site m.holdRef = some h) (ho : h.state = .opened) (hh : s.Hit h.card r stay) :
    ∃ links, s.Met ((s.reached links s.tills).touch h.card) l m rest n (.hold h.id h.card) h.card r stay ∧
      (s.reached links s.tills).Found h.card r stay ∧ exec (takeOffOf m.kind l) s =
        .next (evaluate l (s.askEntry m n (.hold h.id h.card)) h.card (s.reached links s.tills)) := by
  obtain ⟨links, hreached, hexec⟩ := exec_settleHold_opened ht hk hf ha hn hx ho
  have hhit : (s.reached links s.tills).Hit h.card r stay := ⟨⟨hh.mode, hh.record, hh.verified, hh.apart, hh.unfetched⟩, hh.direct⟩
  have hmode : (evaluate l (s.askEntry m n (.hold h.id h.card)) h.card (s.reached links s.tills)).dirMode.isFlushing = false := by
    rw [(evaluate_only _ _ _ _).dirMode]; exact hhit.not_flushing
  rw [directoryDecision_hit hhit, State.settle_of_not_flushing hmode] at hexec
  exact ⟨links, hreached.met hh.toFound, hhit.toFound, hexec⟩

/-- R91, R93: the request of an OPEN hold whose card cannot be had is settled without it. -/
theorem exec_settleHold_unfetched (hx : s.holdByKey site m.holdRef = some h) (ho : h.state = .opened)
    (hp : s.passThrough h.card = false) (hw : s.dirMode = .frozen ∧ s.recordOf h.card = none ∨
      s.dirMode = .normal ∧ s.findWay h.card = none ∧ s.victim h.card = none) :
    ∃ links, s.Reached (s.reached links s.tills) l m rest n (.hold h.id h.card) ∧ exec (takeOffOf m.kind l) s =
      .next (missUnfetched l (s.askEntry m n (.hold h.id h.card)) (s.reached links s.tills)) := by
  obtain ⟨links, hreached, hexec⟩ := exec_settleHold_opened ht hk hf ha hn hx ho
  have hmode : (missUnfetched l (s.askEntry m n (.hold h.id h.card)) (s.reached links s.tills)).dirMode.isFlushing = false := by
    rw [(missUnfetched_only _ _ _).dirMode]
    show s.dirMode.isFlushing = false
    rcases hw with ⟨hm, -⟩ | ⟨hm, -⟩ <;> rw [hm] <;> rfl
  rw [directoryDecision_unfetched (s := s.reached links s.tills) rfl hp hw, State.settle_of_not_flushing hmode] at hexec
  exact ⟨links, hreached, hexec⟩

end

end

end Sys2Proof.Machine
end

section
/-! COMPLETE: the capture of an OPEN hold (R88, R89, R91, R94). -/

namespace Sys2Proof.Machine

/-! ### The evaluation (R88, R89) -/

section
variable {s : State} {l card stay id : Nat} {e : ReplyEntry} {p : Option Program} {d : CardData} {h : Hold} {x : Capture}

theorem evaluate_complete {c : Nat} (hk : e.msg.kind = .complete) (hb : e.bound = .hold id c) :
    evaluate l e card s = (s.touch card).withRecord l e card (evalComplete l e ((s.touch card).programOf card) id) := by
  unfold evaluate; dsimp only; rw [hk, hb]

theorem evalComplete_tooLate (hc : s.checkHold id = .tooLate) :
    evalComplete l e p id d stay s = decline l e .tooLate (some (s.freeFigure d)) s := by
  unfold evalComplete; rw [hc]

theorem evalComplete_notFound (hc : s.checkHold id = .notFound) :
    evalComplete l e p id d stay s = decline l e .notFound (some (s.freeFigure d)) s := by
  unfold evalComplete; rw [hc]

section
variable (hc : s.checkHold id = .live h)
include hc

theorem evalComplete_overTolerance (hx : captureFor h.bonus h.core h.tip (amountOf e.msg) (s.freeCore d) = none) :
    evalComplete l e p id d stay s = decline l e .overTolerance (some (s.freeFigure d)) s := by
  unfold evalComplete; rw [hc]; dsimp only; rw [hx]

theorem evalComplete_admitted (hx : captureFor h.bonus h.core h.tip (amountOf e.msg) (s.freeCore d) = some x) :
    evalComplete l e p id d stay s = s.admitted l e (some (s.freeFigure d)) (applyComplete l e p h d stay x) := by
  unfold evalComplete; rw [hc]; dsimp only; rw [hx]

end

/-! ### What an admitted capture makes (R51, R89, R133) -/

/-- R50, R51: the record's fields once the capture has left its purses. -/
def captured (d : CardData) (x : Capture) : CardData := { d with bonus := d.bonus - x.bonus, core := d.core - (x.core + x.extra) }

/-- R89: the hold while its capture waits for delivery. -/
def Hold.capturing (x : Capture) (h : Hold) : Hold := { h with bonus := 0, core := 0, state := .capturing x.bonus x.core x.extra }

/-- R89: the CAPTURE record. -/
def captureDraft (card : Nat) (x : Capture) (origin : Option Origin) : Draft :=
  { kind := .capture, card := card, origin := origin, bonusDelta := -(x.bonus : Int)
    coreDelta := -((x.core + x.extra : Nat) : Int), forfeited := none, undone := none }

/-- R89, R191: the reply to an approved COMPLETE. -/
def captureReply (m : TillMsg) (x : Capture) (free : Nat) : TillReply :=
  { lane := m.lane, kind := 6#8, outcome := if x.partly then .partly else .approved, reason := none, training := false
    standIn := false, hostDecided := false, free := some free, approved := x.bonus + x.core + x.extra, bonus := x.bonus
    core := x.core + x.extra, ref := m.tillRef, report := ShiftReport.zero }

theorem captureReply_eq {m : TillMsg} (hk : m.kind = .complete) (x : Capture) (free : Nat) :
    approvedReply m x.partly (x.bonus + x.core + x.extra) x.bonus (x.core + x.extra) free = captureReply m x free :=
  approvedReply_eq (congrArg kindByte hk) (replyRef_till (by rw [hk]; exact ⟨nofun, nofun⟩)) _ _ _ _ _

/-- R89: the capture leaves the record and the hold, its CAPTURE record joins, and the reply waits as the card's program says. -/
theorem applyComplete_unrefusing (hc : d.card = card) (x : Capture) :
    let held := s.modHold h.id (Hold.capturing x)
    let u := joinUndoable (captureDraft card x (originOf e s)) (held.unrefusing.writeData card (fun _ => captured d x))
    applyComplete l e (s.programOf card) h d stay x s.unrefusing = u.finish l e.slot (gatedBy (s.gatingOf card) u.limits.gate
      s.journal.nextSeq (approvedReply e.msg x.partly (x.bonus + x.core + x.extra) x.bonus (x.core + x.extra)
        (held.freeFigure (captured d x)))
      { card := card, effect := .capture h.id x.bonus x.core x.extra, stay := some stay, sequence := some s.journal.nextSeq
        origin := originOf e s }) := by
  subst hc
  have hwritten : (s.unrefusing.writeData d.card (fun _ => captured d x)).modHold h.id (Hold.capturing x) =
      (s.modHold h.id (Hold.capturing x)).unrefusing.writeData d.card (fun _ => captured d x) :=
    State.writeData_modHold s.unrefusing d.card h.id _ _
  have honly := ((s.modHold h.id (Hold.capturing x)).unrefusing.writeData_only d.card (fun _ => captured d x))
  have hfigure := State.freeFigure_congr (s := s.modHold h.id (Hold.capturing x)) honly.holds honly.clock (captured d x)
  dsimp only
  rw [← hfigure, ← hwritten]
  exact gate_programOf l e d.card _ _ _ s _

end

/-! ### What a COMPLETE leaves -/

section
variable {s : State} {l : Fin 8} {m : TillMsg} {rest : List TillMsg} {n : NotedTill} {site stay : Nat} {h : Hold} {r : CardRecord}
  (ht : s.Trading l m rest n) (hk : m.kind = .complete) (hf : fieldsGood m)
  (ha : readsAmount m → 1 ≤ m.amount.toNat ∧ m.amount.toNat ≤ 9999999) (hn : n.site = some site)
  (hx : s.holdByKey site m.holdRef = some h) (ho : h.state = .opened)
include ht hk hf ha hn hx ho

/-- R88: a COMPLETE of an OPEN hold that hits is evaluated against the record and the hold as they stand. -/
theorem exec_complete_hit (hid : s.holdById h.id = some h) (hh : s.Hit h.card r stay) (hnothing : s.NothingToForfeit r) :
    ∃ t, s.Met t l m rest n (.hold h.id h.card) h.card r stay ∧ t.tills = s.tills ∧ t.checkHold h.id = .live h ∧
      exec (takeOffOf m.kind l) s = .next (evalComplete l (s.askEntry m n (.hold h.id h.card)) (t.programOf h.card) h.id r.data stay t) := by
  obtain ⟨links, hmet, hfound, hexec⟩ := exec_settleHold_hit ht (.inl hk) hf ha hn hx ho hh
  rw [evaluate_complete (e := s.askEntry m n (.hold h.id h.card)) hk rfl, hfound.withRecord hnothing] at hexec
  exact ⟨_, hmet, (State.touch_only _ _).tills, State.checkHold_of_opened ((hmet.holdById _).trans hid) ho, hexec⟩

/-- R91: a COMPLETE whose hold's card cannot be had. -/
theorem exec_complete_unfetched (hp : s.passThrough h.card = false)
    (hw : s.dirMode = .frozen ∧ s.recordOf h.card = none ∨
      s.dirMode = .normal ∧ s.findWay h.card = none ∧ s.victim h.card = none) :
    ∃ t : State, exec (takeOffOf m.kind l) s = .next t ∧ t = { s with links := t.links, nextSlot := s.nextSlot + 1 } ∧
      s.otherLinks t l ∧ t.link l = s.takenLink l m rest (some n) (.hold h.id h.card)
        (.ready (declinedReply m .unavailable none) none none) := by
  obtain ⟨links, hreached, hexec⟩ := exec_settleHold_unfetched ht (.inl hk) hf ha hn hx ho hp hw
  have hkind : (s.askEntry m n (.hold h.id h.card)).msg.kind = .complete := hk
  have hunfetched : missUnfetched l (s.askEntry m n (.hold h.id h.card)) (s.reached links s.tills) =
      (s.reached links s.tills).finish l s.nextSlot (.ready (declinedReply m .unavailable none) none none) := by
    unfold missUnfetched; rw [hkind]
    exact decline_unmarked (Binding.hold_ne_entry _ _) _ _ _ _
  rw [hunfetched] at hexec
  obtain ⟨hothers, hlink⟩ := State.takenOff_completed ht.fresh hreached.taken rfl
    (.ready (declinedReply m .unavailable none) none none)
  exact ⟨_, hexec, rfl, hothers, hlink⟩

end

/-- R89, R94: a COMPLETE that waited for its card's fetch. -/
theorem State.Found.completeWaits {s : State} {l card id stay : Nat} {e : ReplyEntry} {r : CardRecord} (h : s.Found card r stay)
    (hk : e.msg.kind = .complete) (hb : e.bound = .hold id card) (hn : s.NothingToForfeit r) {reason : Reason}
    (hdecline : ∀ (p : Option Program) (d : CardData) (t : State), t.checkHold id = s.checkHold id →
      evalComplete l e p id d stay t = decline l e reason (some (t.freeFigure d)) t) : s.declinesWaiting l e card r stay reason := by
  refine h.declinesWaiting (hb ▸ Binding.hold_ne_entry _ _) ?_
  rw [evaluate_complete hk hb, h.withRecord hn]
  exact hdecline _ _ _ (by rw [State.touch_eq]; rfl)

/-- Settles O37, from the evaluation of a COMPLETE on the touched part, and from its take-off where it is not evaluated. -/
theorem completeCapturesTheHold : Obligations.CompleteCapturesTheHold := by
  refine ⟨?_, ?_, ?_, ?_⟩
  · intro l m rest n site h r stay x s ht hk hf h1 h2 hn hx hid ho hh hnothing hcapture paid joined undo
    have hcard : r.data.card = h.card := State.recordOf_card hh.record
    obtain ⟨t, hmet, htills, hlive, hexec⟩ := exec_complete_hit ht hk hf (fun _ => ⟨h1, h2⟩) hn hx ho hid hh hnothing
    have hkind : kindCode (s.askEntry m n (.hold h.id h.card)).msg.kind = 6#16 := congrArg kindCode hk
    have hheld := hmet.modHold h.id (Hold.capturing x)
    have hgating : t.gatingOf h.card = s.gatingOf h.card := by unfold State.gatingOf; rw [hmet.programOf]
    rw [evalComplete_admitted hlive (by rw [hmet.freeCore]; exact hcapture), hk] at hexec
    refine ⟨fun hroom => ?_, fun hfull => ?_⟩
    · have hj := hheld.found.written_journaled (f := fun _ => captured r.data x) hcard
        (d := captureDraft h.card x (originOf (s.askEntry m n (.hold h.id h.card)) t)) rfl
      have hmsg : (s.askEntry m n (.hold h.id h.card)).msg = m := rfl
      rw [State.admitted_room (hmet.journal ▸ hroom), applyComplete_unrefusing hcard, hj.limits, hgating, hheld.limits, hmet.journal,
        hmet.originOf, hheld.freeFigure, hmsg, captureReply_eq hk] at hexec
      rw [hmet.originOf, hheld.record] at hj
      have hkept : (t.modHold h.id (Hold.capturing x)).tills = (s.modHold h.id (Hold.capturing x)).tills := htills
      exact ⟨_, hexec, hheld.approvedUnmarked ht.fresh hkept hj paid fun free =>
        gatedBy (s.gatingOf h.card) s.limits.gate s.journal.nextSeq (captureReply m x free) undo⟩
    · rw [State.admitted_full (hmet.journal ▸ hfull), hkind, hmet.freeFigure] at hexec
      exact ⟨_, hexec, hmet.busyUnmarked ht.fresh htills (Binding.hold_ne_entry _ _) _ _⟩
  · intro l m rest n site h s ht hk hf h1 h2 hn hx ho hp hw
    have hexec := exec_complete_unfetched ht hk hf (fun _ => ⟨h1, h2⟩) hn hx ho hp hw
    rw [hk] at hexec
    exact hexec
  · intro l m rest n site s ht hk hf h1 h2 hn known
    refine ⟨fun h hx => ⟨fun ho => settleHold_declines_notFound ht (.inl hk) hf (fun _ => ⟨h1, h2⟩) hn hx ho,
      fun r stay ho hid hh hnothing hcapture => ?_⟩, settleHold_unknown ht (.inl hk) hf (fun _ => ⟨h1, h2⟩) hn⟩
    obtain ⟨t, hmet, -, hlive, hexec⟩ := exec_complete_hit ht hk hf (fun _ => ⟨h1, h2⟩) hn hx ho hid hh hnothing
    rw [evalComplete_overTolerance hlive (by rw [hmet.freeCore]; exact hcapture)] at hexec
    exact hmet.declinesAgainst ht.toTaking hexec
  · intro l e id card r stay s hk hb hfound hnothing expired
    refine ⟨fun hid he => ?_, fun hid he => ?_, fun h hid ho => ?_⟩
    · exact hfound.completeWaits hk hb hnothing fun p d t hc =>
        evalComplete_tooLate (hc.trans (State.checkHold_of_expired hid he))
    · exact hfound.completeWaits hk hb hnothing fun p d t hc =>
        evalComplete_notFound (hc.trans (State.checkHold_of_gone hid he))
    · exact hfound.completeWaits hk hb hnothing fun p d t hc =>
        evalComplete_notFound (hc.trans (State.checkHold_of_other hid ho))

end Sys2Proof.Machine
end

section
/-! RELEASE: the freeing of an OPEN hold, with its card or without it (R92 to R94). -/

namespace Sys2Proof.Machine

/-! ### The evaluation (R92) -/

section
variable {s : State} {l card stay id : Nat} {e : ReplyEntry} {d : CardData} {h : Hold} {r : CardRecord}

theorem evaluate_release {c : Nat} (hk : e.msg.kind = .release) (hb : e.bound = .hold id c) :
    evaluate l e card s = (s.touch card).withRecord l e card (fun d _ => evalRelease l e id d) := by
  unfold evaluate; dsimp only; rw [hk, hb]

theorem evalRelease_tooLate (hc : s.checkHold id = .tooLate) :
    evalRelease l e id d s = decline l e .tooLate (some (s.freeFigure d)) s := by
  unfold evalRelease; rw [hc]

theorem evalRelease_notFound (hc : s.checkHold id = .notFound) :
    evalRelease l e id d s = decline l e .notFound (some (s.freeFigure d)) s := by
  unfold evalRelease; rw [hc]

/-- R92, R191: the reply to an approved RELEASE. -/
def releaseReply (m : TillMsg) (h : Hold) (free : Option Nat) : TillReply :=
  { lane := m.lane, kind := 7#8, outcome := .approved, reason := none, training := false, standIn := false, hostDecided := false
    free := free, approved := h.bonus + h.core, bonus := h.bonus, core := h.core, ref := m.holdRef, report := ShiftReport.zero }

theorem releaseReply_eq {m : TillMsg} (hk : m.kind = .release) (h : Hold) (free : Option Nat) :
    { approvedReply m false (h.bonus + h.core) h.bonus h.core 0 with free := free } = releaseReply m h free := by
  unfold approvedReply blankReply replyRef; rw [hk]; rfl

/-- R92: an OPEN hold of a card with nothing to forfeit once it is freed leaves the table, and the reply tells of its parts. -/
theorem evalRelease_live (hk : e.msg.kind = .release) (hc : s.checkHold id = .live h) (hd : d.card = card)
    (hfound : (s.freeHold h).Found card r stay) (hn : (s.freeHold h).NothingToForfeit r) :
    evalRelease l e id d s = (s.freeHold h).finish l e.slot
      (.ready (releaseReply e.msg h (some ((s.freeHold h).freeFigure r.data))) none none) := by
  subst hd
  have hfigure : (s.freeHold h).figureOf d.card = some ((s.freeHold h).freeFigure r.data) := by
    unfold State.figureOf; rw [hfound.record]; rfl
  unfold evalRelease; rw [hc]; dsimp only
  rw [hfound.forfeitTest_nothing hn, hfigure, releaseReply_eq hk]; rfl

/-- R93: a RELEASE that is taken without its card. -/
theorem releaseWithoutCard_live (hk : e.msg.kind = .release) (hc : s.checkHold id = .live h) :
    releaseWithoutCard l e id s = (s.freeHold h).finish l e.slot (.ready (releaseReply e.msg h none) none none) := by
  unfold releaseWithoutCard; rw [hc]; dsimp only
  rw [releaseReply_eq hk]; rfl

/-- R92, R94: a RELEASE that waited for its card's fetch. -/
theorem State.Found.releaseWaits (hfound : s.Found card r stay) (hk : e.msg.kind = .release) (hb : e.bound = .hold id card)
    (hn : s.NothingToForfeit r) {reason : Reason}
    (hdecline : ∀ (d : CardData) (t : State), t.checkHold id = s.checkHold id →
      evalRelease l e id d t = decline l e reason (some (t.freeFigure d)) t) : s.declinesWaiting l e card r stay reason := by
  refine hfound.declinesWaiting (hb ▸ Binding.hold_ne_entry _ _) ?_
  rw [evaluate_release hk hb, hfound.withRecord hn]
  exact hdecline _ _ (by rw [State.touch_eq]; rfl)

end

/-! ### What a RELEASE leaves -/

section
variable {s : State} {l : Fin 8} {m : TillMsg} {rest : List TillMsg} {n : NotedTill} {site stay : Nat} {h : Hold} {r : CardRecord}

/-- R58: a bonus in date, or none. -/
theorem State.nothingToForfeit_of_due (h : inDate r.data s.date = true ∨ r.data.bonus = 0) : s.NothingToForfeit r :=
  h.imp_right fun h0 => h0.le.trans (Nat.zero_le _)

theorem fieldsGood_release (hk : m.kind = .release) (href : m.holdRef ≠ 0#32) : fieldsGood m := by
  unfold fieldsGood; rw [hk]; exact href

theorem not_readsAmount_release (hk : m.kind = .release) : ¬ readsAmount m := by
  unfold readsAmount; rw [hk]; nofun

section
variable (ht : s.Trading l m rest n) (hk : m.kind = .release) (href : m.holdRef ≠ 0#32) (hn : n.site = some site)
  (hx : s.holdByKey site m.holdRef = some h) (hid : s.holdById h.id = some h) (ho : h.state = .opened)
include ht hk href hn hx hid ho

/-- R92: a RELEASE of an OPEN hold that hits frees it on the touched part. -/
theorem exec_release_hit (hh : s.Hit h.card r stay) (hdue : inDate r.data s.date = true ∨ r.data.bonus = 0) :
    ∃ t, s.Met t l m rest n (.hold h.id h.card) h.card r stay ∧ t.tills = s.tills ∧ exec (takeOffOf m.kind l) s =
      .next ((t.freeHold h).finish l s.nextSlot
        (.ready (releaseReply m h (some ((s.freeHold h).freeFigure r.data))) none none)) := by
  have hcard : r.data.card = h.card := State.recordOf_card hh.record
  obtain ⟨links, hmet, hfound, hexec⟩ := exec_settleHold_hit ht (.inr hk) (fieldsGood_release hk href)
    (fun ha => absurd ha (not_readsAmount_release hk)) hn hx ho hh
  have hfreed := hmet.freeHold h
  have hlive := State.checkHold_of_opened ((hmet.holdById _).trans hid) ho
  have hstill : (s.freeHold h).NothingToForfeit r := State.nothingToForfeit_of_due (s := s.freeHold h) hdue
  rw [evaluate_release (e := s.askEntry m n (.hold h.id h.card)) hk rfl, hfound.withRecord (State.nothingToForfeit_of_due hdue),
    evalRelease_live hk hlive hcard hfreed.found (hfreed.nothingToForfeit hstill), hfreed.freeFigure] at hexec
  exact ⟨_, hmet, (State.touch_only _ _).tills, hexec⟩

/-- R93: a RELEASE whose hold's card cannot be had. -/
theorem exec_release_unfetched (hp : s.passThrough h.card = false)
    (hw : s.dirMode = .frozen ∧ s.recordOf h.card = none ∨
      s.dirMode = .normal ∧ s.findWay h.card = none ∧ s.victim h.card = none) :
    ∃ t : State, exec (takeOffOf m.kind l) s = .next t ∧
      t = { s with
        links := t.links, nextSlot := s.nextSlot + 1, holds := s.holds.filter (fun y => decide (y.id ≠ h.id))
        siteHolds := t.siteHolds } ∧
      t.siteHolds = (s.freeHold h).siteHolds ∧ s.otherLinks t l ∧
      t.link l = s.takenLink l m rest (some n) (.hold h.id h.card) (.ready (releaseReply m h none) none none) := by
  obtain ⟨links, hreached, hexec⟩ := exec_settleHold_unfetched ht (.inr hk) (fieldsGood_release hk href)
    (fun ha => absurd ha (not_readsAmount_release hk)) hn hx ho hp hw
  have hkind : (s.askEntry m n (.hold h.id h.card)).msg.kind = .release := hk
  have hlive : (s.reached links s.tills).checkHold h.id = .live h := State.checkHold_of_opened (s := s.reached links s.tills) hid ho
  have hunfetched : missUnfetched l (s.askEntry m n (.hold h.id h.card)) (s.reached links s.tills) =
      ((s.reached links s.tills).freeHold h).finish l s.nextSlot (.ready (releaseReply m h none) none none) := by
    unfold missUnfetched; rw [hkind]
    exact releaseWithoutCard_live hk hlive
  rw [hunfetched] at hexec
  obtain ⟨hothers, hlink⟩ := State.takenOff_completed (u := (s.reached links s.tills).freeHold h) ht.fresh hreached.taken rfl
    (.ready (releaseReply m h none) none none)
  exact ⟨_, hexec, rfl, rfl, hothers, hlink⟩

end

end

/-- R82: the counts once a hold has been freed. -/
theorem State.siteHoldCount_freed {s t : State} {h : Hold} (ht : t.siteHolds = (s.freeHold h).siteHolds) :
    t.siteHoldCount h.site = s.siteHoldCount h.site - 1 ∧ ∀ k, k ≠ h.site → t.siteHoldCount k = s.siteHoldCount k := by
  have hcount : ∀ k, t.siteHoldCount k = (s.freeHold h).siteHoldCount k := fun k => by unfold State.siteHoldCount; rw [ht]
  have hfreed := (s.freeHold_effects h).2
  exact ⟨(hcount _).trans ((hfreed _).trans (if_pos rfl)), fun k hk => (hcount k).trans ((hfreed k).trans (if_neg hk))⟩

/-- Settles O38, from the evaluation of a RELEASE on the touched part, and from its take-off where it is not evaluated. -/
theorem releaseFreesTheHold : Obligations.ReleaseFreesTheHold := by
  refine ⟨?_, ?_, ?_, ?_⟩
  · intro l m rest n site h r stay s ht hk href hn hx hid ho hh hdue
    obtain ⟨-, hsite, -⟩ := State.holdByKey_some hx
    obtain ⟨t, hmet, htills, hexec⟩ := exec_release_hit ht hk href hn hx hid ho hh hdue
    have hfreed := hmet.freeHold h
    have hkept : (t.freeHold h).tills = (s.freeHold h).tills := htills
    obtain ⟨hframe, hothers, hsets, hcards, hrecent, hrecord, hlink⟩ := hfreed.completed ht.fresh hkept rfl (fun _ _ => rfl)
      (fun _ _ => rfl) hfreed.recent r.data fun free => .ready (releaseReply m h (some free)) none none
    have hcounts : ((t.freeHold h).finish l s.nextSlot
        (.ready (releaseReply m h (some ((s.freeHold h).freeFigure r.data))) none none)).siteHolds = (s.freeHold h).siteHolds := by
      obtain ⟨dir, links, tills, rfl⟩ := hmet.frame; rfl
    obtain ⟨hcount, hcountOthers⟩ := State.siteHoldCount_freed hcounts
    rw [hsite] at hcount hcountOthers
    rw [hk] at hexec
    refine ⟨_, hexec, ?_, hcount, hcountOthers, hothers, hsets, hcards, hrecent, hrecord.trans hfreed.found.record, hlink⟩
    rw [hcounts]; exact hframe
  · intro l m rest n site h s ht hk href hn hx hid ho hp hw
    obtain ⟨t, hexec, hframe, hcounts, hothers, hlink⟩ := exec_release_unfetched ht hk href hn hx hid ho hp hw
    obtain ⟨hcount, hcountOthers⟩ := State.siteHoldCount_freed hcounts
    rw [hk] at hexec
    exact ⟨t, hexec, hframe, hcount, hcountOthers, hothers, hlink⟩
  · intro l m rest n site s ht hk href hn known
    have hf := fieldsGood_release hk href
    have ha : readsAmount m → 1 ≤ m.amount.toNat ∧ m.amount.toNat ≤ 9999999 := fun ha => absurd ha (not_readsAmount_release hk)
    exact ⟨fun h hx ho => settleHold_declines_notFound ht (.inr hk) hf ha hn hx ho, settleHold_unknown ht (.inr hk) hf ha hn⟩
  · intro l e id card r stay s hk hb hfound hnothing expired
    refine ⟨fun hid he => ?_, fun hid he => ?_, fun h hid ho => ?_⟩
    · exact hfound.releaseWaits hk hb hnothing fun d t hc => evalRelease_tooLate (hc.trans (State.checkHold_of_expired hid he))
    · exact hfound.releaseWaits hk hb hnothing fun d t hc => evalRelease_notFound (hc.trans (State.checkHold_of_gone hid he))
    · exact hfound.releaseWaits hk hb hnothing fun d t hc => evalRelease_notFound (hc.trans (State.checkHold_of_other hid ho))

end Sys2Proof.Machine
end

section
/-! HOLD: a hold is made, and no money moves (R85, R86). -/

namespace Sys2Proof.Machine

/-! ### The evaluation (R85, R86) -/

section
variable {s : State} {l card stay site : Nat} {e : ReplyEntry} {n : NotedTill} {p : Program} {d : CardData} {x : Debit}

theorem evaluate_hold (hk : e.msg.kind = .hold) (hn : e.noted = some n) (hsite : n.site = some site) (hp : s.programOf card = some p) :
    evaluate l e card s = (s.touch card).withRecord l e card (evalHold l e p site) := by
  have htouch : (s.touch card).programOf card = some p := by rw [State.touch_eq]; exact hp
  obtain ⟨till, noted, shift⟩ := n
  cases hsite
  unfold evaluate; dsimp only; rw [hk, hn]; exact State.underProgram_found htouch _ _ _

theorem evalHold_blocked (h : d.status = .blocked) :
    evalHold l e p site d stay s = decline l e .cardBlocked (some (s.freeFigure d)) s := if_pos h

section
variable (h : d.status = .active)
include h

theorem evalHold_limited (hl : limitReached p.limits.dailyUseLimit s.date d = true) :
    evalHold l e p site d stay s = decline l e .limitReached (some (s.freeFigure d)) s := by
  unfold evalHold; dsimp only; rw [if_neg (not_blocked h), if_pos hl]

variable (hl : limitReached p.limits.dailyUseLimit s.date d = false)
include hl

theorem evalHold_duplicate (hkey : (s.holdByKey site e.msg.holdRef).isSome = true) :
    evalHold l e p site d stay s = decline l e .duplicate (some (s.freeFigure d)) s := by
  unfold evalHold; dsimp only; rw [if_neg (not_blocked h), hl, if_neg Bool.false_ne_true, if_pos hkey]

variable (hkey : s.holdByKey site e.msg.holdRef = none)
include hkey

theorem evalHold_full (hlimit : s.holdLimit site d.card = true) :
    evalHold l e p site d stay s = decline l e .holdLimit (some (s.freeFigure d)) s := by
  unfold evalHold; dsimp only
  rw [if_neg (not_blocked h), hl, if_neg Bool.false_ne_true, hkey, Option.isSome_none, if_neg Bool.false_ne_true, if_pos hlimit]

variable (hlimit : s.holdLimit site d.card = false)
include hlimit

theorem evalHold_insufficient
    (hx : debitFor (amountOf e.msg) p.limits.bonusCap (s.freeBonus d) (s.freeCore d) (partialAllowed e.msg) = none) :
    evalHold l e p site d stay s = decline l e .insufficient (some (s.freeFigure d)) s := by
  unfold evalHold; dsimp only
  rw [if_neg (not_blocked h), hl, if_neg Bool.false_ne_true, hkey, Option.isSome_none, if_neg Bool.false_ne_true, hlimit,
    if_neg Bool.false_ne_true, hx]

theorem evalHold_admitted
    (hx : debitFor (amountOf e.msg) p.limits.bonusCap (s.freeBonus d) (s.freeCore d) (partialAllowed e.msg) = some x) :
    evalHold l e p site d stay s = s.admitted l e (some (s.freeFigure d)) (applyHold l e p site d stay x) := by
  unfold evalHold; dsimp only
  rw [if_neg (not_blocked h), hl, if_neg Bool.false_ne_true, hkey, Option.isSome_none, if_neg Bool.false_ne_true, hlimit,
    if_neg Bool.false_ne_true, hx]

end

/-- R81, R82: the three limits, written out. -/
theorem State.holdLimit_iff (s : State) (site card : Nat) : s.holdLimit site card = true ↔
    8 ≤ (s.holdsOf card).length ∨ 512 ≤ s.siteHoldCount site ∨ 32768 ≤ s.holds.length := by
  unfold State.holdLimit
  rw [Bool.or_eq_true, Bool.or_eq_true, decide_eq_true_iff, decide_eq_true_iff, decide_eq_true_iff, or_assoc]
  exact Iff.rfl

end

/-! ### What an admitted HOLD makes (R84, R86) -/

/-- R86: the NEW hold. -/
def State.newHold (s : State) (m : TillMsg) (p : Program) (site card : Nat) (x : Debit) : Hold :=
  { id := s.nextHold, site := site, ref := m.holdRef, card := card, bonus := x.bonus, core := x.core, tip := p.limits.tipTolerance
    expiry := Reading.ofMs (s.now.ms + p.limits.holdLifetime * 60000), state := .new }

/-- R82, R84, R126: the part with the NEW hold in its table and its key's note gone, its admission tested. -/
def State.withHold (s : State) (m : TillMsg) (p : Program) (site card : Nat) (x : Debit) : State :=
  s.tabled (s.holds ++ [s.newHold m p site card x]) (s.nextHold + 1)
    (s.notes.filter (fun y => decide (¬ (y.site = site ∧ y.ref = m.holdRef))))
    (s.renoted ++ (s.notes.filter (fun y => decide (y.site = site ∧ y.ref = m.holdRef))).map (fun y => y.hold))
    (s.siteHolds.set 0 site (s.siteHoldCount site + 1)) { s.journal with refusing := false }

/-- R86, R191: the reply to an approved HOLD. -/
def holdReply (m : TillMsg) (x : Debit) (free : Nat) : TillReply :=
  { lane := m.lane, kind := 5#8, outcome := if x.partly then .partly else .approved, reason := none, training := false
    standIn := false, hostDecided := false, free := some free, approved := x.amount, bonus := x.bonus, core := x.core
    ref := m.holdRef, report := ShiftReport.zero }

/-- R86: the undo record of an approved HOLD, which has no slot. -/
def State.holdUndo (s : State) (card stay : Nat) : UndoRecord :=
  { card := card, effect := .hold s.nextHold, stay := some stay, sequence := none, origin := none }

theorem holdReply_eq {m : TillMsg} (hk : m.kind = .hold) (x : Debit) (free : Nat) :
    approvedReply m x.partly x.amount x.bonus x.core free = holdReply m x free := by
  unfold approvedReply blankReply replyRef; rw [hk]; rfl

/-- R84: the notes of a key, and the others. -/
theorem filter_hasKey (notes : List ExpiryNote) (site : Nat) (ref : Word32) :
    notes.filter (fun y => y.hasKey site ref) = notes.filter (fun y => decide (y.site = site ∧ y.ref = ref)) ∧
    notes.filter (fun y => !y.hasKey site ref) = notes.filter (fun y => decide (¬ (y.site = site ∧ y.ref = ref))) := by
  have hkey : ∀ y : ExpiryNote, y.hasKey site ref = decide (y.site = site ∧ y.ref = ref) := fun y =>
    Bool.eq_iff_iff.2 ((y.hasKey_iff site ref).trans decide_eq_true_iff.symm)
  refine ⟨List.filter_congr fun y _ => hkey y, List.filter_congr fun y _ => ?_⟩
  rw [hkey, decide_not]

/-- R86: the hold joins the table, the use is counted, and the reply is READY. -/
theorem applyHold_unrefusing {s : State} {l card stay site : Nat} {e : ReplyEntry} {p : Program} {d : CardData} (hc : d.card = card)
    (hk : e.msg.kind = .hold) (x : Debit) :
    applyHold l e p site d stay x s.unrefusing =
      ((s.withHold e.msg p site card x).writeData card (fun _ => countUse d s.date)).finish l e.slot
        (.ready (holdReply e.msg x ((s.withHold e.msg p site card x).freeFigure d)) (some (s.holdUndo card stay)) none) := by
  subst hc
  obtain ⟨hgone, hkept⟩ := filter_hasKey s.notes site e.msg.holdRef
  have hmade : ({ s.unrefusing.dropNotes site e.msg.holdRef with
      holds := s.holds ++ [s.newHold e.msg p site d.card x], nextHold := s.nextHold + 1 } : State).countSite site (fun n => n + 1) =
      s.withHold e.msg p site d.card x := by
    unfold State.withHold; rw [← hgone, ← hkept]; rfl
  have honly := (s.withHold e.msg p site d.card x).writeData_only d.card (fun _ => countUse d s.date)
  have hfigure := State.freeFigure_congr honly.holds honly.clock d
  rw [← hfigure, ← holdReply_eq hk, ← hmade]
  rfl

section
variable {s t : State} {l : Nat} {m : TillMsg} {rest : List TillMsg} {n : NotedTill} {b : Binding} {card stay : Nat} {r : CardRecord}

theorem State.Met.withHold (ht : s.Met t l m rest n b card r stay) (p : Program) (site c : Nat) (x : Debit) :
    (s.withHold m p site c x).Met (t.withHold m p site c x) l m rest n b card r stay := by
  have htabled := ht.tabled (s.holds ++ [s.newHold m p site c x]) (s.nextHold + 1)
    (s.notes.filter (fun y => decide (¬ (y.site = site ∧ y.ref = m.holdRef))))
    (s.renoted ++ (s.notes.filter (fun y => decide (y.site = site ∧ y.ref = m.holdRef))).map (fun y => y.hold))
    (s.siteHolds.set 0 site (s.siteHoldCount site + 1)) { s.journal with refusing := false }
  obtain ⟨dir, links, tills, rfl⟩ := ht.frame
  exact htabled

/-- R41, R162: the Hold Table as an evaluation reads it. -/
theorem State.Met.table (ht : s.Met t l m rest n b card r stay) (site c : Nat) (ref : Word32) :
    t.holdByKey site ref = s.holdByKey site ref ∧ t.holdLimit site c = s.holdLimit site c := by
  obtain ⟨dir, links, tills, rfl⟩ := ht.frame; exact ⟨rfl, rfl⟩

end

/-! ### What a HOLD leaves -/

section
variable {s : State} {l : Fin 8} {m : TillMsg} {rest : List TillMsg} {n : NotedTill} {site card stay : Nat} {p : Program} {r : CardRecord}
  {x : Debit}

section
variable (ht : s.Trading l m rest n) (hk : m.kind = .hold) (hf : fieldsGood m)
  (ha : readsAmount m → 1 ≤ m.amount.toNat ∧ m.amount.toNat ≤ 9999999)
include ht hk hf ha

theorem exec_holdFrom : exec (takeOffOf m.kind l) s =
    .next (holdFrom l (s.askEntry m n .free) n (s.take l (s.askEntry m n .free) rest)).settle := by
  have hpath : moneyPath l (s.askEntry m n .free) n = holdFrom l (s.askEntry m n .free) n := by
    have hkind : (s.askEntry m n .free).msg.kind = .hold := hk
    unfold moneyPath; rw [hkind]
  rw [exec_trading ht hf ha, hpath]

variable (hn : n.site = some site)
include hn

/-- R85: a key that is live. -/
theorem hold_declines_duplicate (hx : (s.holdByKey site m.holdRef).isSome = true) : s.declines l m rest n .free .duplicate := by
  have hexec := exec_holdFrom ht hk hf ha
  have hkey : ((s.take l (s.askEntry m n .free) rest).holdByKey site (s.askEntry m n .free).msg.holdRef).isSome = true := hx
  unfold holdFrom at hexec
  rw [hn] at hexec; dsimp only at hexec
  rw [if_pos hkey] at hexec
  exact State.reached_free.declines ht.fresh hexec

variable (hc : cardOfBcd m.card = some card) (hx : s.holdByKey site m.holdRef = none)
include hc hx

/-- R30: a card with no program. -/
theorem hold_declines_noProgram (hp : s.programOf card = none) : s.declines l m rest n .free .noProgram := by
  have hexec := exec_holdFrom ht hk hf ha
  have hkey : ((s.take l (s.askEntry m n .free) rest).holdByKey site (s.askEntry m n .free).msg.holdRef).isSome = false :=
    congrArg Option.isSome hx
  have hno : cardNo (s.askEntry m n .free).msg = some card := hc
  have hnone : (s.take l (s.askEntry m n .free) rest).programOf card = none := hp
  unfold holdFrom at hexec
  rw [hn] at hexec; dsimp only at hexec
  rw [hkey, if_neg Bool.false_ne_true] at hexec
  unfold withCardProgram at hexec
  rw [hno] at hexec; dsimp only at hexec
  unfold State.underProgram at hexec
  rw [hnone] at hexec
  exact State.reached_free.declines ht.fresh hexec

/-- R86: a HOLD of a new key that hits is evaluated against the record as it stands. -/
theorem exec_hold_hit (hp : s.programOf card = some p) (hh : s.Hit card r stay) (hnothing : s.NothingToForfeit r) :
    exec (takeOffOf m.kind l) s =
      .next (evalHold l (s.askEntry m n .free) p site r.data stay ((s.take l (s.askEntry m n .free) rest).touch card)) := by
  have hhit : (s.take l (s.askEntry m n .free) rest).Hit card r stay :=
    ⟨⟨hh.mode, hh.record, hh.verified, hh.apart, hh.unfetched⟩, hh.direct⟩
  have hmode : (evaluate l (s.askEntry m n .free) card (s.take l (s.askEntry m n .free) rest)).dirMode.isFlushing = false := by
    rw [(evaluate_only _ _ _ _).dirMode]; exact hh.not_flushing
  rw [exec_holdFrom ht hk hf ha, holdFrom_reaches hc (Option.isSome_iff_exists.2 ⟨p, hp⟩) hn hx]
  unfold directoryMeets; dsimp only
  rw [directoryDecision_hit hhit, State.settle_of_not_flushing hmode,
    evaluate_hold (e := s.askEntry m n .free) (s := s.take l (s.askEntry m n .free) rest) hk rfl hn hp,
    hh.touched.met.withRecord hnothing]

end

/-- R86: what is left once a HOLD has been approved on the touched part. -/
theorem State.Met.held {t : State} (ht : s.Met t l m rest n .free card r stay) (hfresh : ∀ e ∈ (s.link l).replies, e.slot < s.nextSlot)
    (htills : t.tills = s.tills) :
    let v := ((t.withHold m p site card x).writeData card (fun _ => countUse r.data s.date)).finish l s.nextSlot
      (.ready (holdReply m x ((s.withHold m p site card x).freeFigure r.data)) (some (s.holdUndo card stay)) none)
    v = { s.withHold m p site card x with dir := v.dir, links := v.links, nextSlot := s.nextSlot + 1, siteHolds := v.siteHolds } ∧
    v.siteHoldCount site = s.siteHoldCount site + 1 ∧ (∀ k, k ≠ site → v.siteHoldCount k = s.siteHoldCount k) ∧
    s.otherLinks v l ∧ s.otherSets v (setOf card) ∧ s.otherCards v card ∧ v.mostRecent card ∧
    v.recordOf card = some (sealRecord (countUse r.data s.date) r.unposted, stay) ∧
    v.link l = s.takenLink l m rest (some n) .free
      (.ready (holdReply m x (v.freeBonus r.data + v.freeCore r.data)) (some (s.holdUndo card stay)) none) := by
  have hheld := ht.withHold p site card x
  have hkept : (t.withHold m p site card x).tills = (s.withHold m p site card x).tills := htills
  have hcard : (countUse r.data s.date).card = card := State.recordOf_card ht.found.record
  have hu : (t.withHold m p site card x).writeData card (fun _ => countUse r.data s.date) = { t.withHold m p site card x with
      dir := ((t.withHold m p site card x).writeData card (fun _ => countUse r.data s.date)).dir } := State.writeRecord_eq _ _ _
  obtain ⟨hrecord, hcards, hsets, -⟩ :=
    State.wrote_writeData hheld.found.apart hheld.found.record (fun _ => countUse r.data s.date) hcard
  have hrecent : ((t.withHold m p site card x).writeData card (fun _ => countUse r.data s.date)).mostRecent card :=
    State.mostRecent_writeRecord hheld.found.record _ hcard hheld.recent
  obtain ⟨hframe, hothers, hsets, hcards, hrecent, hwritten, hlink⟩ := hheld.completed hfresh hkept hu hsets hcards hrecent r.data
    fun free => .ready (holdReply m x free) (some (s.holdUndo card stay)) none
  have hcounts : ((t.withHold m p site card x).writeData card (fun _ => countUse r.data s.date)).siteHolds =
      (s.withHold m p site card x).siteHolds := by
    rw [hu]; obtain ⟨dir, links, tills, rfl⟩ := ht.frame; rfl
  have hcount : ∀ k, (s.withHold m p site card x).siteHoldCount k = if k = site then s.siteHoldCount site + 1 else s.siteHoldCount k :=
    fun k => Table.get_set 0 s.siteHolds site k _
  intro v
  have hsame : v.siteHolds = (s.withHold m p site card x).siteHolds := hcounts
  have hread : ∀ k, v.siteHoldCount k = (s.withHold m p site card x).siteHoldCount k := fun k => by unfold State.siteHoldCount; rw [hsame]
  refine ⟨?_, ?_, fun k hk => ?_, hothers, hsets, hcards, hrecent, hwritten.trans hrecord, hlink⟩
  · rw [hsame]; exact hframe
  · rw [hread, hcount, if_pos rfl]
  · rw [hread, hcount, if_neg hk]

end

/-- Settles O36, from the evaluation of a HOLD on the touched part, and from its take-off where it is not evaluated. -/
theorem holdReservesWithoutMovingMoney : Obligations.HoldReservesWithoutMovingMoney := by
  refine ⟨?_, ?_, ?_⟩
  · intro l m rest n site card p r stay x s ht hk hf h1 h2 hn hc hp hh hnothing hactive hlimit hx hcards hsites htable hdebit h
    have hcard : r.data.card = card := State.recordOf_card hh.record
    have hexec := exec_hold_hit ht hk hf (fun _ => ⟨h1, h2⟩) hn hc hx hp hh hnothing
    have htouched := hh.touched (l := l) (m := m) (rest := rest) (n := n)
    generalize (s.take l (s.askEntry m n .free) rest).touch card = t at hexec htouched
    have hmet := htouched.met
    have hkind : kindCode (s.askEntry m n .free).msg.kind = 5#16 := congrArg kindCode hk
    obtain ⟨hkey, hroomy⟩ := hmet.table site r.data.card m.holdRef
    have hopen : t.holdLimit site r.data.card = false := by
      rw [hroomy, ← Bool.not_eq_true, State.holdLimit_iff, hcard]; omega
    rw [evalHold_admitted hactive (hmet.date ▸ hlimit) (hkey.trans hx) hopen (by rw [hmet.freeBonus, hmet.freeCore]; exact hdebit),
      hk] at hexec
    refine ⟨fun hroom => ?_, fun hfull => ?_⟩
    · have hmsg : (s.askEntry m n .free).msg = m := rfl
      have hundo : t.holdUndo card stay = s.holdUndo card stay := by
        obtain ⟨dir, links, htaken⟩ := htouched.frame; rw [htaken]; rfl
      rw [State.admitted_room (hmet.journal ▸ hroom), applyHold_unrefusing hcard hk, hmsg, (hmet.withHold p site card x).freeFigure,
        hmet.date, hundo] at hexec
      exact ⟨_, hexec, hmet.held ht.fresh htouched.tills⟩
    · rw [State.admitted_full (hmet.journal ▸ hfull), hkind, hmet.freeFigure] at hexec
      exact ⟨_, hexec, htouched.busy ht.toTaking _ _⟩
  · intro l m rest n site card s ht hk hf h1 h2 hn hc
    have ha : readsAmount m → 1 ≤ m.amount.toNat ∧ m.amount.toNat ≤ 9999999 := fun _ => ⟨h1, h2⟩
    refine ⟨hold_declines_duplicate ht hk hf ha hn, hold_declines_noProgram ht hk hf ha hn hc, ?_⟩
    intro p r stay hx hp hh hnothing declined limit
    have hcard : r.data.card = card := State.recordOf_card hh.record
    have hexec := exec_hold_hit ht hk hf ha hn hc hx hp hh hnothing
    have hmet := (hh.touched (l := l) (m := m) (rest := rest) (n := n)).met
    generalize (s.take l (s.askEntry m n .free) rest).touch card = t at hexec hmet
    obtain ⟨hkey, hroomy⟩ := hmet.table site r.data.card m.holdRef
    have hfull : t.holdLimit site r.data.card = true ↔ limit := by rw [hroomy, State.holdLimit_iff, hcard]
    refine ⟨fun hb => ?_, fun hactive hreached => ?_, fun hactive hunder => ⟨fun hlimit => ?_, fun hlimit hx' => ?_⟩⟩
    · rw [evalHold_blocked hb] at hexec
      exact hmet.declinesAgainst ht.toTaking hexec
    · rw [evalHold_limited hactive (hmet.date ▸ hreached)] at hexec
      exact hmet.declinesAgainst ht.toTaking hexec
    · rw [evalHold_full hactive (hmet.date ▸ hunder) (hkey.trans hx) (hfull.2 hlimit)] at hexec
      exact hmet.declinesAgainst ht.toTaking hexec
    · rw [evalHold_insufficient hactive (hmet.date ▸ hunder) (hkey.trans hx) (Bool.eq_false_iff.2 (mt hfull.1 hlimit))
        (by rw [hmet.freeBonus, hmet.freeCore]; exact hx')] at hexec
      exact hmet.declinesAgainst ht.toTaking hexec
  · intro l e n site card p r stay s hk hb hnoted hsite hp hfound hnothing hactive hlimit hkey
    have hdate : (s.touch card).date = s.date := by rw [State.touch_eq]; rfl
    have hsame : (s.touch card).holdByKey site e.msg.holdRef = s.holdByKey site e.msg.holdRef := by rw [State.touch_eq]; rfl
    refine hfound.declinesWaiting (fun _ => by rw [hb]; nofun) ?_
    rw [evaluate_hold hk hnoted hsite hp, hfound.withRecord hnothing]
    exact evalHold_duplicate hactive (hdate ▸ hlimit) (hsame ▸ hkey)

end Sys2Proof.Machine
end

section
/-! The host's answers up to the entry they name, and the answers and POSTEDs that name nothing (R103, R104, R130, R131). -/

namespace Sys2Proof.Machine

/-! ### The entry an answer names (R103, R104) -/

theorem State.matching_iff {s : State} {tag gen : Nat} {x : HostEntry} :
    s.matching tag gen = some x ↔ s.request tag = some x ∧ x.gen = gen := by
  unfold State.matching
  cases s.request tag with
  | none => simp
  | some y =>
    dsimp only; split
    · next hy => exact ⟨fun h => ⟨h, Option.some.inj h ▸ hy⟩, fun h => h.1⟩
    · next hy => exact ⟨nofun, fun h => absurd (Option.some.inj h.1 ▸ h.2) hy⟩

section
variable {α : Type} {kind : Word16} {tag : Byte} {gen : Word16} {fields : α} {s : State}
  {act : Nat → Nat → HostKind → α → State → State}

/-- R103: an answer that names a SENT entry is taken against it. -/
theorem hostAnswer_taken {x : HostEntry} (hx : s.request tag.toNat = some x) (hgen : x.gen = gen.toNat)
    (hsent : ∀ f, x.kind = .fetch f → f.sent = true) :
    hostAnswer kind (.body tag gen fields) s act = (act tag.toNat gen.toNat x.kind fields s).settle := by
  unfold hostAnswer HostEntry.fetch?; dsimp only
  rw [State.matching_iff.2 ⟨hx, hgen⟩]; dsimp only
  cases hk : x.kind with
  | fetch f => exact if_pos (hsent f hk)
  | referral r => rfl

/-- R104: an answer that names no SENT entry is late. -/
theorem hostAnswer_late
    (h : ∀ x, s.request tag.toNat = some x → x.gen ≠ gen.toNat ∨ ∃ f, x.kind = .fetch f ∧ f.sent = false) :
    hostAnswer kind (.body tag gen fields) s act = s.lateAnswer kind tag.toNat gen.toNat := by
  unfold hostAnswer; dsimp only
  cases hm : s.matching tag.toNat gen.toNat with
  | none => rfl
  | some x =>
    obtain ⟨hx, hgen⟩ := State.matching_iff.1 hm
    obtain ⟨f, hk, hsent⟩ := (h x hx).resolve_left (fun hne => hne hgen)
    have hfetch : x.fetch? = some f := by unfold HostEntry.fetch?; rw [hk]
    dsimp only; rw [hfetch]; dsimp only; rw [hsent]; rfl

end

/-- R104: all that a late answer changes. -/
theorem State.lateAnswer_eq (s : State) (kind : Word16) (tag gen : Nat) : s.lateAnswer kind tag gen =
    { s with
      counters := { s.counters with late := s.counters.late.bump }
      events := { s.events with pending := s.events.pending ||| 8#16 }
      out := if s.events.enables.getLsbD 3 && s.events.routine
        then s.out ++ [.notice .lateAnswer s.now (.lateAnswer kind tag gen)] else s.out } := rfl

/-! ### An invalid POSTED (R130, R131) -/

/-- R130: the first part of the cut ends with the record of the sequence. -/
theorem splitAtSequence_last {n : Nat} : ∀ {rs sent left : List JournalRecord}, splitAtSequence n rs = some (sent, left) →
    ∃ a h, sent = a ++ [h] ∧ h.sequence = n
  | [], _, _, h => by cases h
  | r :: t, sent, left, h => by
    unfold splitAtSequence at h; split at h
    · next hr => cases h; exact ⟨[], r, rfl, hr⟩
    · obtain ⟨⟨b, c⟩, hcut, e⟩ := Option.map_eq_some_iff.1 h
      obtain ⟨rfl, rfl⟩ := Prod.mk.inj e
      obtain ⟨a, x, rfl, hx⟩ := splitAtSequence_last hcut
      exact ⟨r :: a, x, rfl, hx⟩

/-- R131: a POSTED is invalid when no record from the oldest held up to the highest sent has its sequence. -/
theorem Journal.postable_none {j : Journal} {n : Nat}
    (h : ∀ a x d, j.records = a ++ x :: d → x.sequence = j.highestSent → ∀ r ∈ a ++ [x], r.sequence ≠ n) : j.postable n = none := by
  have hsent : ∀ r ∈ j.sentRecords, r.sequence ≠ n := by
    unfold Journal.sentRecords
    cases hcut : splitAtSequence j.highestSent j.records with
    | none => nofun
    | some p =>
      obtain ⟨sent, left⟩ := p
      obtain ⟨a, x, rfl, hx⟩ := splitAtSequence_last hcut
      exact h a x left (by rw [splitAtSequence_append hcut]; simp) hx
  refine if_neg ?_
  rw [List.any_eq_true]
  rintro ⟨r, hr, heq⟩
  exact hsent r hr (of_decide_eq_true heq)

/-- Settles O24: each of the three answers is late, and the POSTED is invalid. -/
theorem lateAnswersAndInvalidPostedAreCounted : Obligations.LateAnswersAndInvalidPostedAreCounted := by
  refine ⟨fun tag gen w y s h => ?_, fun n s h => ?_⟩
  · intro late
    have hlate : ∀ kind, s.lateAnswer kind tag.toNat gen.toNat = late kind := fun kind => s.lateAnswer_eq kind _ _
    exact ⟨congrArg Host.Outcome.next ((hostAnswer_late h).trans (hlate _)),
      congrArg Host.Outcome.next ((hostAnswer_late h).trans (hlate _)),
      congrArg Host.Outcome.next ((hostAnswer_late h).trans (hlate _))⟩
  · have hbad : takePosted (.body n) s = s.badPosted := by unfold takePosted; dsimp only; rw [Journal.postable_none h]
    exact congrArg Host.Outcome.next hbad

end Sys2Proof.Machine
end

section
/-! How a fetch ends: what is left of its entry, its way and its wait list (R9, R10, R77, R110). -/

namespace Sys2Proof.Machine

/-! ### A record in the card's own way, or in a way that no other holds for the card (R9, R16) -/

section
variable {s : State} {no : Nat} {d : CardData} (hset : (s.dirSet (setOf d.card)).inOrder (setOf d.card)) (hno : no < 4)
  (hown : ∀ w, s.findWay d.card = some w → w.no = no)
include hset hno hown

/-- R9: what each card finds after the install of a record whose card stood in no other way. -/
theorem State.findWay_installOwn (c : Nat) : (s.install no d).findWay c = if setOf c = setOf d.card then
    (if d.card = c then some ⟨no, .valid (sealRecord d 0) s.nextStay⟩ else (s.findWay c).filter (fun w => decide (w.no ≠ no)))
    else s.findWay c := by
  have hput : ((s.dirSet (setOf d.card)).put no (.valid (sealRecord d 0) s.nextStay)).inOrder (setOf d.card) :=
    DirSet.inOrder_put hset (fun c hc => by obtain rfl := Option.some.inj hc; rfl) (fun c hc w hw hwc => by
      obtain rfl := Option.some.inj hc
      exact hown w ((DirSet.holding_iff hset _ _).2 ⟨hw, hwc⟩))
  refine (State.findWay_place hset hno hput (DirSet.toMru_perm no _) c).trans ?_
  simp only [WayState.card, sealRecord_data, Option.some.injEq]

theorem State.recordOf_installOwn : (s.install no d).recordOf d.card = some (sealRecord d 0, s.nextStay) := by
  refine State.recordOf_of_findWay (no := no) ((State.findWay_installOwn hset hno hown d.card).trans ?_)
  rw [if_pos rfl, if_pos rfl]

theorem State.findWay_installOwn_other {c : Nat} {x : Way} (hne : c ≠ d.card) (hx : s.findWay c = some x) (hxno : x.no ≠ no) :
    (s.install no d).findWay c = some x := by
  rw [State.findWay_installOwn hset hno hown, if_neg (Ne.symm hne), hx]
  simp [hxno]

end

/-! ### The entry and the way of a fetch that ends (R10, R103) -/

/-- R103: the tag `tag` is free, every other entry stands as it stood, and so does every set but `n`. -/
def State.released (s u : State) (tag n : Nat) : Prop :=
  u.request tag = none ∧ (∀ k, k ≠ tag → u.request k = s.request k) ∧ s.otherSets u n

theorem State.setRequest_none (s : State) (tag : Nat) : (s.setRequest tag none).request tag = none ∧
    ∀ k, k ≠ tag → (s.setRequest tag none).request k = s.request k :=
  ⟨s.setRequest_request_same _ _, fun k hk => (s.setRequest_request _ _ k).trans (if_neg hk)⟩

theorem State.endFetch_released (s : State) (tag : Nat) (f : Fetch) : s.released (s.endFetch tag f) tag f.set :=
  ⟨(s.setRequest_none tag).1, (s.setRequest_none tag).2, (s.setRequest tag none).setDirSet_others _ _⟩

theorem State.install_released (s : State) (tag no : Nat) (d : CardData) :
    s.released ((s.setRequest tag none).install no d) tag (setOf d.card) :=
  ⟨(s.setRequest_none tag).1, (s.setRequest_none tag).2, (s.setRequest tag none).setDirSet_others _ _⟩

section
variable {s : State} {f : Fetch} (hr : s.reservedFor f) (hset : (s.dirSet f.set).inOrder f.set)
include hr hset

theorem State.reservedFor.way_lt : f.way < 4 := by
  obtain ⟨hhome, hway⟩ := hr
  exact State.findWay_no (hhome ▸ hset) hway

/-- R10: the way of a fetch that has ended is INVALID and least recently used. -/
theorem State.endFetch_ways (tag : Nat) : ((s.endFetch tag f).dirSet f.set).ways =
    ⟨f.way, .invalid⟩ :: (s.dirSet f.set).ways.filter (fun w => decide (w.no ≠ f.way)) :=
  State.dropWay_ways (s := s.setRequest tag none) hset (hr.way_lt hset)

/-- R10: the card of a fetch that has ended without a record is in no way. -/
theorem State.endFetch_findWay (tag : Nat) : (s.endFetch tag f).findWay f.card = none := by
  have hno := hr.way_lt hset
  obtain ⟨hhome, hway⟩ := hr
  have hdrop := State.findWay_dropWay (s := s.setRequest tag none) hset hno f.card
  rw [if_pos hhome.symm, State.setRequest_findWay, hway] at hdrop
  exact hdrop.trans (by simp)

end

/-! ### Wait lists (R110) -/

theorem State.serveWaiters_nil (s : State) (act : Nat → ReplyEntry → State → State) : s.serveWaiters [] act = s := rfl

theorem State.entry_congr {s u : State} (h : u.links = s.links) (l slot : Nat) : u.entry l slot = s.entry l slot := by
  unfold State.entry State.link; rw [h]

theorem State.entry_slot {s : State} {l slot : Nat} {e : ReplyEntry} (h : s.entry l slot = some e) : e.slot = slot := by
  simpa using List.find?_some h

section
variable {s u : State} {l slot : Nat} {e : ReplyEntry}

/-- R110: a request that waits alone. -/
theorem State.serveWaiters_single (hlinks : u.links = s.links) (he : s.entry l slot = some e)
    (act : Nat → ReplyEntry → State → State) : u.serveWaiters [⟨l, slot⟩] act = act l e u := by
  unfold State.serveWaiters
  rw [List.foldl_cons, List.foldl_nil]; dsimp only
  rw [State.entry_congr hlinks, he]

/-- R62: the links after the decline of an entry, in a part whose links are those of `s`. -/
theorem decline_links (hlinks : u.links = s.links) (r : Reason) (free : Option Nat) : s.otherLinks (decline l e r free u) l ∧
    (decline l e r free u).link l = { s.link l with replies := (s.link l).replies.map (fun y =>
      if y.slot = e.slot then { y with state := .ready (declinedReply e.msg r free) none none } else y) } := by
  have hlink : ∀ k, u.link k = s.link k := fun k => by unfold State.link; rw [hlinks]
  refine ⟨fun k hk => ?_, ?_⟩
  · rw [decline_link, if_neg hk, hlink]
  · rw [decline_link, if_pos rfl, hlink]

/-- R62: a decline changes the links and the tills alone. -/
theorem decline_eq_links_tills (r : Reason) (free : Option Nat) : decline l e r free u =
    { u with links := (decline l e r free u).links, tills := (decline l e r free u).tills } :=
  (decline_eq l e r free u).trans (by rw [decline_dir])

/-- R62: the decline of a request that is bound to nothing changes its link alone. -/
theorem decline_unbound_eq (h : e.bound = .free) (r : Reason) (free : Option Nat) :
    decline l e r free u = { u with links := (decline l e r free u).links } := by
  rw [decline_unbound h]; rfl

theorem decline_tills (r : Reason) (free : Option Nat) : (decline l e r free u).tills = (u.clearMark e).tills :=
  (State.finish_only _ _ _ _).tills

/-- R79: the mark of an entry is cleared at the till it noted. -/
theorem State.clearMark_marked {n : NotedTill} (hn : e.noted = some n) : s.marked (s.clearMark e) n e.bound false := fun k => by
  unfold State.clearMark; rw [hn]
  cases e.bound with
  | free => rfl
  | hold id card => rfl
  | entry x =>
    dsimp only; unfold State.setMark; rw [State.setTill_till]
    by_cases hk : k = n.till
    · subst hk; rfl
    · rw [if_neg hk, if_neg hk]

theorem State.clearMark_tills_congr (h : u.tills = s.tills) (e : ReplyEntry) : (u.clearMark e).tills = (s.clearMark e).tills := by
  have htill : ∀ k, u.till k = s.till k := fun k => by unfold State.till; rw [h]
  unfold State.clearMark; split
  · unfold State.setMark; rw [htill, State.setTill_tills, State.setTill_tills, h]
  · exact h

end

/-! ### The stack check made again (R77) -/

section
variable {id next : Nat}

theorem stackRecheck_absent : ∀ {stack : List StackEntry} {stood : Bool}, (∀ y ∈ stack, y.id ≠ id) →
    stackRecheck id next stood stack = .notFound
  | [], _, _ => rfl
  | y :: _, _, h => (if_neg (h y List.mem_cons_self)).trans (stackRecheck_absent fun z hz => h z (List.mem_cons_of_mem _ hz))

/-- The entries above the marked one are passed over, and a STANDING one pushed since the take-off is kept in mind. -/
theorem stackRecheck_above (below : List StackEntry) : ∀ {above : List StackEntry} {stood : Bool}, (∀ z ∈ above, z.id ≠ id) →
    stackRecheck id next stood (above ++ below) =
      stackRecheck id next (stood || above.any (fun z => !z.reversing && decide (next ≤ z.id))) below
  | [], stood, _ => by rw [List.any_nil, Bool.or_false]; rfl
  | z :: above, stood, h => by
    rw [List.any_cons, ← Bool.or_assoc, ← stackRecheck_above below fun y hy => h y (List.mem_cons_of_mem _ hy)]
    exact if_neg (h z List.mem_cons_self)

variable {above below : List StackEntry} {y : StackEntry} (h : ∀ z ∈ above, z.id ≠ id) (hy : y.id = id)
include h hy

theorem stackRecheck_outOfOrder (hs : ∃ z ∈ above, z.reversing = false ∧ next ≤ z.id) :
    stackRecheck id next false (above ++ y :: below) = .outOfOrder := by
  obtain ⟨z, hz, hstands, hpushed⟩ := hs
  have hany : above.any (fun z => !z.reversing && decide (next ≤ z.id)) = true :=
    List.any_eq_true.2 ⟨z, hz, by rw [hstands, decide_eq_true hpushed]; rfl⟩
  rw [stackRecheck_above _ h, hany]
  exact if_pos hy

theorem stackRecheck_found (hs : ∀ z ∈ above, z.reversing = false → z.id < next) :
    stackRecheck id next false (above ++ y :: below) = .found y := by
  have hany : above.any (fun z => !z.reversing && decide (next ≤ z.id)) = false := List.any_eq_false.2 fun z hz => by
    rw [Bool.and_eq_true, Bool.not_eq_true', decide_eq_true_iff]
    exact fun ⟨hstands, hpushed⟩ => absurd (hs z hz hstands) (not_lt.2 hpushed)
  rw [stackRecheck_above _ h, hany]
  exact if_pos hy

end

end Sys2Proof.Machine
end

section
/-! CARD-DATA and NO-SUCH-CARD for a SENT fetch, and the stack check of a REVERSE that waited on it (R77, R103, R111, R112, R114). -/

namespace Sys2Proof.Machine

/-! ### What a SENT fetch does with its answer (R103, R111, R112, R114) -/

section
variable {f : Fetch} {w : CardWire} {s : State}

theorem takenRecord_some {d : CardData} (hd : readCard w = some d) (hcard : d.card = f.card) (hgood : s.installable d = true) :
    takenRecord f w s = some d := by
  unfold takenRecord; rw [hd]; exact if_pos ⟨hcard, hgood⟩

theorem takenRecord_none (h : ¬ ∃ d, readCard w = some d ∧ d.card = f.card ∧ s.installable d = true) : takenRecord f w s = none := by
  unfold takenRecord
  cases hd : readCard w with
  | none => rfl
  | some d => exact if_neg (fun ⟨hcard, hgood⟩ => h ⟨d, hd, hcard, hgood⟩)

variable {tag gen : Nat}

theorem takeCardData_installs {d : CardData} (hd : takenRecord f w s = some d) (hm : s.dirMode.isFlushing = false) :
    takeCardData tag gen (.fetch f) w s = ((s.setRequest tag none).install f.way d).serveWaiters f.waiters (serveInstalled f.card) := by
  unfold takeCardData; dsimp only; rw [hd]; dsimp only; rw [hm]; rfl

theorem takeCardData_flushes {d : CardData} (hd : takenRecord f w s = some d) (hm : s.dirMode.isFlushing = true) :
    takeCardData tag gen (.fetch f) w s = (s.endFetch tag f).serveWaiters f.waiters serveFlushed := by
  unfold takeCardData; dsimp only; rw [hd]; dsimp only; rw [hm]; rfl

theorem takeCardData_refuses (hd : takenRecord f w s = none) :
    takeCardData tag gen (.fetch f) w s = s.queue (.answerRefused Kind.cardData (some (tag, gen))) := by
  unfold takeCardData; dsimp only; rw [hd]; rfl

theorem takeNoSuchCard_ends (hm : s.dirMode.isFlushing = false) :
    takeNoSuchCard tag gen (.fetch f) () s = (s.endFetch tag f).serveWaiters f.waiters serveUnknown := by
  unfold takeNoSuchCard fetchUnknown; dsimp only; rw [hm]; rfl

end

section
variable {f : Fetch} {s : State} (hr : s.reservedFor f) (hset : (s.dirSet f.set).inOrder f.set)
include hr hset

/-- R9, R111: the part once the record of a taken CARD-DATA stands in the way that the fetch had reserved. -/
theorem State.installFetched_effects {d : CardData} (hcard : d.card = f.card) (tag : Nat) :
    let u := (s.setRequest tag none).install f.way d
    u = { s with requests := u.requests, dir := u.dir, nextStay := s.nextStay + 1 } ∧ s.released u tag f.set ∧
    u.mostRecent f.card ∧ u.recordOf f.card = some (sealRecord d 0, s.nextStay) := by
  have hno := hr.way_lt hset
  obtain ⟨hhome, hway⟩ := hr
  rw [hhome, ← hcard] at hset ⊢
  rw [← hcard] at hway
  have hown : ∀ v, (s.setRequest tag none).findWay d.card = some v → v.no = f.way := fun v hv => by
    rw [State.setRequest_findWay, hway] at hv; cases hv; rfl
  exact ⟨rfl, s.install_released _ _ _, State.mostRecent_install (s := s.setRequest tag none) hset hno,
    State.recordOf_installOwn (s := s.setRequest tag none) hset hno hown⟩

/-- R10: the part once the fetch has ended without a record. -/
theorem State.endFetch_effects (tag : Nat) :
    let u := s.endFetch tag f
    u = { s with requests := u.requests, dir := u.dir } ∧ s.released u tag f.set ∧ u.findWay f.card = none ∧
    (u.dirSet f.set).ways = ⟨f.way, .invalid⟩ :: (s.dirSet f.set).ways.filter (fun w => decide (w.no ≠ f.way)) :=
  ⟨rfl, s.endFetch_released tag f, State.endFetch_findWay hr hset tag, State.endFetch_ways hr hset tag⟩

end

/-! ### A request that waited alone (R62, R77, R79) -/

/-- R62, R79: the waiting request of the entry `e` was declined in the part `u`, whose links and tills are those of `s`: `t` is `u` with
the entry READY and a REVERSE's mark cleared. -/
def State.waiterDeclined (s u t : State) (l slot : Nat) (e : ReplyEntry) (n : NotedTill) (r : Reason) : Prop :=
  t = { u with links := t.links, tills := t.tills } ∧ s.marked t n e.bound false ∧ s.otherLinks t l ∧
  t.link l = { s.link l with replies := (s.link l).replies.map (fun y =>
    if y.slot = slot then { y with state := .ready (declinedReply e.msg r none) none none } else y) }

theorem serveUnknown_unbound {e : ReplyEntry} (h : e.bound = .free) (l : Nat) (s : State) :
    serveUnknown l e s = decline l e .cardUnknown none s := by
  unfold serveUnknown; rw [h]

section
variable {s u : State} {l slot card : Nat} {e : ReplyEntry} {n : NotedTill} {x : StackEntry}

theorem decline_waiterDeclined (hlinks : u.links = s.links) (htills : u.tills = s.tills) (he : s.entry l slot = some e)
    (hn : e.noted = some n) (r : Reason) : s.waiterDeclined u (decline l e r none u) l slot e n r := by
  obtain rfl := State.entry_slot he
  obtain ⟨hothers, hlink⟩ := decline_links (l := l) (e := e) hlinks r none
  refine ⟨decline_eq_links_tills r none, ?_, hothers, hlink⟩
  exact State.marked_congr ((decline_tills r none).trans (State.clearMark_tills_congr htills e)) (State.clearMark_marked hn)

/-- R77, R111: a waiting REVERSE has its stack check made again. -/
theorem serveInstalled_reverse (hb : e.bound = .entry x) : serveInstalled card l e u = recheckReverse l e x (evaluate l e card) u := by
  unfold serveInstalled; rw [hb]

variable {act : State → State} (htills : u.tills = s.tills) (hn : e.noted = some n)
include htills hn

theorem notedTill_stack : (u.till (notedTill e)).stack = (s.till n.till).stack := by
  unfold notedTill State.till; rw [hn, htills]

theorem recheckReverse_notFound (h : ∀ y ∈ (s.till n.till).stack, y.id ≠ x.id) :
    recheckReverse l e x act u = decline l e .notFound none u := by
  unfold recheckReverse; rw [notedTill_stack htills hn, stackRecheck_absent h]

variable {above below : List StackEntry} {y : StackEntry} (hstack : (s.till n.till).stack = above ++ y :: below) (hy : y.id = x.id)
  (habove : ∀ z ∈ above, z.id ≠ x.id)
include hstack hy habove

theorem recheckReverse_outOfOrder (h : ∃ z ∈ above, z.reversing = false ∧ e.nextEntry ≤ z.id) :
    recheckReverse l e x act u = decline l e .outOfOrder none u := by
  unfold recheckReverse; rw [notedTill_stack htills hn, hstack, stackRecheck_outOfOrder habove hy h]

theorem recheckReverse_found (h : ∀ z ∈ above, z.reversing = false → z.id < e.nextEntry) : recheckReverse l e x act u = act u := by
  unfold recheckReverse; rw [notedTill_stack htills hn, hstack, stackRecheck_found habove hy h]

end

/-! ### The two answers -/

section
variable {tag : Byte} {gen : Word16} {w : CardWire} {x : HostEntry} {f : Fetch} {s : State} (hx : s.request tag.toNat = some x)
  (hgen : x.gen = gen.toNat) (hk : x.kind = .fetch f) (hsent : f.sent = true)
include hx hgen hk hsent

theorem exec_cardData_sent :
    exec (.cardData (.body tag gen w)) s = .next (takeCardData tag.toNat gen.toNat (.fetch f) w s).settle := by
  rw [← hk]
  exact congrArg Host.Outcome.next (hostAnswer_taken hx hgen (fun g hg => by cases hk.symm.trans hg; exact hsent))

theorem exec_noSuchCard_sent :
    exec (.noSuchCard (.body tag gen ())) s = .next (takeNoSuchCard tag.toNat gen.toNat (.fetch f) () s).settle := by
  rw [← hk]
  exact congrArg Host.Outcome.next (hostAnswer_taken hx hgen (fun g hg => by cases hk.symm.trans hg; exact hsent))

end

/-- Settles O23: what the fetch does with its answer, and then its wait list. -/
theorem fetchAnswersEndTheFetch : Obligations.FetchAnswersEndTheFetch := by
  intro tag gen w x f s hx hgen hk hsent hr hset freed
  have hdata := exec_cardData_sent (w := w) hx hgen hk hsent
  have hunknown := exec_noSuchCard_sent hx hgen hk hsent
  refine ⟨?_, fun hbad => ?_, fun hm => ?_⟩
  · rintro ⟨d, hd, hcard, hgood⟩
    have hrecord := takenRecord_some hd hcard hgood
    refine ⟨fun hm => ?_, fun hm => ?_⟩
    · rw [takeCardData_installs hrecord hm] at hdata
      obtain ⟨hframe, hfreed, hrecent, hsealed⟩ := State.installFetched_effects hr hset hcard tag.toNat
      generalize (s.setRequest tag.toNat none).install f.way d = u at hdata hframe hfreed hrecent hsealed
      have hlinks : u.links = s.links := by rw [hframe]
      have htills : u.tills = s.tills := by rw [hframe]
      have hmode : u.dirMode = s.dirMode := by rw [hframe]
      refine ⟨u, hdata, hframe, hfreed, hrecent, ⟨d, hd, hsealed⟩, fun hw => ?_, ?_⟩
      · rw [hdata, hw, State.serveWaiters_nil, State.settle_of_not_flushing (hmode ▸ hm)]
      · intro l slot e y n hw he hb hn declined
        rw [hw, State.serveWaiters_single hlinks he, serveInstalled_reverse hb] at hdata
        have hdecline : ∀ r, recheckReverse l e y (evaluate l e f.card) u = decline l e r none u → declined r := fun r hr => by
          have hsettle := State.settle_of_not_flushing (((decline_only u l e r none).dirMode.trans hmode) ▸ hm)
          rw [hr, hsettle] at hdata
          exact ⟨_, hdata, decline_waiterDeclined hlinks htills he hn r⟩
        refine ⟨fun hgone => hdecline _ (recheckReverse_notFound htills hn hgone), fun above below z hstack hz habove =>
          ⟨fun hpushed => hdecline _ (recheckReverse_outOfOrder htills hn hstack hz habove hpushed), fun hold => ?_⟩⟩
        rw [hdata, recheckReverse_found htills hn hstack hz habove hold]
    · rw [takeCardData_flushes hrecord hm] at hdata
      obtain ⟨hframe, hfreed, hgone, -⟩ := State.endFetch_effects hr hset tag.toNat
      exact ⟨_, hdata, hframe, hfreed, hgone⟩
  · rw [hdata, takeCardData_refuses (takenRecord_none hbad)]
  · rw [takeNoSuchCard_ends hm] at hunknown
    obtain ⟨hframe, hfreed, hgone, hways⟩ := State.endFetch_effects hr hset tag.toNat
    generalize s.endFetch tag.toNat f = u at hunknown hframe hfreed hgone hways
    have hlinks : u.links = s.links := by rw [hframe]
    have hmode : u.dirMode = s.dirMode := by rw [hframe]
    refine ⟨u, hunknown, hframe, hfreed, hgone, hways, fun l slot e hw he hb => ?_⟩
    have hsettle := State.settle_of_not_flushing (((decline_only u l e .cardUnknown none).dirMode.trans hmode) ▸ hm)
    rw [hw, State.serveWaiters_single hlinks he, serveUnknown_unbound hb, hsettle] at hunknown
    obtain rfl := State.entry_slot he
    exact ⟨_, hunknown, decline_unbound_eq hb _ _, decline_links hlinks _ _⟩

end Sys2Proof.Machine
end

section
/-! The timers of a fetch and of a referral (R10, R105, R107, R113, R117, R118). -/

namespace Sys2Proof.Machine

/-! ### The timers of a fetch (R105, R107, R113) -/

section
variable {tag : Fin 256} {f : Fetch} {s : State}

/-- R105, R107: the timer that runs ends the fetch, and the other one's row has nothing to end. -/
theorem exec_fetchTimeout (hf : s.fetchAt tag.val = some f) :
    exec (if f.sent then .fetchAnswerTimeout tag else .fetchGateTimeout tag) s = .next (fetchTimedOut tag.val f s).settle ∧
    exec (if f.sent then .fetchGateTimeout tag else .fetchAnswerTimeout tag) s = .next s := by
  have hanswer : execFetchAnswerTimeout tag s = .next (if f.sent then (fetchTimedOut tag.val f s).settle else s) := by
    unfold execFetchAnswerTimeout; unfold State.fetchAt at hf; rw [hf]
  have hgate : execFetchGateTimeout tag s = .next (if f.sent then s else (fetchTimedOut tag.val f s).settle) := by
    unfold execFetchGateTimeout; unfold State.fetchAt at hf; rw [hf]
  cases hs : f.sent with
  | true => rw [hs] at hanswer hgate; exact ⟨hanswer, hgate⟩
  | false => rw [hs] at hanswer hgate; exact ⟨hgate, hanswer⟩

/-- R113: outside a flush the way is released and HOST-TIMEOUT is raised before the wait list is dealt with. -/
theorem fetchTimedOut_eq (tag : Nat) (hm : s.dirMode.isFlushing = false) : fetchTimedOut tag f s =
    ((s.endFetch tag f).raise .hostTimeout (.hostTimeout tag true (some f.card) f.sent)).serveWaiters f.waiters
      (serveTimedOut f.card) := by
  unfold fetchTimedOut; rw [hm]; rfl

/-- R10, R113: the part once the fetch has ended by its timer, before the wait list is dealt with. -/
theorem State.endFetch_raise_effects (hr : s.reservedFor f) (hset : (s.dirSet f.set).inOrder f.set) (tag : Nat) (d : NoticeData) :
    let u := (s.endFetch tag f).raise .hostTimeout d
    u = { s with requests := u.requests, dir := u.dir, events := u.events, out := u.out } ∧ s.released u tag f.set ∧
    u.findWay f.card = none ∧
    (u.dirSet f.set).ways = ⟨f.way, .invalid⟩ :: (s.dirSet f.set).ways.filter (fun w => decide (w.no ≠ f.way)) ∧
    u.events.pending.getLsbD 8 = true := by
  obtain ⟨-, hfreed, hgone, hways⟩ := State.endFetch_effects hr hset tag
  exact ⟨rfl, hfreed, hgone, hways, pending_raised _ .hostTimeout⟩

theorem serveTimedOut_unbound {e : ReplyEntry} (hb : e.bound = .free) (hk : e.msg.kind ≠ .redeem) (card l : Nat) (s : State) :
    serveTimedOut card l e s = decline l e .unavailable none s := by
  unfold serveTimedOut; rw [hb]
  cases hkind : e.msg.kind with
  | redeem => exact absurd hkind hk
  | _ => rfl

end

/-! ### The timer of a referral (R117, R118) -/

section
variable {tag : Nat} {r : Referral} {s : State}

/-- R117: the part once the entry of a referral has ended by its timer, before the waiting request is declined. -/
def State.referralEnded (s : State) (tag : Nat) (r : Referral) : State :=
  (s.setRequest tag none).raise .hostTimeout (.hostTimeout tag false (requestCard r.msg r.bound) true)

theorem referralTimedOut_abandoned (h : r.abandoned = true) : referralTimedOut tag r s = s.referralEnded tag r := if_pos h

theorem referralTimedOut_waiting {e : ReplyEntry} (h : r.abandoned = false) (he : s.entry r.link r.slot = some e) :
    referralTimedOut tag r s = decline r.link e .unavailable none (s.referralEnded tag r) := by
  have hentry : ((s.setRequest tag none).raise .hostTimeout (.hostTimeout tag false (requestCard r.msg r.bound) true)).entry
      r.link r.slot = some e := he
  unfold referralTimedOut; dsimp only; rw [h, hentry]; rfl

theorem referralTimedOut_gone (h : r.abandoned = false) (he : s.entry r.link r.slot = none) :
    referralTimedOut tag r s = s.referralEnded tag r := by
  have hentry : ((s.setRequest tag none).raise .hostTimeout (.hostTimeout tag false (requestCard r.msg r.bound) true)).entry
      r.link r.slot = none := he
  unfold referralTimedOut; dsimp only; rw [h, hentry]; rfl

/-- R117: whatever becomes of the waiting request, the end of a referral changes its link and its till alone beside the entry. -/
theorem referralTimedOut_frame (s : State) (tag : Nat) (r : Referral) : ∃ links tills,
    referralTimedOut tag r s = { s.referralEnded tag r with links := links, tills := tills } := by
  cases ha : r.abandoned with
  | true => exact ⟨_, _, referralTimedOut_abandoned ha⟩
  | false =>
    cases he : s.entry r.link r.slot with
    | none => exact ⟨_, _, referralTimedOut_gone ha he⟩
    | some e => exact ⟨_, _, (referralTimedOut_waiting ha he).trans (decline_eq_links_tills _ _)⟩

end

/-- Settles O42: the running timer of each kind of entry. -/
theorem timersEndTheQuestionsToTheHost : Obligations.TimersEndTheQuestionsToTheHost := by
  refine ⟨fun tag f s hf hr hset hm => ?_, fun tag x r s hx hk => ?_⟩
  · obtain ⟨hexec, hother⟩ := exec_fetchTimeout hf
    rw [fetchTimedOut_eq _ hm] at hexec
    obtain ⟨hframe, ⟨hfree, hentries, hsets⟩, hgone, hways, hraised⟩ :=
      State.endFetch_raise_effects hr hset tag.val (.hostTimeout tag.val true (some f.card) f.sent)
    generalize (s.endFetch tag.val f).raise .hostTimeout _ = u at hexec hframe hfree hentries hsets hgone hways hraised
    have hlinks : u.links = s.links := by rw [hframe]
    have hmode : u.dirMode = s.dirMode := by rw [hframe]
    refine ⟨u, hexec, hother, hframe, hfree, hentries, hsets, hgone, hways, hraised, fun hw => ?_, fun l slot e hw he hb hkind => ?_⟩
    · rw [hexec, hw, State.serveWaiters_nil, State.settle_of_not_flushing (hmode ▸ hm)]
    · have hsettle := State.settle_of_not_flushing (((decline_only u l e .unavailable none).dirMode.trans hmode) ▸ hm)
      rw [hw, State.serveWaiters_single hlinks he, serveTimedOut_unbound hb hkind, hsettle] at hexec
      obtain rfl := State.entry_slot he
      exact ⟨_, hexec, decline_unbound_eq hb _ _, decline_links hlinks _ _⟩
  · have hexec : exec (.referralTimeout tag) s = .next (referralTimedOut tag.val r s) := by
      obtain ⟨gen, oldGens, timer, kind⟩ := x
      obtain rfl : kind = .referral r := hk
      have hrow : execReferralTimeout tag s = .next (referralTimedOut tag.val r s) := by unfold execReferralTimeout; rw [hx]
      exact hrow
    refine ⟨_, hexec, ?_⟩
    obtain ⟨links, tills, hframe⟩ := referralTimedOut_frame s tag.val r
    obtain ⟨hfree, hentries⟩ := s.setRequest_none tag.val
    refine ⟨by rw [hframe]; rfl, by rw [hframe]; exact hfree, by rw [hframe]; exact hentries,
      by rw [hframe]; exact pending_raised _ .hostTimeout, fun ha => ?_, fun e ha he => ?_⟩
    · rw [referralTimedOut_abandoned ha]; exact ⟨rfl, rfl⟩
    · rw [referralTimedOut_waiting ha he]
      exact ⟨(decline_tills _ _).trans (State.clearMark_tills_congr (u := s.referralEnded tag.val r) (s := s) rfl e), decline_links rfl _ _⟩

end Sys2Proof.Machine
end

section
/-! REFERRAL-ANSWER: the host's decision of a referral is read, relayed, and its carried record installed (R16, R64, R79, R116, R118). -/

namespace Sys2Proof.Machine

/-! ### The codes of a reply (R116, R191) -/

theorem decisionOf_none_iff (b : Byte) : decisionOf b = none ↔ 2 < b.toNat := by
  unfold decisionOf
  split
  · next h => subst h; decide
  split
  · next h => subst h; decide
  split
  · next h => subst h; decide
  · next h0 h1 h2 => refine ⟨fun _ => ?_, fun _ => rfl⟩; bv_omega

theorem decisionOf_declined_iff (b : Byte) : decisionOf b = some .declined ↔ b = 2#8 := by
  unfold decisionOf
  split
  · next h => subst h; decide
  split
  · next h => subst h; decide
  split
  · next h => exact ⟨fun _ => h, fun _ => rfl⟩
  · next h => exact ⟨nofun, fun e => absurd e h⟩

/-- R191: the codes of the decline reasons are 1 to 20. -/
theorem reasonOf_none_iff (b : Byte) : reasonOf b = none ↔ b = 0#8 ∨ 20 < b.toNat := by
  have hzero : b = 0#8 ↔ b.toNat = 0 := BitVec.toNat_inj.symm
  unfold reasonOf
  rw [hzero, List.find?_eq_none]
  simp only [decide_eq_true_eq]
  simp only [Reason.all, List.forall_mem_cons, Reason.code, List.not_mem_nil, false_implies, implies_true, and_true]
  omega

/-! ### Reading the reply (R116) -/

/-- R116: the replies that are refused. -/
def refusedReply (y : ReplyWire) : Prop :=
  2 < y.outcome.toNat ∨ y.outcome = 2#8 ∧ (y.reason = 0#8 ∨ 20 < y.reason.toNat) ∨
  9999999 < y.approved.toNat ∨ 9999999 < y.bonus.toNat ∨ 9999999 < y.core.toNat

/-- R116: the reply that the request of `m` is relayed. -/
def relayedReply (m : TillMsg) (y : ReplyWire) (d : Decision) : TillReply :=
  { lane := m.lane, kind := kindByte m.kind, outcome := d, reason := if d = .declined then reasonOf y.reason else none
    training := false, standIn := false, hostDecided := true, free := if y.flags.getLsbD 3 then some y.free.toNat else none
    approved := y.approved.toNat, bonus := y.bonus.toNat, core := y.core.toNat, ref := replyRef m, report := ShiftReport.zero }

theorem readReply_of_bad {y : ReplyWire} (h : refusedReply y) (m : TillMsg) : readReply m y = none := by
  unfold readReply
  cases hd : decisionOf y.outcome with
  | none => rfl
  | some d =>
    dsimp only
    rcases h with h | ⟨hdecl, hreason⟩ | hamount
    · cases hd.symm.trans ((decisionOf_none_iff _).2 h)
    · obtain rfl := Option.some.inj (hd.symm.trans ((decisionOf_declined_iff _).2 hdecl))
      rw [if_pos (show Decision.declined = .declined ∧ reasonOf y.reason = none from ⟨rfl, (reasonOf_none_iff _).2 hreason⟩), ite_self]
    · exact if_pos hamount

theorem readReply_of_good {y : ReplyWire} (h : ¬ refusedReply y) (m : TillMsg) :
    ∃ d, decisionOf y.outcome = some d ∧ readReply m y = some (relayedReply m y d) := by
  unfold refusedReply at h
  rw [not_or, not_or] at h
  obtain ⟨houtcome, hreason, hamount⟩ := h
  unfold readReply
  cases hd : decisionOf y.outcome with
  | none => exact absurd ((decisionOf_none_iff _).1 hd) houtcome
  | some d =>
    refine ⟨d, rfl, ?_⟩
    refine (if_neg hamount).trans (if_neg ?_)
    rintro ⟨rfl, hr⟩
    exact hreason ⟨(decisionOf_declined_iff _).1 hd, (reasonOf_none_iff _).1 hr⟩

theorem readReply_eq {m : TillMsg} {y : ReplyWire} {reply : TillReply} (h : readReply m y = some reply) :
    ∃ d, reply = relayedReply m y d := by
  have hgood : ¬ refusedReply y := fun hbad => by cases h.symm.trans (readReply_of_bad hbad m)
  obtain ⟨d, -, hd⟩ := readReply_of_good hgood m
  exact ⟨d, Option.some.inj (h.symm.trans hd)⟩

/-! ### The relay (R64, R79, R116) -/

section
variable {r : Referral} {reply : TillReply} {tag gen : Nat} {e : ReplyEntry} {s : State}

/-- R64, R79, R116: the relay changes the links and the tills alone. -/
theorem State.relay_eq (he : s.entry r.link r.slot = some e) : s.relay r reply tag gen =
    { s with
      links := (s.relay r reply tag gen).links
      tills := if reply.outcome = .declined then (s.clearMark e).tills else s.tills } := by
  unfold State.relay; rw [he]; dsimp only
  split
  · unfold State.clearMark; split <;> rfl
  · rfl

theorem State.relay_links (he : s.entry r.link r.slot = some e) : s.otherLinks (s.relay r reply tag gen) r.link ∧
    (s.relay r reply tag gen).link r.link = { s.link r.link with replies := (s.link r.link).replies.map (fun z =>
      if z.slot = r.slot then { z with state := .ready reply none (some (tag, gen)) } else z) } := by
  have hlink : ∀ k, (if reply.outcome = .declined then s.clearMark e else s).link k = s.link k := fun k => by
    split
    · unfold State.link; rw [(s.clearMark_only e).links]
    · rfl
  unfold State.relay; rw [he]; dsimp only
  refine ⟨fun k hk => ?_, ?_⟩
  · rw [State.finish_link, if_neg hk, hlink]
  · rw [State.finish_link, if_pos rfl, hlink]

/-- R64, R79, R116: the part once the entry of a taken answer has left the table and its reply stands in the request's slot. -/
theorem State.relay_effects (tag : Nat) (he : s.entry r.link r.slot = some e) :
    let v := (s.setRequest tag none).relay r reply tag gen
    v = { s with
      requests := v.requests, links := v.links
      tills := if reply.outcome = .declined then (s.clearMark e).tills else s.tills } ∧
    v.request tag = none ∧ (∀ k, k ≠ tag → v.request k = s.request k) ∧ s.otherLinks v r.link ∧
    v.link r.link = { s.link r.link with replies := (s.link r.link).replies.map (fun z =>
      if z.slot = r.slot then { z with state := .ready reply none (some (tag, gen)) } else z) } := by
  have hentry : (s.setRequest tag none).entry r.link r.slot = some e := he
  have hframe := State.relay_eq (reply := reply) (tag := tag) (gen := gen) hentry
  have hlinks := State.relay_links (reply := reply) (tag := tag) (gen := gen) hentry
  obtain ⟨hfree, hentries⟩ := s.setRequest_none tag
  rw [State.clearMark_tills_congr (u := s.setRequest tag none) (s := s) rfl e] at hframe
  generalize (s.setRequest tag none).relay r reply tag gen = v at hframe hlinks
  have hrequests : v.requests = (s.setRequest tag none).requests := by rw [hframe]
  have hrequest : ∀ k, v.request k = (s.setRequest tag none).request k := fun k => by unfold State.request; rw [hrequests]
  exact ⟨by rw [hframe]; rfl, (hrequest tag).trans hfree, fun k hk => (hrequest k).trans (hentries k hk), hlinks⟩

end

/-! ### The carried record (R16, R116) -/

theorem warmable_iff {m : TillMsg} {b : Binding} {d : CardData} : warmable m b d = true ↔
    (m.kind = .enquiry ∨ m.kind = .redeem ∨ m.kind = .hold ∨ m.kind = .reload ∨ m.kind = .reverse) ∧
    requestCard m b = some d.card := by
  unfold warmable
  cases m.kind <;> simp

section
variable {s : State} {m : TillMsg} {b : Binding} {carried : Option CardWire}

/-- R16: the card's own VALID way, or the victim way of a card in no way. No other way holds the card. -/
theorem State.warmingWay_some {card no : Nat} (hset : (s.dirSet (setOf card)).inOrder (setOf card))
    (h : s.findWay card = none ∧ s.victim card = some no ∨ ∃ old stay, s.findWay card = some ⟨no, .valid old stay⟩) :
    s.warmingWay card = some no ∧ no < 4 ∧ ∀ w, s.findWay card = some w → w.no = no := by
  unfold State.warmingWay
  rcases h with ⟨hnone, hvictim⟩ | ⟨old, stay, hown⟩
  · rw [hnone]
    exact ⟨hvictim, State.victim_lt hset hvictim, nofun⟩
  · refine ⟨by rw [hown]; rfl, State.findWay_no hset hown, fun w hw => ?_⟩
    cases hown.symm.trans hw; rfl

theorem State.warmingWay_none {card : Nat}
    (h : s.findWay card = none ∧ s.victim card = none ∨ ∃ no c, s.findWay card = some ⟨no, .reserved c⟩) : s.warmingWay card = none := by
  unfold State.warmingWay
  rcases h with ⟨hnone, hvictim⟩ | ⟨no, c, hf⟩
  · rw [hnone]; exact hvictim
  · rw [hf]; rfl

theorem State.warmRecord_installs {d : CardData} {no : Nat} (hn : s.names d.card = false) (hgood : s.installable d = true)
    (hway : s.warmingWay d.card = some no) : s.warmRecord d = s.install no d := by
  unfold State.warmRecord; rw [hn, hgood, hway]; rfl

theorem State.warmRecord_idle {d : CardData}
    (h : s.names d.card = true ∨ s.installable d = false ∨ s.warmingWay d.card = none) : s.warmRecord d = s := by
  unfold State.warmRecord
  rcases h with h | h | h
  · rw [h]; rfl
  · rw [h, Bool.not_false, Bool.or_true]; rfl
  · rw [h]; exact ite_self _

/-- R16, R116: the record is installed in WARMING. -/
theorem State.warm_installs {w : CardWire} {d : CardData} {no : Nat} (hm : s.dirMode = .warming) (hc : carried = some w)
    (hd : readCard w = some d) (hnamed : warmable m b d = true) (hn : s.names d.card = false) (hgood : s.installable d = true)
    (hway : s.warmingWay d.card = some no) : s.warm m b carried = s.install no d := by
  subst hc
  unfold State.warm; rw [hm, Option.bind_some, hd]; dsimp only
  rw [if_pos hnamed, State.warmRecord_installs hn hgood hway]

/-- R16, R116, R192: what leaves the directory as it is. -/
theorem State.warm_idle (h : s.dirMode ≠ .warming ∨ ∀ w d, carried = some w → readCard w = some d →
      ¬ warmable m b d = true ∨ s.names d.card = true ∨ s.installable d = false ∨ s.warmingWay d.card = none) :
    s.warm m b carried = s := by
  unfold State.warm; split
  · next d hm hd =>
    obtain ⟨w, hw, hread⟩ := Option.bind_eq_some_iff.1 hd
    split
    · next hnamed =>
      have hidle := (h.resolve_left (fun hne => hne hm)) w d hw hread
      exact State.warmRecord_idle (hidle.resolve_left (fun hne => hne hnamed))
    · rfl
  · rfl

end

/-! ### The answer -/

section
variable {tag gen : Nat} {r : Referral} {y : ReferralFields} {s : State}

theorem takeReferralAnswer_refuses (h : readReply r.msg y.reply = none) :
    takeReferralAnswer tag gen (.referral r) y s = s.queue (.answerRefused Kind.referralAnswer (some (tag, gen))) := by
  unfold takeReferralAnswer; dsimp only; rw [h]; rfl

theorem takeReferralAnswer_abandoned {reply : TillReply} (h : readReply r.msg y.reply = some reply) (ha : r.abandoned = true) :
    takeReferralAnswer tag gen (.referral r) y s = (s.setRequest tag none).queue (.undelivered tag gen reply) := by
  unfold takeReferralAnswer; dsimp only; rw [h]; exact if_pos ha

theorem takeReferralAnswer_relays {reply : TillReply} (h : readReply r.msg y.reply = some reply) (ha : r.abandoned = false) :
    takeReferralAnswer tag gen (.referral r) y s = ((s.setRequest tag none).relay r reply tag gen).warm r.msg r.bound y.record := by
  unfold takeReferralAnswer; dsimp only; rw [h]; dsimp only; rw [ha]; rfl

end

/-- Settles O25: the reply is read, then relayed, then the carried record considered on the part that the relay leaves. -/
theorem referralAnswersAreRelayed : Obligations.ReferralAnswersAreRelayed := by
  intro tag gen y x r s hx hgen hk bad named
  have hexec : exec (.referralAnswer (.body tag gen y)) s =
      .next (takeReferralAnswer tag.toNat gen.toNat (.referral r) y s).settle := by
    rw [← hk]
    exact congrArg Host.Outcome.next (hostAnswer_taken hx hgen (fun f hf => by cases hk.symm.trans hf))
  refine ⟨fun hbad => ?_, fun hgood => ?_, fun reply hreply => ⟨?_, fun ha => ?_, fun e ha he => ?_⟩⟩
  · rw [hexec, takeReferralAnswer_refuses (readReply_of_bad hbad r.msg)]
  · obtain ⟨d, -, hd⟩ := readReply_of_good hgood r.msg
    rw [hd]; rfl
  · obtain ⟨d, rfl⟩ := readReply_eq hreply
    exact ⟨rfl, rfl, rfl, rfl, rfl, rfl, rfl, rfl, rfl⟩
  · rw [takeReferralAnswer_abandoned hreply ha] at hexec
    obtain ⟨hfree, hentries⟩ := s.setRequest_none tag.toNat
    exact ⟨_, _, hexec, rfl, rfl, hfree, hentries⟩
  · intro relayed
    rw [takeReferralAnswer_relays hreply ha] at hexec
    obtain ⟨hframe, hrelayed⟩ := State.relay_effects (reply := reply) (gen := gen.toNat) tag.toNat he
    generalize (s.setRequest tag.toNat none).relay r reply tag.toNat gen.toNat = v at hexec hframe hrelayed
    have hmode : v.dirMode = s.dirMode := by rw [hframe]
    have hdir : v.dir = s.dir := by rw [hframe]
    have hnames : ∀ c, v.names c = s.names c := fun c => by rw [hframe]; rfl
    have hinstallable : ∀ d, v.installable d = s.installable d := fun d => by rw [hframe]; rfl
    have hwarming : ∀ c, v.warmingWay c = s.warmingWay c := fun c => by rw [hframe]; rfl
    have hfind := State.findWay_congr hdir
    refine ⟨fun hidle => ?_, fun w d no hm hc hd hnamed hn hgood hway hset => ?_⟩
    · have hsame : v.warm r.msg r.bound y.record = v := State.warm_idle (by
        rw [hmode]
        refine hidle.imp_right fun h w d hc hd => ?_
        rw [hnames, hinstallable, hwarming, warmable_iff]
        rcases h w d hc hd with h | h | h | h
        · exact .inl h
        · exact .inr (.inl h)
        · exact .inr (.inr (.inl h))
        · exact .inr (.inr (.inr (State.warmingWay_none h))))
      rw [hsame] at hexec
      exact ⟨v, _, hexec, rfl, hframe, hrelayed⟩
    · obtain ⟨hin, hno, hown⟩ := State.warmingWay_some hset hway
      rw [← hwarming] at hin
      rw [← hfind] at hown
      have hsetv : (v.dirSet (setOf d.card)).inOrder (setOf d.card) := by rw [State.dirSet_congr hdir]; exact hset
      have hstay : v.nextStay = s.nextStay := by rw [hframe]
      have hsettle : (v.install no d).settle = v.install no d :=
        State.settle_of_not_flushing (s := v.install no d) (by rw [show (v.install no d).dirMode = .warming from hmode.trans hm]; rfl)
      rw [State.warm_installs (hmode.trans hm) hc hd (warmable_iff.2 hnamed) ((hnames _).trans hn) ((hinstallable _).trans hgood) hin,
        hsettle] at hexec
      refine ⟨_, hexec, ?_, hrelayed, ?_, State.mostRecent_install hsetv hno, fun k hk => ?_, fun c u hne hu huno => ?_⟩
      · rw [hframe]; rfl
      · rw [← hstay]; exact State.recordOf_installOwn hsetv hno hown
      · exact (v.setDirSet_others _ _ k hk).trans (State.dirSet_congr hdir k)
      · exact State.findWay_installOwn_other hsetv hno hown hne ((hfind c).trans hu) huno

end Sys2Proof.Machine
end

section
/-! The places where requests wait on the host (R101, R110, R118): what a change of the Host Request Table does to them. -/

namespace Sys2Proof.Table
variable {α : Type}

theorem dropKey_eq_filter (i : Nat) : ∀ l : List (Nat × α), dropKey i l = l.filter (fun c => decide (c.1 ≠ i))
  | [] => rfl
  | (k, v) :: t => by
    have ih := dropKey_eq_filter i t
    unfold dropKey; split
    · next h => simp [ih, h.symm]
    · next h => simp [ih, Ne.symm h]

theorem insertKey_perm (i : Nat) (v : α) : ∀ l : List (Nat × α), (insertKey i v l).Perm ((i, v) :: l)
  | [] => List.Perm.refl _
  | (k, w) :: t => by
    unfold insertKey; split
    · exact List.Perm.refl _
    · exact ((insertKey_perm i v t).cons (k, w)).trans (List.Perm.swap _ _ _)

theorem set_self [DecidableEq α] (d : α) {t : Table α} (h : t.wf d = true) (i : Nat) : t.set d i (t.get d i) = t :=
  ext_of_get d (wf_set d i _ h) h fun j => by
    rw [get_set]; split
    · next hj => rw [hj]
    · rfl

end Sys2Proof.Table

namespace Sys2Proof.Machine
open Piece

/-- The requests that wait on one entry. -/
def waitersOf (x : Option HostEntry) : List Waiter := (x.map HostEntry.waiting).getD []

/-- The requests that wait elsewhere than on the entry of a tag. -/
def State.waitingBut (s : State) (tag : Nat) : List Waiter :=
  (s.requests.cells.filter (fun c => decide (c.1 ≠ tag))).flatMap (fun c => waitersOf c.2)

theorem State.waiting_congr {s t : State} (h : t.requests = s.requests) : t.waiting = s.waiting := by unfold State.waiting; rw [h]

theorem State.waiting_setRequest (s : State) (tag : Nat) (x : Option HostEntry) :
    (s.setRequest tag x).waiting.Perm (waitersOf x ++ s.waitingBut tag) := by
  show (List.flatMap _ (Table.set none s.requests tag x).cells).Perm _
  unfold Table.set State.waitingBut
  rw [Table.dropKey_eq_filter]
  cases x with
  | none => exact List.Perm.refl _
  | some x => exact (Table.insertKey_perm tag (some x) _).flatMap_right _

theorem State.setRequest_self {s : State} (hwf : s.requests.wf none = true) (tag : Nat) : s.setRequest tag (s.request tag) = s := by
  unfold State.setRequest State.request
  rw [Table.set_self none hwf]

theorem State.waiting_split {s : State} (hwf : s.requests.wf none = true) (tag : Nat) :
    s.waiting.Perm (waitersOf (s.request tag) ++ s.waitingBut tag) := by
  have := s.waiting_setRequest tag (s.request tag)
  rwa [State.setRequest_self hwf] at this

/-- An entry takes another's place, and the requests that wait on it are as many or fewer. -/
theorem State.waiting_setRequest_subperm {s : State} (hwf : s.requests.wf none = true) {tag : Nat} {x : Option HostEntry}
    (h : (waitersOf x).Sublist (waitersOf (s.request tag))) : (s.setRequest tag x).waiting.Subperm s.waiting :=
  ((s.waiting_setRequest tag x).subperm.trans (h.append_right _).subperm).trans (State.waiting_split hwf tag).symm.subperm

theorem State.mem_waiting {s : State} (hwf : s.requests.wf none = true) {w : Waiter} :
    w ∈ s.waiting ↔ ∃ tag x, s.request tag = some x ∧ w ∈ x.waiting := by
  constructor
  · intro h
    obtain ⟨c, hc, hw⟩ := List.mem_flatMap.1 h
    obtain ⟨hget, hne⟩ := (Table.mem_cells_iff none hwf c.1 c.2).1 hc
    cases hx : c.2 with
    | none => exact absurd hx hne
    | some x => exact ⟨c.1, x, hget.trans hx, by simpa [hx] using hw⟩
  · rintro ⟨tag, x, hx, hw⟩
    exact (State.waiting_split hwf tag).mem_iff.2 (List.mem_append_left _ (by rw [hx]; exact hw))

/-- R110, R118: a request that is abandoned waits on an entry no more, and the others as before. -/
theorem abandonIn_waiting (l slot : Nat) (x : HostEntry) :
    (abandonIn l slot x).waiting.Sublist x.waiting ∧ ⟨l, slot⟩ ∉ (abandonIn l slot x).waiting := by
  obtain ⟨gen, old, timer, kind⟩ := x
  cases kind with
  | fetch f => exact ⟨List.filter_sublist, by simp [abandonIn, HostEntry.waiting]⟩
  | referral r =>
    unfold abandonIn; dsimp only; split
    · exact ⟨List.nil_sublist _, List.not_mem_nil⟩
    · next hr =>
      refine ⟨List.Sublist.refl _, fun hw => ?_⟩
      unfold HostEntry.waiting at hw; dsimp only at hw; split at hw
      · cases hw
      · obtain ⟨rfl, rfl⟩ := Waiter.mk.inj (List.mem_singleton.1 hw)
        exact hr ⟨rfl, rfl⟩

/-- R110, R118: the entry of a tag without the request of a reply slot. -/
def State.abandonAt (l slot : Nat) (s : State) (tag : Nat) : State :=
  match s.request tag with
  | some x => s.setRequest tag (some (abandonIn l slot x))
  | none => s

theorem State.abandon_eq (s : State) (l slot : Nat) : s.abandon l slot = s.requests.keys.foldl (State.abandonAt l slot) s := rfl

section
variable {s : State} {l slot : Nat}

theorem State.abandonAt_request (tag k : Nat) : (State.abandonAt l slot s tag).request k =
    if k = tag then (s.request tag).map (abandonIn l slot) else s.request k := by
  unfold State.abandonAt; split
  · next x hx => rw [State.setRequest_request, hx]; rfl
  · next hx =>
    split
    · next h => rw [h, hx]; rfl
    · rfl

theorem State.abandonAt_waiting (hwf : s.requests.wf none = true) (tag : Nat) :
    (State.abandonAt l slot s tag).requests.wf none = true ∧ (State.abandonAt l slot s tag).waiting.Subperm s.waiting := by
  unfold State.abandonAt; split
  · next x hx =>
    refine ⟨Table.wf_set _ _ _ hwf, State.waiting_setRequest_subperm hwf ?_⟩
    rw [hx]
    exact (abandonIn_waiting l slot x).1
  · exact ⟨hwf, List.Subperm.refl _⟩

theorem State.abandoned_waiting : ∀ (tags : List Nat) (s : State), s.requests.wf none = true →
    (tags.foldl (State.abandonAt l slot) s).requests.wf none = true ∧
    (tags.foldl (State.abandonAt l slot) s).waiting.Subperm s.waiting
  | [], _, hwf => ⟨hwf, List.Subperm.refl _⟩
  | tag :: tags, s, hwf =>
    have ⟨hwf1, h1⟩ := State.abandonAt_waiting (s := s) hwf tag
    have ⟨hwf2, h2⟩ := abandoned_waiting tags (State.abandonAt l slot s tag) hwf1
    ⟨hwf2, h2.trans h1⟩

/-- The request stays on the entries of tags that are not met alone. -/
theorem State.abandoned_request : ∀ (tags : List Nat) (s : State) (k : Nat) (x : HostEntry),
    (tags.foldl (State.abandonAt l slot) s).request k = some x → ⟨l, slot⟩ ∈ x.waiting → k ∉ tags ∧ s.request k = some x
  | [], _, _, _, hx, _ => ⟨List.not_mem_nil, hx⟩
  | tag :: tags, s, k, x, hx, hw => by
    obtain ⟨hk, hx⟩ := abandoned_request tags _ k x hx hw
    rw [State.abandonAt_request] at hx
    split at hx
    · obtain ⟨y, -, rfl⟩ := Option.map_eq_some_iff.1 hx
      exact absurd hw (abandonIn_waiting l slot y).2
    · next hne => exact ⟨fun hm => (List.mem_cons.1 hm).elim hne hk, hx⟩

theorem State.abandon_waiting (hwf : s.requests.wf none = true) :
    (s.abandon l slot).requests.wf none = true ∧ (s.abandon l slot).waiting.Subperm s.waiting ∧
    ⟨l, slot⟩ ∉ (s.abandon l slot).waiting := by
  rw [State.abandon_eq]
  obtain ⟨hwf1, hsub⟩ := State.abandoned_waiting (l := l) (slot := slot) s.requests.keys s hwf
  refine ⟨hwf1, hsub, fun hw => ?_⟩
  obtain ⟨k, x, hx, hw⟩ := (State.mem_waiting hwf1).1 hw
  obtain ⟨hk, hx⟩ := State.abandoned_request _ s k x hx hw
  exact hk ((Table.mem_keys_iff none hwf k).2 fun h => by rw [State.request, h] at hx; cases hx)

end

/-- R176: the timers of the entries run, and nothing that waits on them changes. -/
theorem State.waiting_countDown (s : State) (n : Nat) : (s.countDown n).waiting = s.waiting := by
  have hrun : ∀ x : Option HostEntry, waitersOf (x.map (HostEntry.countDown n)) = waitersOf x := fun x => by cases x <;> rfl
  have hfilter : ∀ cells : List (Nat × Option HostEntry),
      (((cells.map fun c => (c.1, c.2.map (HostEntry.countDown n))).filter fun c => decide (c.2 ≠ none)).flatMap fun c => waitersOf c.2) =
        cells.flatMap fun c => waitersOf c.2 := by
    intro cells
    induction cells with
    | nil => rfl
    | cons c cells ih =>
      obtain ⟨k, x⟩ := c
      rw [List.map_cons, List.filter_cons, List.flatMap_cons, ← hrun x, ← ih]
      cases x <;> rfl
  exact hfilter s.requests.cells

end Sys2Proof.Machine
end

section
/-! The books of the journal (R123, R126, R132, R163): the reserved slots against the undo records that hold them, and the requests that
wait on the host against their RESERVED entries, while an effect stands half made. -/

namespace Sys2Proof.Machine
open Piece

/-! ### What the books read of a reply queue -/

/-- What the books read of a reply queue entry. -/
structure Stand where
  slot : Nat
  reserved : Bool
  undo : Option UndoRecord
deriving DecidableEq

def ReplyEntry.stand (e : ReplyEntry) : Stand := ⟨e.slot, isReserved e, e.undo?⟩

def State.stands (s : State) (l : Nat) : List Stand := (s.link l).replies.map ReplyEntry.stand

theorem isReserved_iff {e : ReplyEntry} : isReserved e = true ↔ e.state = .reserved := by
  unfold isReserved; split <;> simp_all

theorem ReplyEntry.undo_of_reserved {e : ReplyEntry} (h : e.state = .reserved) : e.undo? = none := by unfold ReplyEntry.undo?; rw [h]

theorem State.mem_stands {s : State} {l : Nat} {v : Stand} : v ∈ s.stands l ↔ ∃ e ∈ (s.link l).replies, e.stand = v := List.mem_map

theorem State.stands_congr {s t : State} (h : t.links = s.links) (l : Nat) : t.stands l = s.stands l := by
  unfold State.stands State.link; rw [h]

/-- R86, R127: an undo record other than a HOLD's has a record of the journal. -/
def UndoRecord.inOrder (u : UndoRecord) : Prop := u.sequence = none ↔ ∃ id, u.effect = .hold id

/-- R132: the slots that an undo record holds. -/
def slotsOf (u : Option UndoRecord) : Nat := if (u.bind (fun x => x.sequence)).isSome then 1 else 0

@[simp] theorem slotsOf_none : slotsOf none = 0 := rfl

def Stand.slots (v : Stand) : Nat := slotsOf v.undo

/-- The slots that the undo records of a link hold. -/
def State.slotsAt (s : State) (l : Nat) : Nat := ((s.stands l).map Stand.slots).sum

/-- The slots that the undo records of every link hold. -/
def State.slotsHeld (s : State) : Nat := ∑ l ∈ Finset.range Config.links, s.slotsAt l

theorem mem_linkNumbers {l : Nat} : l ∈ linkNumbers ↔ l < Config.links := List.mem_range

theorem State.slotsAt_eq (s : State) (l : Nat) :
    s.slotsAt l = (((s.link l).replies.filterMap ReplyEntry.undo?).filter (fun u => u.sequence.isSome)).length := by
  unfold State.slotsAt State.stands
  induction (s.link l).replies with
  | nil => rfl
  | cons e es ih =>
    rw [List.map_cons, List.map_cons, List.sum_cons, ih, List.filterMap_cons]
    unfold Stand.slots ReplyEntry.stand slotsOf
    cases e.undo? with
    | none => simp
    | some u => cases hq : u.sequence <;> simp [hq, Nat.add_comm]

theorem State.slotsHeld_eq (s : State) : s.slotsHeld = (s.undoRecords.filter (fun u => u.sequence.isSome)).length := by
  have hsum : s.slotsHeld = (linkNumbers.map s.slotsAt).sum := rfl
  unfold State.undoRecords
  rw [hsum, List.filter_flatMap, List.length_flatMap]
  exact congrArg List.sum (List.map_congr_left fun l _ => s.slotsAt_eq l)

theorem State.mem_undoRecords {s : State} {u : UndoRecord} :
    u ∈ s.undoRecords ↔ ∃ l, l < Config.links ∧ ∃ v ∈ s.stands l, v.undo = some u := by
  unfold State.undoRecords
  simp only [List.mem_flatMap, List.mem_filterMap, mem_linkNumbers, State.mem_stands]
  constructor
  · rintro ⟨l, hl, e, he, hu⟩
    exact ⟨l, hl, e.stand, ⟨e, he, rfl⟩, hu⟩
  · rintro ⟨l, hl, v, ⟨e, he, rfl⟩, hu⟩
    exact ⟨l, hl, e, he, hu⟩

/-! ### The books -/

/-- The books of the part. `owed` is by how many the reserved slots pass those that undo records hold, and `busy` are the requests that
are being dealt with, each with a RESERVED entry and waiting nowhere. Both are there within an effect alone. -/
structure Books (owed : Int) (busy : List Waiter) (s : State) : Prop where
  requests : s.requests.wf none = true
  links : s.links.wf Link.default = true
  numbers : ∀ l, ((s.stands l).map (fun v => v.slot)).Nodup
  given : ∀ l, ∀ v ∈ s.stands l, v.slot < s.nextSlot
  apart : (busy ++ s.waiting).Nodup
  reserved : ∀ w ∈ busy ++ s.waiting, w.link < Config.links ∧ ∃ v ∈ s.stands w.link, v.slot = w.slot ∧ v.reserved = true
  undos : ∀ l < Config.links, ∀ v ∈ s.stands l, ∀ u ∈ v.undo, u.inOrder
  held : (s.journal.reserved : Int) = s.slotsHeld + owed
  room : s.journal.records.length + s.journal.reserved ≤ Config.journalRecords

theorem books_of_invariants {s : State} (hc : TablesCanonical s) (hl : LinksInOrder s) (hw : WaitersInOrder s) (hs : SlotsInOrder s)
    (hj : JournalWithinBounds s) : Books 0 [] s where
  requests := (tablesCanonical_iff s).1 hc .requests
  links := (tablesCanonical_iff s).1 hc .links
  numbers l := by simpa [State.stands, ReplyEntry.stand, Function.comp_def] using (hl l).2.1
  given l v hv := by
    obtain ⟨e, he, rfl⟩ := State.mem_stands.1 hv
    exact (hl l).2.2 e he
  apart := hw.1
  reserved w hm := by
    obtain ⟨hlink, e, he, hr⟩ := hw.2 w hm
    exact ⟨hlink, e.stand, State.mem_stands.2 ⟨e, List.mem_of_find?_eq_some he, rfl⟩, State.entry_slot he, isReserved_iff.2 hr⟩
  undos l hl v hv u hu := hs.2 u (State.mem_undoRecords.2 ⟨l, hl, v, hv, hu⟩)
  held := by rw [State.slotsHeld_eq, hs.1]; simp
  room := hj

section
variable {s t : State} {owed : Int} {busy : List Waiter} {l : Nat}

/-- The entry of a slot, once the slots of a reply queue are apart. -/
theorem Books.entry_of_mem (b : Books owed busy s) {e : ReplyEntry} (he : e ∈ (s.link l).replies) : s.entry l e.slot = some e := by
  have hnd : ((s.link l).replies.map (fun e => e.slot)).Nodup := by
    simpa [State.stands, ReplyEntry.stand, Function.comp_def] using b.numbers l
  unfold State.entry
  cases hf : (s.link l).replies.find? (fun x => decide (x.slot = e.slot)) with
  | none => exact absurd (List.find?_eq_none.1 hf e he) (by simp)
  | some x =>
    have hx := List.find?_some hf
    exact congrArg some (List.inj_on_of_nodup_map hnd (List.mem_of_find?_eq_some hf) he (by simpa using hx))

theorem Books.waiters (b : Books owed [] s) : WaitersInOrder s :=
  ⟨b.apart, fun w hw => by
    obtain ⟨hl, v, hv, hslot, hr⟩ := b.reserved w hw
    obtain ⟨e, he, rfl⟩ := State.mem_stands.1 hv
    exact ⟨hl, e, hslot ▸ b.entry_of_mem he, isReserved_iff.1 hr⟩⟩

theorem Books.slots (b : Books 0 busy s) : SlotsInOrder s :=
  ⟨by have := b.held; rw [← State.slotsHeld_eq]; omega, fun u hu => by
    obtain ⟨l, hl, v, hv, huv⟩ := State.mem_undoRecords.1 hu
    exact b.undos l hl v hv u huv⟩

theorem Books.bounds (b : Books owed busy s) : JournalWithinBounds s := b.room

/-! ### Changes that the books do not read, and changes of one entry -/

theorem State.slotsHeld_congr (h : ∀ l, t.stands l = s.stands l) : t.slotsHeld = s.slotsHeld :=
  Finset.sum_congr rfl fun l _ => by unfold State.slotsAt; rw [h l]

theorem nodup_of_subperm {α : Type} {xs ys : List α} (h : xs.Subperm ys) (hnd : ys.Nodup) : xs.Nodup :=
  let ⟨_, hperm, hsub⟩ := h
  hperm.nodup_iff.1 (hnd.sublist hsub)

/-- A change that leaves every entry as the books read it. -/
theorem Books.of_stands {owed' : Int} {busy' : List Waiter} (b : Books owed busy s) (hreq : t.requests.wf none = true)
    (hlinks : t.links.wf Link.default = true) (hst : ∀ l, t.stands l = s.stands l) (hnext : s.nextSlot ≤ t.nextSlot)
    (hw : (busy' ++ t.waiting).Subperm (busy ++ s.waiting))
    (hheld : (t.journal.reserved : Int) - s.journal.reserved = owed' - owed)
    (hroom : t.journal.records.length + t.journal.reserved ≤ Config.journalRecords) : Books owed' busy' t where
  requests := hreq
  links := hlinks
  numbers l := hst l ▸ b.numbers l
  given l v hv := (b.given l v (hst l ▸ hv)).trans_le hnext
  apart := nodup_of_subperm hw b.apart
  reserved w hm := by rw [hst]; exact b.reserved w (hw.subset hm)
  undos l hl v hv := b.undos l hl v (hst l ▸ hv)
  held := by rw [State.slotsHeld_congr hst]; have := b.held; omega
  room := hroom

/-- The slots held once the entries of one link have changed. -/
theorem State.slotsHeld_change (hl : l < Config.links) (hother : ∀ k, k ≠ l → t.stands k = s.stands k) :
    t.slotsHeld + s.slotsAt l = s.slotsHeld + t.slotsAt l := by
  have hmem : l ∈ Finset.range Config.links := Finset.mem_range.2 hl
  have hrest : ∑ k ∈ (Finset.range Config.links).erase l, t.slotsAt k = ∑ k ∈ (Finset.range Config.links).erase l, s.slotsAt k :=
    Finset.sum_congr rfl fun k hk => by unfold State.slotsAt; rw [hother k (Finset.ne_of_mem_erase hk)]
  unfold State.slotsHeld
  rw [← Finset.add_sum_erase _ s.slotsAt hmem, ← Finset.add_sum_erase _ t.slotsAt hmem, hrest]
  omega

theorem filter_slot_perm {vs : List Stand} (hnd : (vs.map (fun v => v.slot)).Nodup) {v : Stand} (hv : v ∈ vs) :
    vs.Perm (v :: vs.filter (fun x => decide (x.slot ≠ v.slot))) := by
  induction vs with
  | nil => cases hv
  | cons x xs ih =>
    obtain ⟨hfresh, hnd⟩ := List.nodup_cons.1 hnd
    have hapart : ∀ y ∈ xs, y.slot ≠ x.slot := fun y hy h => hfresh (List.mem_map.2 ⟨y, hy, h⟩)
    rcases List.mem_cons.1 hv with rfl | hv
    · rw [List.filter_cons_of_neg (by simp), List.filter_eq_self.2 fun y hy => decide_eq_true (hapart y hy)]
    · have hx : decide (x.slot ≠ v.slot) = true := decide_eq_true (hapart v hv).symm
      rw [List.filter_cons, if_pos hx]
      exact ((ih hnd hv).cons x).trans (List.Perm.swap _ _ _)

/-- The entry of a slot leaves its queue, or another of the slot takes its place; no request that waits or is dealt with has it. -/
theorem Books.replace {busy' : List Waiter} {v : Stand} {o : Option Stand} (b : Books owed busy s) (hreq : t.requests.wf none = true)
    (hlinks : t.links.wf Link.default = true) (hl : l < Config.links) (hv : v ∈ s.stands l)
    (hst : (t.stands l).Perm (o.toList ++ (s.stands l).filter (fun x => decide (x.slot ≠ v.slot))))
    (hother : ∀ k, k ≠ l → t.stands k = s.stands k) (ho : ∀ w ∈ o, w.slot = v.slot ∧ ∀ u ∈ w.undo, u.inOrder)
    (hnext : t.nextSlot = s.nextSlot) (hw : (busy' ++ t.waiting).Subperm (busy ++ s.waiting))
    (hgone : ⟨l, v.slot⟩ ∉ busy' ++ t.waiting) (hj : t.journal = s.journal) :
    Books (owed + v.slots - slotsOf (o.bind (fun w => w.undo))) busy' t := by
  have hperm := filter_slot_perm (b.numbers l) hv
  have hmem : ∀ x, x ∈ t.stands l → x ∈ o ∨ (x ∈ s.stands l ∧ x.slot ≠ v.slot) := fun x hx => by
    rcases List.mem_append.1 (hst.mem_iff.1 hx) with h | h
    · exact .inl (by simpa using h)
    · obtain ⟨hxs, hne⟩ := List.mem_filter.1 h
      exact .inr ⟨hxs, of_decide_eq_true hne⟩
  have hslots : t.slotsAt l + v.slots = s.slotsAt l + slotsOf (o.bind (fun w => w.undo)) := by
    unfold State.slotsAt
    rw [(hst.map _).sum_eq, (hperm.map _).sum_eq]
    cases o with
    | none => simp [Nat.add_comm]
    | some w => simp [Stand.slots]; omega
  refine ⟨hreq, hlinks, fun k => ?_, fun k x hx => ?_, nodup_of_subperm hw b.apart, fun w hm => ?_, fun k hk x hx u hu => ?_, ?_, ?_⟩
  · by_cases hk : k = l
    · subst hk
      rw [(hst.map _).nodup_iff]
      have hrest := (hperm.map (fun x => x.slot)).nodup_iff.1 (b.numbers k)
      cases o with
      | none => exact (List.nodup_cons.1 hrest).2
      | some w =>
        have := (ho w rfl).1
        simpa [this] using hrest
    · rw [hother k hk]; exact b.numbers k
  · rw [hnext]
    by_cases hk : k = l
    · subst hk
      rcases hmem x hx with h | h
      · rw [(ho x h).1]; exact b.given k v hv
      · exact b.given k x h.1
    · exact b.given k x (hother k hk ▸ hx)
  · obtain ⟨hlink, x, hx, hslot, hr⟩ := b.reserved w (hw.subset hm)
    refine ⟨hlink, x, ?_, hslot, hr⟩
    by_cases hk : w.link = l
    · have hne : x.slot ≠ v.slot := fun h => hgone (by
        have hwv : w = ⟨l, v.slot⟩ := by cases w; simp only [Waiter.mk.injEq]; exact ⟨hk, hslot.symm.trans h⟩
        rwa [hwv] at hm)
      rw [hk] at hx ⊢
      exact hst.mem_iff.2 (List.mem_append_right _ (List.mem_filter.2 ⟨hx, decide_eq_true hne⟩))
    · rw [hother _ hk]; exact hx
  · by_cases hkl : k = l
    · subst hkl
      rcases hmem x hx with h | h
      · exact (ho x h).2 u hu
      · exact b.undos k hk x h.1 u hu
    · exact b.undos k hk x (hother k hkl ▸ hx) u hu
  · have hheld := b.held
    have hchange := State.slotsHeld_change hl hother
    rw [hj]
    omega
  · rw [hj]; exact b.room

end

end Sys2Proof.Machine
end

section
/-! What a change does to the order of the Journal Queue and to its books (R123, R126, R127, R132): the operations that the meanings of the
commands and events are written with. -/

namespace Sys2Proof.Machine
open Piece

/-! ### The relations -/

/-- The change keeps the sequences of the queue in order, and takes books with `owed` and `busy` to books with `owed'` and `busy'`. -/
structure Moves (owed : Int) (busy : List Waiter) (owed' : Int) (busy' : List Waiter) (s t : State) : Prop where
  order : JournalInOrder s → JournalInOrder t
  books : Books owed busy s → Books owed' busy' t

/-- The change leaves what is owed and what is being dealt with. -/
def JournalKept (s t : State) : Prop := ∀ owed busy, Moves owed busy owed busy s t

/-- The change deals with the request of a reply slot: its reply is complete, or it waits on the host. -/
def Served (l slot : Nat) (s t : State) : Prop := ∀ busy, Moves 0 (⟨l, slot⟩ :: busy) 0 busy s t

/-- The change keeps the books with nothing owed and no request being dealt with. -/
def Balanced (s t : State) : Prop := Moves 0 [] 0 [] s t

section
variable {s t u : State} {owed owed' owed'' : Int} {busy busy' busy'' : List Waiter} {l slot : Nat}

theorem Moves.refl (s : State) : Moves owed busy owed busy s s := ⟨id, id⟩

theorem Moves.trans (h : Moves owed busy owed' busy' s t) (k : Moves owed' busy' owed'' busy'' t u) :
    Moves owed busy owed'' busy'' s u := ⟨fun o => k.order (h.order o), fun b => k.books (h.books b)⟩

/-- A request of whom nothing is left to do is dealt with. -/
theorem Moves.drop (w : Waiter) (s : State) : Moves owed (w :: busy) owed busy s s :=
  ⟨id, fun b => { b with
    apart := (List.nodup_cons.1 b.apart).2
    reserved := fun x hx => b.reserved x (List.mem_cons_of_mem w hx) }⟩

theorem JournalKept.refl (s : State) : JournalKept s s := fun _ _ => Moves.refl s

theorem JournalKept.trans (h : JournalKept s t) (k : JournalKept t u) : JournalKept s u := fun owed busy => (h owed busy).trans (k owed busy)

theorem JournalKept.foldl {α : Type} {f : State → α → State} (h : ∀ s x, JournalKept s (f s x)) :
    ∀ (xs : List α) (s : State), JournalKept s (xs.foldl f s)
  | [], s => JournalKept.refl s
  | x :: xs, s => (h s x).trans (JournalKept.foldl h xs (f s x))

theorem JournalKept.served (h : JournalKept s t) (k : Served l slot t u) : Served l slot s u := fun busy => (h _ _).trans (k busy)

theorem Served.kept (h : Served l slot s t) (k : JournalKept t u) : Served l slot s u := fun busy => (h busy).trans (k _ _)

theorem JournalKept.balanced (h : JournalKept s t) : Balanced s t := h 0 []

theorem Balanced.refl (s : State) : Balanced s s := Moves.refl s

theorem Balanced.trans (h : Balanced s t) (k : Balanced t u) : Balanced s u := Moves.trans h k

theorem Balanced.foldl {α : Type} {f : State → α → State} (h : ∀ s x, Balanced s (f s x)) :
    ∀ (xs : List α) (s : State), Balanced s (xs.foldl f s)
  | [], s => Balanced.refl s
  | x :: xs, s => (h s x).trans (Balanced.foldl h xs (f s x))

/-! ### Changes beside the journal -/

theorem JournalInOrder.congr (o : JournalInOrder s) (hrec : t.journal.records = s.journal.records)
    (hseq : t.journal.nextSeq = s.journal.nextSeq) : JournalInOrder t := by unfold JournalInOrder; rw [hrec, hseq]; exact o

/-- A change that leaves the entries of the reply queues as the books read them, and no more requests waiting. -/
theorem JournalKept.of_stands (hreq : s.requests.wf none = true → t.requests.wf none = true ∧ t.waiting.Subperm s.waiting)
    (hlinks : s.links.wf Link.default = true → t.links.wf Link.default = true ∧ ∀ l, t.stands l = s.stands l)
    (hnext : t.nextSlot = s.nextSlot)
    (hj : (t.journal.records, t.journal.nextSeq, t.journal.reserved) = (s.journal.records, s.journal.nextSeq, s.journal.reserved)) :
    JournalKept s t := fun owed busy => by
  obtain ⟨hrec, hj⟩ := Prod.mk.inj hj
  obtain ⟨hseq, hres⟩ := Prod.mk.inj hj
  refine ⟨fun o => o.congr hrec hseq, fun b => ?_⟩
  obtain ⟨hwf, hw⟩ := hreq b.requests
  obtain ⟨hlwf, hst⟩ := hlinks b.links
  refine b.of_stands hwf hlwf hst hnext.ge ?_ (by rw [hres]; omega) (by rw [hrec, hres]; exact b.room)
  exact (List.perm_append_comm.subperm.trans ((List.subperm_append_right busy).2 hw)).trans List.perm_append_comm.subperm

/-- The pieces that the books and the order of the queue read. -/
abbrev Piece.ofBooks : List Piece := [.requests, .links, .journal, .nextSlot]

theorem Only.journalKept {may : List Piece} (h : Only may s t) (hm : (Piece.ofBooks.all fun p => !may.contains p) = true) :
    JournalKept s t := by
  have hfree : ∀ p ∈ Piece.ofBooks, p ∉ may := fun p hp => by simpa using List.all_eq_true.1 hm p hp
  have hreq := h.requests (hfree _ (by simp))
  have hlinks := h.links (hfree _ (by simp))
  exact .of_stands (fun hwf => ⟨hreq ▸ hwf, (State.waiting_congr hreq) ▸ List.Subperm.refl _⟩)
    (fun hwf => ⟨hlinks ▸ hwf, State.stands_congr hlinks⟩) (h.nextSlot (hfree _ (by simp))) (by rw [h.journal (hfree _ (by simp))])

/-- A change of the journal that leaves its records and slots. -/
theorem withJournal_kept {j : Journal} (hj : (j.records, j.nextSeq, j.reserved) = (s.journal.records, s.journal.nextSeq, s.journal.reserved)) :
    JournalKept s { s with journal := j } :=
  .of_stands (fun h => ⟨h, List.Subperm.refl _⟩) (fun h => ⟨h, fun _ => rfl⟩) rfl hj

theorem setRequest_kept {tag : Nat} {x : Option HostEntry} (h : (waitersOf x).Sublist (waitersOf (s.request tag))) :
    JournalKept s (s.setRequest tag x) :=
  .of_stands (fun hwf => ⟨Table.wf_set _ _ _ hwf, State.waiting_setRequest_subperm hwf h⟩) (fun hwf => ⟨hwf, fun _ => rfl⟩) rfl rfl

theorem State.setLink_stands (s : State) (l : Nat) (x : Link) (k : Nat) :
    (s.setLink l x).stands k = if k = l then x.replies.map ReplyEntry.stand else s.stands k := by
  unfold State.stands
  rw [State.setLink_link]
  split <;> rfl

theorem setLink_kept {x : Link} (h : x.replies.map ReplyEntry.stand = s.stands l) : JournalKept s (s.setLink l x) :=
  .of_stands (fun hwf => ⟨hwf, List.Subperm.refl _⟩) (fun hwf => ⟨Table.wf_set _ _ _ hwf, fun k => by
    rw [State.setLink_stands]; split
    · next hk => rw [hk, h]
    · rfl⟩) rfl rfl

theorem modEntry_kept {f : ReplyEntry → ReplyEntry} (h : ∀ e, (f e).stand = e.stand) : JournalKept s (s.modEntry l slot f) :=
  setLink_kept (by
    unfold State.stands
    rw [List.map_map]
    refine List.map_congr_left fun e _ => ?_
    simp only [Function.comp_apply]; split
    · exact h e
    · rfl)

theorem mapLinks_kept {f : Link → Link} (hf : f Link.default = Link.default)
    (h : ∀ x, (f x).replies.map ReplyEntry.stand = x.replies.map ReplyEntry.stand) :
    JournalKept s { s with links := s.links.mapEntries Link.default f } :=
  .of_stands (fun hwf => ⟨hwf, List.Subperm.refl _⟩)
    (fun hwf => ⟨Table.wf_mapEntries _ _ hwf, fun l => by
      show ((s.links.mapEntries Link.default f).get Link.default l).replies.map _ = _
      rw [Table.get_mapEntries _ _ hf hwf, h]; rfl⟩) rfl rfl

theorem map_stand_congr {f : ReplyEntry → ReplyEntry} (h : ∀ e, (f e).stand = e.stand) (es : List ReplyEntry) :
    (es.map f).map ReplyEntry.stand = es.map ReplyEntry.stand := by
  rw [List.map_map]; exact List.map_congr_left fun e _ => h e

theorem ReplyEntry.stand_countDown (n : Nat) (e : ReplyEntry) : (e.countDown n).stand = e.stand := by
  unfold ReplyEntry.countDown; split
  · next h => simp [ReplyEntry.stand, ReplyEntry.undo?, isReserved, h]
  · rfl

theorem ReplyEntry.stand_openGated (n : Nat) (e : ReplyEntry) : (openGated n e).stand = e.stand := by
  unfold openGated; split
  · next h =>
    split
    · simp [ReplyEntry.stand, ReplyEntry.undo?, isReserved, h]
    · rfl
  · rfl

theorem countDown_kept (n : Nat) : JournalKept s (s.countDown n) :=
  .of_stands (fun hwf => ⟨Table.wf_mapEntries _ _ hwf, (s.waiting_countDown n) ▸ List.Subperm.refl _⟩)
    (fun hwf => ⟨State.countDown_wf hwf n, fun l => by
      unfold State.stands
      rw [State.countDown_link hwf]
      exact map_stand_congr (ReplyEntry.stand_countDown n) _⟩) rfl rfl

theorem openReplies_kept (n : Nat) : JournalKept s (s.openReplies n) :=
  mapLinks_kept rfl fun _ => map_stand_congr (ReplyEntry.stand_openGated n) _

/-! ### The completing of a reply (R62, R63, R133, R163) -/

theorem map_slot_perm {vs : List Stand} (hnd : (vs.map (fun v => v.slot)).Nodup) {v : Stand} (hv : v ∈ vs) (w : Stand) :
    (vs.map (fun x => if x.slot = v.slot then w else x)).Perm (w :: vs.filter (fun x => decide (x.slot ≠ v.slot))) := by
  refine ((filter_slot_perm hnd hv).map _).trans ?_
  rw [List.map_cons, if_pos rfl]
  refine List.Perm.of_eq (congrArg _ ((List.map_congr_left fun x hx => ?_).trans (List.map_id _)))
  rw [if_neg (of_decide_eq_true (List.mem_filter.1 hx).2)]; rfl

theorem State.finish_stands {st : ReplyState} {o : Option UndoRecord} (hst : ∀ e : ReplyEntry, ({ e with state := st } : ReplyEntry).stand =
    ⟨e.slot, false, o⟩) (k : Nat) : (s.finish l slot st).stands k =
      if k = l then (s.stands l).map (fun x => if x.slot = slot then ⟨slot, false, o⟩ else x) else s.stands k := by
  unfold State.finish State.modEntry
  rw [State.setLink_stands]
  split
  · unfold State.stands
    rw [List.map_map, List.map_map]
    refine List.map_congr_left fun e _ => ?_
    show (if e.slot = slot then ({ e with state := st } : ReplyEntry) else e).stand = if e.slot = slot then _ else e.stand
    split
    · next h => rw [hst, h]
    · rfl
  · rfl

/-- The reply of an entry is complete, and no request that waits or is dealt with has its slot. -/
theorem Books.finish {e : ReplyEntry} {st : ReplyState} {o : Option UndoRecord} (b : Books owed busy s) (hl : l < Config.links)
    (he : e ∈ (s.link l).replies)
    (hst : ∀ e : ReplyEntry, ({ e with state := st } : ReplyEntry).stand = ⟨e.slot, false, o⟩) (ho : ∀ u ∈ o, u.inOrder)
    (hw : (busy' ++ s.waiting).Sublist (busy ++ s.waiting)) (hgone : ⟨l, e.slot⟩ ∉ busy' ++ s.waiting) :
    Books (owed + slotsOf e.undo? - slotsOf o) busy' (s.finish l e.slot st) := by
  have hv : e.stand ∈ s.stands l := State.mem_stands.2 ⟨e, he, rfl⟩
  exact b.replace (v := e.stand) (o := some ⟨e.slot, false, o⟩) b.requests (Table.wf_set _ _ _ b.links) hl hv
    (by rw [State.finish_stands hst, if_pos rfl]; exact map_slot_perm (b.numbers l) hv _)
    (fun k hk => by rw [State.finish_stands hst, if_neg hk]) (by rintro w ⟨⟩; exact ⟨rfl, ho⟩) rfl hw.subperm hgone rfl

/-- The reply of a request that is being dealt with is complete, with an undo record for whose slot the journal is owed. -/
theorem finish_served {st : ReplyState} {o : Option UndoRecord}
    (hst : ∀ e : ReplyEntry, ({ e with state := st } : ReplyEntry).stand = ⟨e.slot, false, o⟩) (ho : ∀ u ∈ o, u.inOrder) :
    Moves (slotsOf o) (⟨l, slot⟩ :: busy) 0 busy s (s.finish l slot st) where
  order h := h.congr rfl rfl
  books b := by
    obtain ⟨hl, v, hv, hslot, hr⟩ := b.reserved ⟨l, slot⟩ List.mem_cons_self
    obtain ⟨e, he, rfl⟩ := State.mem_stands.1 hv
    obtain ⟨hgone, -⟩ := List.nodup_cons.1 b.apart
    have := b.finish hl he hst ho (List.sublist_cons_self _ _) (by rwa [show e.slot = slot from hslot])
    rw [show e.slot = slot from hslot, ReplyEntry.undo_of_reserved (isReserved_iff.1 hr)] at this
    simpa using this

theorem ready_none_stand (reply : TillReply) (referral : Option (Nat × Nat)) (e : ReplyEntry) :
    ({ e with state := .ready reply none referral } : ReplyEntry).stand = ⟨e.slot, false, none⟩ := rfl

theorem clearMark_kept (e : ReplyEntry) : JournalKept s (s.clearMark e) := (s.clearMark_only e).journalKept rfl

variable {e : ReplyEntry}

theorem decline_served {r : Reason} {free : Option Nat} : Served l e.slot s (decline l e r free s) :=
  JournalKept.served (clearMark_kept e) fun _ => finish_served (ready_none_stand _ _) (by simp)

theorem unexpected_served : Served l e.slot s (unexpected l e s) := decline_served

theorem declineField_served {training : Bool} {r : Reason} : Served l e.slot s (declineField l e training r s) :=
  fun _ => finish_served (ready_none_stand _ _) (by simp)

theorem ready_served {reply : TillReply} : Served l e.slot s (ready l e reply none s) :=
  fun _ => finish_served (ready_none_stand _ _) (by simp)

/-- R86: the reply of a HOLD, whose undo record has no slot. -/
theorem ready_hold_served {reply : TillReply} {u : UndoRecord} {id : Nat} (hseq : u.sequence = none) (he : u.effect = .hold id) :
    Served l e.slot s (ready l e reply (some u) s) := fun busy => by
  have := finish_served (s := s) (l := l) (slot := e.slot) (busy := busy) (st := .ready reply (some u) none) (o := some u) (fun _ => rfl)
    (by rintro x ⟨⟩; exact ⟨fun _ => ⟨id, he⟩, fun _ => hseq⟩)
  rwa [show slotsOf (some u) = 0 by simp [slotsOf, hseq]] at this

theorem gate_cases (l : Nat) (e : ReplyEntry) (p : Option Program) (reply : TillReply) (u : UndoRecord) (n : Nat) (s : State) :
    gate l e p reply u n s = s.finish l e.slot (.gated reply u n s.limits.gate) ∨
    gate l e p reply u n s = s.finish l e.slot (.ready reply (some u) none) := by
  unfold gate; dsimp only; split
  · split
    · exact .inl rfl
    · exact .inr rfl
  · exact .inr rfl

/-- R133: the reply of a request with an undoable record, for whose undo record a slot has been reserved. -/
theorem gate_served {p : Option Program} {reply : TillReply} {u : UndoRecord} {n m : Nat} (hseq : u.sequence = some m)
    (he : ∀ id, u.effect ≠ .hold id) : Moves 1 (⟨l, e.slot⟩ :: busy) 0 busy s (gate l e p reply u n s) := by
  have hu : ∀ x ∈ some u, x.inOrder := by
    rintro x ⟨⟩
    exact ⟨fun h => absurd (hseq.symm.trans h) nofun, fun h => h.elim fun id hid => absurd hid (he id)⟩
  have hslots : (slotsOf (some u) : Int) = 1 := by simp [slotsOf, hseq]
  rw [← hslots]
  obtain h | h := gate_cases l e p reply u n s
  · rw [h]; exact finish_served (fun _ => rfl) hu
  · rw [h]; exact finish_served (fun _ => rfl) hu

/-! ### The journal (R123, R126 to R128) -/

theorem successive_concat : ∀ {xs : List Nat} {a : Nat}, successive (xs ++ [a]) → successive (xs ++ [a] ++ [nextSequence a])
  | [], _, _ => ⟨rfl, trivial⟩
  | [_], _, h => ⟨h.1, successive_concat (xs := []) h.2⟩
  | _ :: y :: xs, _, h => ⟨h.1, successive_concat (xs := y :: xs) h.2⟩

theorem successive_suffix : ∀ {xs ys : List Nat}, successive (xs ++ ys) → successive ys
  | [], _, h => h
  | [_], [], _ => trivial
  | [_], _ :: _, h => h.2
  | _ :: y :: xs, _, h => successive_suffix (xs := y :: xs) h.2

theorem nextSequence_bounds {n : Nat} (h : 1 ≤ n) : 1 ≤ nextSequence n ∧ nextSequence n ≤ Config.lastSequence := by
  unfold nextSequence; split
  · omega
  · exact ⟨Nat.le_refl 1, by decide⟩

theorem joinRecord_order {d : Draft} (o : JournalInOrder s) : JournalInOrder (s.joinRecord d) := by
  obtain ⟨hs, hlo, hhi⟩ := o
  have hj := s.joinRecord_journal d
  unfold JournalInOrder
  rw [hj]
  refine ⟨?_, nextSequence_bounds hlo⟩
  rw [List.map_append]
  exact successive_concat hs

theorem regate_kept (card : Nat) : JournalKept s (s.regate card) := by
  unfold State.regate; split
  · next tag x f hf =>
    obtain ⟨hx, hk, -⟩ := State.fetchFor_some hf
    split
    · refine ((s.bumpGeneration_only tag).journalKept rfl).trans (setRequest_kept ?_)
      show List.Sublist f.waiters (waitersOf (s.request tag))
      rw [hx]
      simp [waitersOf, HostEntry.waiting, hk]
    · exact JournalKept.refl s
  · exact JournalKept.refl s

theorem warnHigh_kept : JournalKept s s.warnHigh := by
  have honly := s.warnHigh_only
  exact .of_stands (fun h => ⟨honly.requests ▸ h, State.waiting_congr honly.requests ▸ List.Subperm.refl _⟩)
    (fun h => ⟨honly.links ▸ h, State.stands_congr honly.links⟩) honly.nextSlot (by rw [State.warnHigh_journal])

theorem appendRecord_books {r : JournalRecord} (b : Books owed busy s) (hroom : s.journal.hasRoom 1 = true) :
    Books owed busy (s.appendRecord r) := by
  have hroom : s.journal.records.length + s.journal.reserved + 1 ≤ Config.journalRecords := of_decide_eq_true hroom
  refine { b with room := ?_ }
  simp only [State.appendRecord_journal, List.length_append, List.length_singleton]
  omega

theorem joinRecord_books {d : Draft} (b : Books owed busy s) (hroom : s.journal.hasRoom 1 = true) : Books owed busy (s.joinRecord d) :=
  have counted : JournalKept (s.appendRecord (d.record s)) (s.joinRecord d) :=
    ((((State.countUnposted_only _ d.card).journalKept rfl).trans (regate_kept d.card)).trans
      ((State.queue_only _ (.journal (d.record s) 0)).journalKept rfl)).trans warnHigh_kept
  (counted owed busy).books (appendRecord_books b hroom)

theorem joinRecord_kept {d : Draft} (hroom : s.journal.hasRoom 1 = true) : JournalKept s (s.joinRecord d) :=
  fun _ _ => ⟨joinRecord_order, fun b => joinRecord_books b hroom⟩

theorem joinUndoable_moves {d : Draft} (hroom : s.journal.hasRoom 2 = true) : Moves owed busy (owed + 1) busy s (joinUndoable d s) where
  order o := joinRecord_order (o.congr rfl rfl)
  books b := by
    have hroom : s.journal.records.length + s.journal.reserved + 2 ≤ Config.journalRecords := of_decide_eq_true hroom
    refine joinRecord_books { b with held := ?_, room := ?_ } (decide_eq_true ?_)
    · have := b.held; simp only [State.reserveSlot_journal]; push_cast; rw [show s.reserveSlot.slotsHeld = s.slotsHeld from rfl]; omega
    · simp only [State.reserveSlot_journal]; omega
    · simp only [State.reserveSlot_journal]; omega

/-- R126, R133: an undoable record joins, the rest of the effect is made, and the reply is complete with its undo record. -/
theorem undoable_served {d : Draft} {p : Option Program} {reply : TillReply} {u : UndoRecord} {n m : Nat}
    (hroom : s.journal.hasRoom 2 = true) (h : JournalKept (joinUndoable d s) t) (hseq : u.sequence = some m)
    (he : ∀ id, u.effect ≠ .hold id) : Served l e.slot s (gate l e p reply u n t) :=
  fun _ => ((joinUndoable_moves hroom).trans (h _ _)).trans (gate_served hseq he)

theorem admission_kept {need : Nat} {kind : Word16} {b : Bool} (h : s.admission need kind = (t, b)) :
    JournalKept s t ∧ (b = true → t.journal.hasRoom need = true) := by
  unfold State.admission at h; split at h
  · next hroom =>
    obtain ⟨rfl, rfl⟩ := Prod.mk.inj h
    exact ⟨withJournal_kept rfl, fun _ => hroom⟩
  · split at h
    · obtain ⟨rfl, rfl⟩ := Prod.mk.inj h
      exact ⟨JournalKept.refl _, fun hb => by cases hb⟩
    · obtain ⟨rfl, rfl⟩ := Prod.mk.inj h
      refine ⟨JournalKept.trans (t := { s with journal := { s.journal with refusing := true } }) (withJournal_kept rfl) ?_, fun hb => by cases hb⟩
      exact (State.raise_only _ _ _).journalKept rfl

end

end Sys2Proof.Machine
end

section
/-! The journal under undos, the emptying of a link, deliveries and gate timeouts (R127, R132, R135, R136, R165). -/

namespace Sys2Proof.Machine
open Piece

section
variable {s t : State} {owed : Int} {busy : List Waiter} {l slot card : Nat} {e : ReplyEntry} {u : UndoRecord}

theorem orderKept_foldl {α : Type} {f : State → α → State} (h : ∀ s x, JournalInOrder s → JournalInOrder (f s x)) :
    ∀ (xs : List α) (s : State), JournalInOrder s → JournalInOrder (xs.foldl f s)
  | [], _, o => o
  | x :: xs, s, o => orderKept_foldl h xs (f s x) (h s x o)

/-! ### Holds that end (R58, R95) -/

theorem readRecord_journalKept {x : Option (CardRecord × Nat)} (h : s.readRecord card = (t, x)) : JournalKept s t :=
  (State.readRecord_frame h).journalKept rfl

theorem forfeitTest_journalKept : JournalKept s (s.forfeitTest card) := by
  unfold State.forfeitTest; split
  · exact readRecord_journalKept ‹_›
  · dsimp only; split
    · next hroom =>
      have hroom := (Bool.and_eq_true_iff.1 hroom).2
      refine ((readRecord_journalKept ‹_›).trans ((State.writeData_only _ card _).journalKept rfl)).trans (joinRecord_kept ?_)
      rwa [(State.writeData_only _ card _).journal]
    · exact readRecord_journalKept ‹_›

theorem expireHold_journalKept {h : Hold} : JournalKept s (s.expireHold h) :=
  JournalKept.trans (t := { s.freeHold h with notes := addNote (s.freeHold h).notes ⟨h.site, h.ref, h.id⟩ })
    (.of_stands (fun hw => ⟨hw, List.Subperm.refl _⟩) (fun hw => ⟨hw, fun _ => rfl⟩) rfl rfl) forfeitTest_journalKept

theorem expireIfDue_journalKept {id : Nat} : JournalKept s (s.expireIfDue id) := by
  unfold State.expireIfDue; split
  · split
    · exact expireHold_journalKept
    · exact JournalKept.refl s
  · exact JournalKept.refl s

/-! ### Undos (R87, R127, R136) -/

theorem undoHold_journalKept {id : Nat} : JournalKept s (s.undoHold u id) := by
  have purses : ∀ t : State, JournalKept t ((t.undoPurses u).1.forfeitTest u.card) := fun t =>
    ((t.undoPurses_only u).journalKept rfl).trans forfeitTest_journalKept
  unfold State.undoHold; dsimp only; split
  · exact ((s.freeHold_only _).journalKept rfl).trans (purses _)
  · exact purses s

theorem undoAfter_journalKept : JournalKept s (s.undoAfter u) := by
  unfold State.undoAfter; split
  · exact expireIfDue_journalKept
  · exact JournalKept.refl s

/-- What an undo does before its UNDO record takes the slot. -/
theorem undoBeside_journalKept : JournalKept s ((s.undoPurses u).1.undoBeside u) :=
  ((s.undoPurses_only u).journalKept rfl).trans ((State.undoBeside_only _ u).journalKept rfl)

theorem undo_order (o : JournalInOrder s) : JournalInOrder (s.undo u) := by
  unfold State.undo; split
  · exact (undoHold_journalKept 0 []).order o
  · exact o
  · exact (undoAfter_journalKept 0 []).order (joinRecord_order (((undoBeside_journalKept 0 []).order o).congr rfl rfl))

theorem releaseSlot_books (b : Books owed busy s) (h : 1 ≤ s.journal.reserved) : Books (owed - 1) busy s.releaseSlot :=
  { b with
    held := by
      have := b.held
      simp only [State.releaseSlot_journal, show s.releaseSlot.slotsHeld = s.slotsHeld from rfl]
      omega
    room := by
      have := b.room
      simp only [State.releaseSlot_journal]
      omega }

/-- An undo takes the slot of its undo record for its UNDO record. -/
theorem undo_books (b : Books owed busy s) (hu : u.inOrder) (hslot : slotsOf (some u) ≤ s.journal.reserved) :
    Books (owed - slotsOf (some u)) busy (s.undo u) := by
  unfold State.undo; split
  · next id he =>
    have hnone : slotsOf (some u) = 0 := by simp [slotsOf, hu.2 ⟨id, he⟩]
    rw [hnone]
    simpa using (undoHold_journalKept _ _).books b
  · next hq _ =>
    have hnone : slotsOf (some u) = 0 := by simp [slotsOf, hq]
    rw [hnone]
    simpa using b
  · next hq _ =>
    have hone : slotsOf (some u) = 1 := by simp [slotsOf, hq]
    have beside := (undoBeside_journalKept (u := u) owed busy).books b
    have hj : ((s.undoPurses u).1.undoBeside u).journal = s.journal :=
      (State.undoBeside_only _ u).journal.trans (s.undoPurses_only u).journal
    rw [hone] at hslot ⊢
    have released := releaseSlot_books beside (hj ▸ hslot)
    have hroom : ((s.undoPurses u).1.undoBeside u).releaseSlot.journal.hasRoom 1 = true := decide_eq_true (by
      have := b.room
      rw [State.releaseSlot_journal, hj]
      dsimp only
      omega)
    exact (undoAfter_journalKept _ _).books (joinRecord_books released hroom)

/-! ### Entries that leave their queue -/

theorem State.dropEntry_stands (s : State) (l slot k : Nat) : (s.dropEntry l slot).stands k =
    if k = l then (s.stands l).filter (fun x => decide (x.slot ≠ slot)) else s.stands k := by
  unfold State.dropEntry
  rw [State.setLink_stands]
  split
  · unfold State.stands
    rw [List.filter_map]; rfl
  · rfl

/-- An entry is not RESERVED, so no request that waits or is dealt with has its slot. -/
theorem Books.not_waiting (b : Books owed busy s) (he : e ∈ (s.link l).replies) (hst : e.state ≠ .reserved) :
    ⟨l, e.slot⟩ ∉ busy ++ s.waiting := fun hm => by
  obtain ⟨-, v, hv, hslot, hr⟩ := b.reserved _ hm
  obtain ⟨x, hx, rfl⟩ := State.mem_stands.1 hv
  have h1 := b.entry_of_mem hx
  rw [show x.slot = e.slot from hslot, b.entry_of_mem he] at h1
  cases h1
  exact hst (isReserved_iff.1 hr)

/-- An entry leaves its queue, with its request if it waits on the host. -/
theorem Books.leave (b : Books owed [] s) (hl : l < Config.links) (he : e ∈ (s.link l).replies) (hreq : t.requests.wf none = true)
    (hlinks : t.links = (s.dropEntry l e.slot).links) (hnext : t.nextSlot = s.nextSlot) (hw : t.waiting.Subperm s.waiting)
    (hgone : ⟨l, e.slot⟩ ∉ t.waiting) (hj : t.journal = s.journal) : Books (owed + slotsOf e.undo?) [] t := by
  have hst := State.stands_congr hlinks
  have := b.replace (v := e.stand) (o := none) (busy' := []) hreq (hlinks ▸ Table.wf_set _ _ _ b.links) hl (State.mem_stands.2 ⟨e, he, rfl⟩)
    (by rw [hst, State.dropEntry_stands, if_pos rfl]; exact List.Perm.refl _)
    (fun k hk => by rw [hst, State.dropEntry_stands, if_neg hk]) (by simp) hnext hw hgone hj
  simpa [Stand.slots, ReplyEntry.stand] using this

/-! ### The emptying of a link (R165, R166) -/

theorem State.dropEntry_head {es : List ReplyEntry} (b : Books owed busy s) (hr : (s.link l).replies = e :: es) :
    ((s.dropEntry l e.slot).link l).replies = es := by
  have hnd := b.numbers l
  rw [State.stands, hr, List.map_cons, List.map_cons] at hnd
  rw [State.dropEntry_link, if_pos rfl, hr, List.filter_cons_of_neg (by simp)]
  refine List.filter_eq_self.2 fun x hx => decide_eq_true fun h => (List.nodup_cons.1 hnd).1 ?_
  exact List.mem_map.2 ⟨x.stand, List.mem_map_of_mem hx, h⟩

theorem emptyEntry_order {a : State × Emptied} (o : JournalInOrder a.1) : JournalInOrder (State.emptyEntry l e a).1 := by
  have dropped : JournalInOrder ((a.1.dropEntry l e.slot).endMark e) :=
    o.congr (congrArg _ (State.endMark_only _ e).journal) (congrArg _ (State.endMark_only _ e).journal)
  unfold State.emptyEntry; dsimp only; split
  · exact dropped.congr (congrArg _ (State.abandon_only _ _ _).journal) (congrArg _ (State.abandon_only _ _ _).journal)
  · exact undo_order dropped
  · exact undo_order dropped
  · exact dropped.congr rfl rfl
  · exact dropped

theorem emptied_order : ∀ (es : List ReplyEntry) (a : State × Emptied), JournalInOrder a.1 →
    JournalInOrder (es.foldl (fun acc e => State.emptyEntry l e acc) a).1
  | [], _, o => o
  | _ :: es, _, o => emptied_order es _ (emptyEntry_order o)

/-- Every entry that is met leaves its queue and nothing else of the links. -/
theorem emptyEntry_links (l : Nat) (e : ReplyEntry) (a : State × Emptied) :
    (State.emptyEntry l e a).1.links = (a.1.dropEntry l e.slot).links := by
  have marked := (State.endMark_only (a.1.dropEntry l e.slot) e).links
  unfold State.emptyEntry; dsimp only; split
  · exact (State.abandon_only _ _ _).links.trans marked
  · exact (State.undo_only _ _).links.trans marked
  · exact (State.undo_only _ _).links.trans marked
  · exact marked
  · exact marked

theorem emptyEntry_books {a : State × Emptied} (b : Books 0 [] a.1) (hl : l < Config.links) (he : e ∈ (a.1.link l).replies) :
    Books 0 [] (State.emptyEntry l e a).1 := by
  have marked := State.endMark_only (a.1.dropEntry l e.slot) e
  have left : e.state ≠ .reserved → Books (0 + slotsOf e.undo?) [] ((a.1.dropEntry l e.slot).endMark e) := fun hst =>
    b.leave hl he (marked.requests ▸ b.requests) marked.links marked.nextSlot (State.waiting_congr marked.requests ▸ List.Subperm.refl _)
      (State.waiting_congr marked.requests ▸ b.not_waiting he hst) marked.journal
  have undone : ∀ u, e.state ≠ .reserved → e.undo? = some u → Books 0 [] (((a.1.dropEntry l e.slot).endMark e).undo u) := fun u hst hu => by
    have hleft := left hst
    have hin := b.undos l hl e.stand (State.mem_stands.2 ⟨e, he, rfl⟩) u hu
    rw [hu] at hleft
    have := undo_books hleft hin (by have := hleft.held; omega)
    simpa using this
  have hkind := ReplyEntry.undo?.eq_def e
  unfold State.emptyEntry; dsimp only
  split
  · next hst =>
    have abandoned := State.abandon_only ((a.1.dropEntry l e.slot).endMark e) l e.slot
    obtain ⟨hwf, hw, hgone⟩ := State.abandon_waiting (s := (a.1.dropEntry l e.slot).endMark e) (l := l) (slot := e.slot)
      (marked.requests ▸ b.requests)
    have := b.leave hl he hwf (abandoned.links.trans marked.links) (abandoned.nextSlot.trans marked.nextSlot)
      (hw.trans (State.waiting_congr marked.requests ▸ List.Subperm.refl _)) hgone (abandoned.journal.trans marked.journal)
    rwa [ReplyEntry.undo_of_reserved hst] at this
  · next u _ _ hst => exact undone u (by simp [hst]) (by simpa [hst] using hkind)
  · next u _ hst => exact undone u (by simp [hst]) (by simpa [hst] using hkind)
  · next hst =>
    have := left (by simp [hst])
    rw [hkind, hst] at this
    exact ((State.queue_only _ _).journalKept rfl _ _).books this
  · next hst =>
    have := left (by simp [hst])
    rwa [hkind, hst] at this

theorem emptied_books (hl : l < Config.links) : ∀ (es : List ReplyEntry) (a : State × Emptied), Books 0 [] a.1 → (a.1.link l).replies = es →
    Books 0 [] (es.foldl (fun acc e => State.emptyEntry l e acc) a).1 ∧
    ((es.foldl (fun acc e => State.emptyEntry l e acc) a).1.link l).replies = []
  | [], _, b, h => ⟨b, h⟩
  | e :: es, a, b, h => by
    refine emptied_books hl es _ (emptyEntry_books b hl (h ▸ List.mem_cons_self)) ?_
    have := State.dropEntry_head b h
    unfold State.link at this ⊢
    rwa [emptyEntry_links]

theorem emptied_otherLinks {k : Nat} (hk : k ≠ l) : ∀ (es : List ReplyEntry) (a : State × Emptied),
    (es.foldl (fun acc e => State.emptyEntry l e acc) a).1.link k = a.1.link k
  | [], _ => rfl
  | e :: es, a => by
    refine (emptied_otherLinks hk es _).trans ?_
    have := State.dropEntry_link a.1 l e.slot k
    rw [if_neg hk] at this
    unfold State.link at this ⊢
    rwa [emptyEntry_links]

theorem closeSession_kept {st : LinkState} : JournalKept s (s.closeSession l st) := setLink_kept rfl

theorem inFallOrder_kept : JournalKept t (s.inFallOrder t) := (s.inFallOrder_only t).journalKept rfl

theorem emptyLink_balanced {st : LinkState} {n : Emptied} (hl : l < Config.links) : Balanced s (s.emptyLink l st n).1 :=
  Balanced.trans (t := (s.emptyReplies l n).1)
    ⟨fun o => emptied_order _ (s, n) o, fun b => (emptied_books hl _ (s, n) b rfl).1⟩
    (inFallOrder_kept.trans closeSession_kept).balanced

/-- R165: the queue of the link is empty, and those of the others are as they were. -/
theorem emptyLink_replies (b : Books 0 [] s) {st : LinkState} {n : Emptied} (hl : l < Config.links) :
    ((s.emptyLink l st n).1.link l).replies = [] ∧ ∀ k, k ≠ l → (s.emptyLink l st n).1.link k = s.link k := by
  have hfall : ∀ k, (s.inFallOrder (s.emptyReplies l n).1).link k = (s.emptyReplies l n).1.link k := fun k => by
    unfold State.link; rw [(s.inFallOrder_only _).links]
  constructor
  · show (((s.inFallOrder (s.emptyReplies l n).1).closeSession l st).link l).replies = []
    unfold State.closeSession
    rw [State.setLink_link_same, hfall]
    exact (emptied_books hl _ (s, n) b rfl).2
  · intro k hk
    show ((s.inFallOrder (s.emptyReplies l n).1).closeSession l st).link k = _
    unfold State.closeSession
    rw [State.setLink_link, if_neg hk, hfall]
    exact emptied_otherLinks hk _ (s, n)

theorem loseLink_balanced {byHello : Bool} (hl : l < Config.links) : Balanced s (s.loseLink l byHello) :=
  (emptyLink_balanced hl).trans ((State.raise_only _ _ _).journalKept rfl).balanced

/-! ### Delivery (R63, R132) -/

theorem confirm_journalKept : JournalKept s (s.confirm u) := by
  unfold State.confirm; split
  · exact JournalKept.refl s
  · exact JournalKept.refl s
  · exact ((s.modHold_only _ _).journalKept rfl).trans expireIfDue_journalKept
  · split
    · exact (s.freeHold_only _).journalKept rfl
    · exact JournalKept.refl s
  · exact (s.credit_only _ _ _ _).journalKept rfl
  · exact (s.credit_only _ _ _ _).journalKept rfl

theorem releaseOf_moves : Moves (slotsOf (some u)) busy 0 busy s (s.releaseOf u) := by
  unfold State.releaseOf; split
  · next hq =>
    have hone : (slotsOf (some u) : Int) = 1 := by simp [slotsOf, hq]
    rw [hone]
    refine ⟨fun o => o.congr rfl rfl, fun b => ?_⟩
    simpa using releaseSlot_books b (by have := b.held; omega)
  · next hq =>
    have hnone : (slotsOf (some u) : Int) = 0 := by simp [slotsOf, hq]
    rw [hnone]
    exact Moves.refl s

theorem transmit_journalKept {m : SiteOut} : JournalKept s (s.transmit l m) := setLink_kept rfl

theorem deliver_balanced {reply : TillReply} {u : Option UndoRecord} (hl : l < Config.links) (he : e ∈ (s.link l).replies)
    (hst : e.state ≠ .reserved) (hu : e.undo? = u) : Balanced s (s.deliver l e reply u) := by
  have handed : Moves 0 [] (slotsOf u) [] s ((s.transmit l (.tillReply reply)).dropEntry l e.slot) := by
    refine Moves.trans (t := s.transmit l (.tillReply reply)) (transmit_journalKept 0 []) ⟨fun o => o.congr rfl rfl, fun b => ?_⟩
    have he : e ∈ ((s.transmit l (.tillReply reply)).link l).replies := by
      unfold State.transmit; rw [State.setLink_link_same]; exact he
    have := b.leave (t := (s.transmit l (.tillReply reply)).dropEntry l e.slot) hl he b.requests rfl rfl (List.Subperm.refl _)
      (b.not_waiting he hst) rfl
    rw [hu] at this
    simpa using this
  have lowered : ∀ t, JournalKept t (t.lowerExposure e reply) := fun t => (t.lowerExposure_only e reply).journalKept rfl
  have atTill : ∀ t n, JournalKept t (t.atTill n e reply u) := fun t n => (t.atTill_only n e reply u).journalKept rfl
  unfold State.deliver
  cases u with
  | none =>
    dsimp only; split
    · exact handed.trans (((lowered _).trans (atTill _ _)) 0 [])
    · exact handed.trans (lowered _ 0 [])
  | some x =>
    have confirmed := (handed.trans (confirm_journalKept (u := x) _ [])).trans releaseOf_moves
    dsimp only; split
    · exact confirmed.trans (((lowered _).trans (atTill _ _)) 0 [])
    · exact confirmed.trans (lowered _ 0 [])

theorem oldestReady_some {reply : TillReply} {u : Option UndoRecord} : ∀ {es : List ReplyEntry}, oldestReady es = some (e, reply, u) →
    e ∈ es ∧ e.state ≠ .reserved ∧ e.undo? = u
  | [], h => by cases h
  | x :: es, h => by
    unfold oldestReady at h; split at h
    · next hst =>
      cases h
      exact ⟨List.mem_cons_self, by simp [hst], by simp [ReplyEntry.undo?, hst]⟩
    · obtain ⟨hm, h⟩ := oldestReady_some h
      exact ⟨List.mem_cons_of_mem _ hm, h⟩

/-! ### The gate timeout (R135) -/

/-- The slots of an entry's undo record are among those that are held. -/
theorem slotsOf_le_slotsHeld (hl : l < Config.links) (he : e ∈ (s.link l).replies) : slotsOf e.undo? ≤ s.slotsHeld :=
  calc slotsOf e.undo? ≤ s.slotsAt l :=
        List.le_sum_of_mem (List.mem_map.2 ⟨e.stand, State.mem_stands.2 ⟨e, he, rfl⟩, rfl⟩)
    _ ≤ s.slotsHeld := Finset.single_le_sum (f := s.slotsAt) (fun _ _ => Nat.zero_le _) (Finset.mem_range.2 hl)

theorem gateTimeout_order {reply : TillReply} (o : JournalInOrder s) : JournalInOrder (s.gateTimeout l e reply u) :=
  ((clearMark_kept e 0 []).order (undo_order o)).congr rfl rfl

theorem gateTimeout_balanced {reply : TillReply} (hl : l < Config.links) (he : e ∈ (s.link l).replies) (hst : e.state ≠ .reserved)
    (hu : e.undo? = some u) : Balanced s (s.gateTimeout l e reply u) := by
  refine ⟨gateTimeout_order, fun b => ?_⟩
  have hin := b.undos l hl e.stand (State.mem_stands.2 ⟨e, he, rfl⟩) u hu
  have hheld := slotsOf_le_slotsHeld hl he
  rw [hu] at hheld
  have undone := (clearMark_kept e _ _).books (undo_books b hin (by have := b.held; omega))
  have hlinks : ((s.undo u).clearMark e).links = s.links := (State.clearMark_only _ e).links.trans (s.undo_only u).links
  have he' : e ∈ (((s.undo u).clearMark e).link l).replies := by unfold State.link; rw [hlinks]; exact he
  have := undone.finish hl he' (ready_none_stand (withdrawnReply e.msg reply) none) (by simp) (List.Sublist.refl _)
    (undone.not_waiting he' hst)
  rw [hu] at this
  unfold State.gateTimeout
  simpa using this

/-- R135: an entry is withdrawn when its gate timer has run out. -/
def State.fireGate (l : Nat) (s : State) (e : ReplyEntry) : State :=
  match e.state with
  | .gated reply u _ 0 => s.gateTimeout l e reply u
  | _ => s

theorem State.fireGates_eq (s : State) (l : Nat) : s.fireGates l = (s.link l).replies.foldl (State.fireGate l) s := rfl

theorem fireGate_order (o : JournalInOrder s) : JournalInOrder (State.fireGate l s e) := by
  unfold State.fireGate; split
  · exact gateTimeout_order o
  · exact o

theorem fireGate_balanced (hl : l < Config.links) (he : e ∈ (s.link l).replies) : Balanced s (State.fireGate l s e) := by
  unfold State.fireGate; split
  · next hst => exact gateTimeout_balanced hl he (by simp [hst]) (by simp [ReplyEntry.undo?, hst])
  · exact Balanced.refl s

/-- The entries of other slots stay. -/
theorem mem_fireGate {x : ReplyEntry} (hx : x ∈ (s.link l).replies) (hne : x.slot ≠ e.slot) :
    x ∈ ((State.fireGate l s e).link l).replies := by
  unfold State.fireGate; split
  · next u _ _ =>
    have hlinks : ((s.undo u).clearMark e).links = s.links := (State.clearMark_only _ e).links.trans (s.undo_only u).links
    have hlink : ((s.undo u).clearMark e).link l = s.link l := by unfold State.link; rw [hlinks]
    unfold State.gateTimeout
    rw [State.finish_link, if_pos rfl, hlink]
    exact List.mem_map.2 ⟨x, hx, if_neg hne⟩
  · exact hx

/-- The entries of a queue that are withdrawn together. -/
theorem fireGates_books (hl : l < Config.links) : ∀ (es : List ReplyEntry) (s : State), Books 0 [] s → (∀ e ∈ es, e ∈ (s.link l).replies) →
    (es.map (fun e => e.slot)).Nodup → Books 0 [] (es.foldl (State.fireGate l) s)
  | [], _, b, _, _ => b
  | e :: es, s, b, hm, hnd => by
    obtain ⟨he, hm⟩ := List.forall_mem_cons.1 hm
    obtain ⟨hfresh, hnd⟩ := List.nodup_cons.1 hnd
    exact fireGates_books hl es _ ((fireGate_balanced hl he).books b)
      (fun x hx => mem_fireGate (hm x hx) fun h => hfresh (List.mem_map.2 ⟨x, hx, h⟩)) hnd

theorem fireGates_balanced (hl : l < Config.links) : Balanced s (s.fireGates l) := by
  refine ⟨orderKept_foldl (fun _ _ => fireGate_order) _ s, fun b => fireGates_books hl _ s b (fun _ h => h) ?_⟩
  simpa [State.stands, ReplyEntry.stand, Function.comp_def] using b.numbers l

theorem gatedOn_some {n : Nat} {reply : TillReply} : ∀ {es : List ReplyEntry}, gatedOn n es = some (e, reply, u) →
    e ∈ es ∧ ∃ timer, e.state = .gated reply u n timer
  | [], h => by cases h
  | x :: es, h => by
    unfold gatedOn at h; split at h
    · next hst =>
      split at h
      · next hn => cases h; exact ⟨List.mem_cons_self, _, hn ▸ hst⟩
      · obtain ⟨hm, h⟩ := gatedOn_some h
        exact ⟨List.mem_cons_of_mem _ hm, h⟩
    · obtain ⟨hm, h⟩ := gatedOn_some h
      exact ⟨List.mem_cons_of_mem _ hm, h⟩

end

end Sys2Proof.Machine
end

section
/-! The journal under the evaluation of requests, the endings of fetches and referrals, POSTEDs and timers (R110, R126, R130, R133). -/

namespace Sys2Proof.Machine
open Piece

section
variable {s t : State} {busy : List Waiter} {l slot card : Nat} {e : ReplyEntry}

/-! ### The evaluation of a request (R41, R126, R133) -/

theorem underProgram_served {act : Program → State} (h : ∀ p, Served l e.slot s (act p)) :
    Served l e.slot s (s.underProgram l e card act) := by
  unfold State.underProgram; split
  · exact decline_served
  · exact h _

theorem withRecord_served {act : CardData → Nat → State → State} (h : ∀ d n t, Served l e.slot t (act d n t)) :
    Served l e.slot s (s.withRecord l e card act) := by
  unfold State.withRecord; dsimp only; split
  · exact forfeitTest_journalKept.served (h _ _ _)
  · exact forfeitTest_journalKept.served unexpected_served

/-- R126: what an admitted request does finds room for its record and its slot. -/
theorem admitted_served {free : Option Nat} {act : State → State}
    (h : ∀ t, t.journal.hasRoom 2 = true → Served l e.slot t (act t)) : Served l e.slot s (s.admitted l e free act) := by
  unfold State.admitted; split
  · next ht =>
    obtain ⟨kept, hroom⟩ := admission_kept ht
    exact kept.served (h _ (hroom rfl))
  · next ht => exact (admission_kept ht).1.served decline_served

section
variable {p : Program} {q : Option Program} {d : CardData} {stay site id : Nat} {x : StackEntry}

theorem applyRedeem_served {x : Debit} (hroom : s.journal.hasRoom 2 = true) : Served l e.slot s (applyRedeem l e p d stay x s) := by
  have written := s.writeData_only d.card fun _ => countUse { d with bonus := d.bonus - x.bonus, core := d.core - x.core } s.date
  unfold applyRedeem
  exact (written.journalKept rfl).served (undoable_served (written.journal ▸ hroom) (JournalKept.refl _) rfl nofun)

theorem applyReload_served (hroom : s.journal.hasRoom 2 = true) : Served l e.slot s (applyReload l e p d stay s) := by
  unfold applyReload
  exact undoable_served hroom (JournalKept.refl _) rfl nofun

theorem applyReverse_served (hroom : s.journal.hasRoom 2 = true) : Served l e.slot s (applyReverse l e q x d stay s) := by
  unfold applyReverse
  exact undoable_served hroom (JournalKept.refl _) rfl nofun

theorem applyHold_served {x : Debit} : Served l e.slot s (applyHold l e p site d stay x s) := by
  have made : JournalKept s ({ s.dropNotes site e.msg.holdRef with
      holds := s.holds ++ [⟨s.nextHold, site, e.msg.holdRef, d.card, x.bonus, x.core, p.limits.tipTolerance,
        expiryInstant s.now p.limits.holdLifetime, .new⟩], nextHold := s.nextHold + 1 } : State) :=
    .of_stands (fun hw => ⟨hw, List.Subperm.refl _⟩) (fun hw => ⟨hw, fun _ => rfl⟩) rfl rfl
  unfold applyHold
  exact (made.trans (((State.countSite_only _ site _).journalKept rfl).trans ((State.writeData_only _ d.card _).journalKept rfl))).served
    (ready_hold_served rfl rfl)

theorem applyComplete_served {h : Hold} {x : Capture} (hroom : s.journal.hasRoom 2 = true) :
    Served l e.slot s (applyComplete l e q h d stay x s) := by
  have written := s.writeData_only d.card fun _ => { d with bonus := d.bonus - x.bonus, core := d.core - (x.core + x.extra) }
  have captured := written.andThen (may := [.dir, .holds]) (State.modHold_only _ h.id
    fun y => { y with bonus := 0, core := 0, state := .capturing x.bonus x.core x.extra }) (by decide) (by decide)
  unfold applyComplete
  exact (captured.journalKept rfl).served (undoable_served (captured.journal ▸ hroom) (JournalKept.refl _) rfl nofun)

theorem evalEnquiry_served : Served l e.slot s (evalEnquiry l e d s) := by
  unfold evalEnquiry; split
  · exact decline_served
  · exact ready_served

theorem evalRedeem_served : Served l e.slot s (evalRedeem l e p d stay s) := by
  unfold evalRedeem; dsimp only; split
  · exact decline_served
  · split
    · exact decline_served
    · split
      · exact decline_served
      · exact admitted_served fun _ => applyRedeem_served

theorem evalReload_served : Served l e.slot s (evalReload l e p d stay s) := by
  unfold evalReload; dsimp only; split
  · exact decline_served
  · split
    · exact decline_served
    · exact admitted_served fun _ => applyReload_served

theorem evalReverse_served : Served l e.slot s (evalReverse l e q x d stay s) := by
  unfold evalReverse; dsimp only; split
  · exact decline_served
  · exact admitted_served fun _ => applyReverse_served

theorem evalHold_served : Served l e.slot s (evalHold l e p site d stay s) := by
  unfold evalHold; dsimp only; split
  · exact decline_served
  · split
    · exact decline_served
    · split
      · exact decline_served
      · split
        · exact decline_served
        · split
          · exact decline_served
          · exact admitted_served fun _ _ => applyHold_served

theorem evalComplete_served : Served l e.slot s (evalComplete l e q id d stay s) := by
  unfold evalComplete; dsimp only; split
  · exact decline_served
  · exact decline_served
  · split
    · exact decline_served
    · exact admitted_served fun _ => applyComplete_served

theorem evalRelease_served : Served l e.slot s (evalRelease l e id d s) := by
  unfold evalRelease; dsimp only; split
  · exact decline_served
  · exact decline_served
  · exact (((s.freeHold_only _).journalKept rfl).trans forfeitTest_journalKept).served ready_served

theorem releaseWithoutCard_served : Served l e.slot s (releaseWithoutCard l e id s) := by
  unfold releaseWithoutCard; split
  · exact decline_served
  · exact decline_served
  · exact ((s.freeHold_only _).journalKept rfl).served ready_served

theorem journalOnly_served : Served l e.slot s (journalOnly l e x s) :=
  admitted_served fun _ hroom => undoable_served hroom (JournalKept.refl _) rfl nofun

end

theorem evaluate_served : Served l e.slot s (evaluate l e card s) := by
  refine ((s.touch_only card).journalKept rfl).served ?_
  unfold evaluate; dsimp only; split
  · exact underProgram_served fun _ => withRecord_served fun _ _ _ => evalEnquiry_served
  · exact underProgram_served fun _ => withRecord_served fun _ _ _ => evalRedeem_served
  · split
    · exact underProgram_served fun _ => withRecord_served fun _ _ _ => evalHold_served
    · exact unexpected_served
  · exact underProgram_served fun _ => withRecord_served fun _ _ _ => evalReload_served
  · split
    · exact withRecord_served fun _ _ _ => evalComplete_served
    · exact unexpected_served
  · split
    · exact withRecord_served fun _ _ _ => evalRelease_served
    · exact unexpected_served
  · split
    · exact withRecord_served fun _ _ _ => evalReverse_served
    · exact unexpected_served
  · exact unexpected_served
  · exact unexpected_served
  · exact unexpected_served

/-! ### The directory's decision (R41, R110, R115) -/

/-- The request that is dealt with waits on an entry of the Host Request Table. -/
theorem wait_served {tag : Nat} {x : HostEntry}
    (hx : s.requests.wf none = true → x.waiting.Perm (⟨l, slot⟩ :: waitersOf (s.request tag))) :
    Served l slot s (s.setRequest tag (some x)) := fun busy =>
  ⟨fun o => o.congr rfl rfl, fun b =>
    b.of_stands (Table.wf_set _ _ _ b.requests) b.links (fun _ => rfl) (Nat.le_refl _)
      (by
        have waits : (s.setRequest tag (some x)).waiting.Perm (⟨l, slot⟩ :: s.waiting) :=
          ((s.waiting_setRequest tag (some x)).trans ((hx b.requests).append_right _)).trans
            ((State.waiting_split b.requests tag).symm.cons _)
        exact ((waits.append_left busy).trans List.perm_middle).subperm)
      (by rw [show (s.setRequest tag (some x)).journal = s.journal from rfl]; omega) b.room⟩

theorem makeEntry_served {tag timer : Nat} {kind : HostKind} (htag : s.request tag = none)
    (hk : ∀ gen, HostEntry.waiting ⟨gen, [], timer, kind⟩ = [⟨l, slot⟩]) : Served l slot s (s.makeEntry tag timer kind) :=
  ((s.bumpGeneration_only tag).journalKept rfl).served (wait_served fun _ => by
    rw [hk, show (s.bumpGeneration tag).request tag = none from htag]; exact List.Perm.refl _)

theorem refer_served : Served l e.slot s (refer l e s) := by
  unfold refer; split
  · exact decline_served
  · next htag => exact (makeEntry_served (State.freeTag_some htag) fun _ => rfl).kept ((State.queue_only _ _).journalKept rfl)

theorem issueFetch_served {no tag : Nat} (htag : s.request tag = none) : Served l e.slot s (issueFetch l e card no tag s) := by
  have made : ∀ timer sent, Served l e.slot s ((s.reserveWay card no).makeEntry tag timer
      (.fetch { card := card, set := setOf card, way := no, sent := sent, waiters := [⟨l, e.slot⟩] })) := fun _ _ =>
    ((s.reserveWay_only card no).journalKept rfl).served (makeEntry_served htag fun _ => rfl)
  unfold issueFetch; dsimp only; split
  · exact (made _ _).kept ((State.queue_only _ _).journalKept rfl)
  · exact made _ _

theorem joinWaitList_served : Served l e.slot s (joinWaitList l e card s) := by
  unfold joinWaitList; split
  · next tag x f hf =>
    obtain ⟨hx, hk, -⟩ := State.fetchFor_some hf
    split
    · refine wait_served fun _ => ?_
      rw [hx]
      have hwait : waitersOf (some x) = f.waiters := by simp [waitersOf, HostEntry.waiting, hk]
      rw [hwait]
      exact List.perm_append_singleton _ _
    · exact decline_served
  · exact unexpected_served

theorem missUnfetched_served : Served l e.slot s (missUnfetched l e s) := by
  unfold missUnfetched; split
  · exact releaseWithoutCard_served
  · exact decline_served
  · exact refer_served

theorem miss_served : Served l e.slot s (miss l e card s) := by
  unfold miss; split
  · unfold missNormal; split
    · exact missUnfetched_served
    · split
      · exact decline_served
      · next htag => exact issueFetch_served (State.freeTag_some htag)
  · exact missUnfetched_served

theorem meetReserved_served : Served l e.slot s (meetReserved l e card s) := by
  unfold meetReserved; split
  · exact missUnfetched_served
  · exact joinWaitList_served

theorem lookup_served {onMiss : State → State} (h : ∀ t, Served l e.slot t (onMiss t)) : Served l e.slot s (lookup l e card onMiss s) := by
  unfold lookup; split
  · exact h s
  · split
    · split
      · exact (readRecord_journalKept ‹_›).served evaluate_served
      · exact (readRecord_journalKept ‹_›).served (h _)
    · exact meetReserved_served
    · exact h s

theorem flushingDecision_served {onMiss : State → State} (h : ∀ t, Served l e.slot t (onMiss t)) :
    Served l e.slot s (flushingDecision l e card onMiss s) := by
  unfold flushingDecision; split
  · exact h s
  · split
    · exact decline_served
    · exact joinWaitList_served
    · exact h s

theorem directoryDecision_served : Served l e.slot s (directoryDecision l e card s) := by
  unfold directoryDecision; split
  · exact refer_served
  · split
    · exact refer_served
    · exact refer_served
    · exact flushingDecision_served fun _ => refer_served
    · exact lookup_served fun _ => miss_served
    · exact lookup_served fun _ => miss_served

theorem standInReverse_served {x : StackEntry} : Served l e.slot s (standInReverse l e x s) := by
  unfold standInReverse; split
  · exact lookup_served fun _ => journalOnly_served
  · exact lookup_served fun _ => journalOnly_served
  · exact flushingDecision_served fun _ => journalOnly_served
  iterate 2
    split
    · exact refer_served
    · exact joinWaitList_served
    · exact journalOnly_served

theorem applyStandIn_served {p : Program} {x : Nat} {partly : Bool} (hroom : s.journal.hasRoom 2 = true) :
    Served l e.slot s (applyStandIn l e p card x partly s) := by
  unfold applyStandIn
  exact ((s.setExposure_only card _).journalKept rfl).served
    (undoable_served (s := s.setExposure card _) hroom ((countersThenRaise_only _ _ _ _).journalKept rfl) rfl nofun)

theorem standInDecision_served : Served l e.slot s (standInDecision l e card s) := by
  refine underProgram_served fun p => ?_
  split
  · exact decline_served
  · split
    · exact decline_served
    · exact admitted_served fun _ => applyStandIn_served

/-! ### The endings of a fetch (R110 to R114) -/

theorem Served.of_entry (h : Served l e.slot s t) {u : State} (he : u.entry l slot = some e) : Served l slot s t := State.entry_slot he ▸ h

/-- R110: the requests of a wait list are dealt with one after another. -/
theorem serveWaiters_moves {act : Nat → ReplyEntry → State → State} (h : ∀ l e t, Served l e.slot t (act l e t)) :
    ∀ (ws : List Waiter) (s : State), Moves 0 ws 0 [] s (s.serveWaiters ws act)
  | [], s => Moves.refl s
  | w :: ws, s => by
    refine Moves.trans (busy' := ws) ?_ (serveWaiters_moves h ws _)
    dsimp only; split
    · next he => exact (h w.link _ s).of_entry he ws
    · exact Moves.drop w s

theorem recheckReverse_served {x : StackEntry} {act : State → State} (h : Served l e.slot s (act s)) :
    Served l e.slot s (recheckReverse l e x act s) := by
  unfold recheckReverse; split
  · exact h
  · exact decline_served
  · exact decline_served

theorem serveInstalled_served : Served l e.slot s (serveInstalled card l e s) := by
  unfold serveInstalled; split
  · exact recheckReverse_served evaluate_served
  · exact evaluate_served

theorem serveUnknown_served : Served l e.slot s (serveUnknown l e s) := by
  unfold serveUnknown; split
  · exact releaseWithoutCard_served
  · exact decline_served

theorem serveTimedOut_served : Served l e.slot s (serveTimedOut card l e s) := by
  unfold serveTimedOut; split
  · exact standInDecision_served
  · split
    · exact recheckReverse_served journalOnly_served
    · exact decline_served
  · exact releaseWithoutCard_served
  · exact decline_served

theorem serveFlushed_served : Served l e.slot s (serveFlushed l e s) := by
  unfold serveFlushed; split
  · split
    · exact recheckReverse_served journalOnly_served
    · exact refer_served
  · exact refer_served

section
variable {tag gen : Nat} {f : Fetch} {x : HostEntry}

/-- An entry leaves the Host Request Table, and the requests that waited on it are dealt with. -/
theorem freeRequest_moves (hx : s.request tag = some x) : Moves 0 [] 0 x.waiting s (s.setRequest tag none) :=
  ⟨fun o => o.congr rfl rfl, fun b =>
    b.of_stands (Table.wf_set _ _ _ b.requests) b.links (fun _ => rfl) (Nat.le_refl _)
      (by
        have hsplit := State.waiting_split b.requests tag
        rw [hx] at hsplit
        exact (((s.waiting_setRequest tag none).append_left x.waiting).trans hsplit.symm).subperm)
      (by rw [show (s.setRequest tag none).journal = s.journal from rfl]; omega) b.room⟩

theorem freeFetch_moves (hf : s.fetchAt tag = some f) : Moves 0 [] 0 f.waiters s (s.setRequest tag none) := by
  obtain ⟨x, hx, hk⟩ := State.fetchAt_some.1 hf
  have := freeRequest_moves hx
  rwa [show x.waiting = f.waiters by simp [HostEntry.waiting, hk]] at this

theorem endFetch_moves (hf : s.fetchAt tag = some f) : Moves 0 [] 0 f.waiters s (s.endFetch tag f) :=
  (freeFetch_moves hf).trans ((State.dropWay_only _ _ _).journalKept rfl _ _)

theorem fetchInstalled_balanced {d : CardData} (hf : s.fetchAt tag = some f) : Balanced s (fetchInstalled tag f d s) :=
  ((freeFetch_moves hf).trans ((State.install_only _ _ d).journalKept rfl _ _)).trans
    (serveWaiters_moves (fun _ _ _ => serveInstalled_served) _ _)

theorem fetchUnknown_balanced (hf : s.fetchAt tag = some f) : Balanced s (fetchUnknown tag f s) :=
  (endFetch_moves hf).trans (serveWaiters_moves (fun _ _ _ => by
    split
    · exact serveFlushed_served
    · exact serveUnknown_served) _ _)

theorem fetchFlushed_balanced (hf : s.fetchAt tag = some f) : Balanced s (fetchFlushed tag f s) :=
  (endFetch_moves hf).trans (serveWaiters_moves (fun _ _ _ => serveFlushed_served) _ _)

theorem fetchTimedOut_balanced (hf : s.fetchAt tag = some f) : Balanced s (fetchTimedOut tag f s) :=
  ((endFetch_moves hf).trans ((State.raise_only _ _ _).journalKept rfl _ _)).trans (serveWaiters_moves (fun _ _ _ => by
    split
    · exact serveFlushed_served
    · exact serveTimedOut_served) _ _)

/-- The request of a REFERRAL that leaves the table is dealt with, unless it was abandoned. -/
theorem freeReferral_moves {r : Referral} (hx : s.request tag = some x) (hk : x.kind = .referral r) :
    Moves 0 [] 0 (if r.abandoned then [] else [⟨r.link, r.slot⟩]) s (s.setRequest tag none) := by
  have hw : x.waiting = if r.abandoned then [] else [⟨r.link, r.slot⟩] := by unfold HostEntry.waiting; rw [hk]
  exact hw ▸ freeRequest_moves hx

theorem referralTimedOut_balanced {r : Referral} (hx : s.request tag = some x) (hk : x.kind = .referral r) :
    Balanced s (referralTimedOut tag r s) := by
  have ended := freeReferral_moves hx hk
  unfold referralTimedOut; dsimp only; split
  · next ha =>
    rw [if_pos ha] at ended
    exact ended.trans ((State.raise_only _ _ _).journalKept rfl _ _)
  · next ha =>
    rw [if_neg ha] at ended
    have raised := ended.trans ((State.raise_only _ .hostTimeout (.hostTimeout tag false (requestCard r.msg r.bound) true)).journalKept rfl _ _)
    split
    · next he => exact raised.trans (decline_served.of_entry he [])
    · exact raised.trans (Moves.drop _ _)

theorem hostTimeout_balanced (hx : s.request tag = some x) : Balanced s (hostTimeout tag x s) := by
  unfold hostTimeout; split
  · next hk => exact fetchTimedOut_balanced (State.fetchAt_some.2 ⟨x, hx, hk⟩)
  · next hk => exact referralTimedOut_balanced hx hk

/-! ### The host's answers (R103, R111, R112, R116) -/

theorem refuseAnswer_journalKept {kind : Word16} : JournalKept s (s.refuseAnswer kind tag gen) := (s.refuseAnswer_only _ _ _).journalKept rfl

theorem takeCardData_balanced {w : CardWire} (hx : s.request tag = some x) : Balanced s (takeCardData tag gen x.kind w s) := by
  unfold takeCardData; split
  · exact refuseAnswer_journalKept.balanced
  · next hk =>
    have hf := State.fetchAt_some.2 ⟨x, hx, hk⟩
    split
    · exact refuseAnswer_journalKept.balanced
    · split
      · exact fetchFlushed_balanced hf
      · exact fetchInstalled_balanced hf

theorem takeNoSuchCard_balanced {y : Unit} (hx : s.request tag = some x) : Balanced s (takeNoSuchCard tag gen x.kind y s) := by
  unfold takeNoSuchCard; split
  · exact refuseAnswer_journalKept.balanced
  · next hk => exact fetchUnknown_balanced (State.fetchAt_some.2 ⟨x, hx, hk⟩)

theorem relay_served {r : Referral} {reply : TillReply} : Served r.link r.slot s (s.relay r reply tag gen) := fun busy => by
  unfold State.relay; split
  · next e _ =>
    have marked : JournalKept s (if reply.outcome = .declined then s.clearMark e else s) := by
      split
      · exact clearMark_kept e
      · exact JournalKept.refl s
    exact (marked _ _).trans (finish_served (ready_none_stand _ _) (by simp))
  · exact Moves.drop _ _

theorem takeReferralAnswer_balanced {y : ReferralFields} (hx : s.request tag = some x) :
    Balanced s (takeReferralAnswer tag gen x.kind y s) := by
  unfold takeReferralAnswer; split
  · exact refuseAnswer_journalKept.balanced
  · next r hk =>
    have ended := freeReferral_moves hx hk
    split
    · exact refuseAnswer_journalKept.balanced
    · dsimp only; split
      · next ha =>
        rw [if_pos ha] at ended
        exact ended.trans ((State.queue_only _ _).journalKept rfl _ _)
      · next ha =>
        rw [if_neg ha] at ended
        exact (ended.trans (relay_served [])).trans ((State.warm_only _ _ _ _).journalKept rfl _ _)

end

theorem settle_journalKept : JournalKept s s.settle := s.settle_only.journalKept rfl

theorem Balanced.settle (h : Balanced s t) : Balanced s t.settle := h.trans settle_journalKept.balanced

theorem hostAnswer_balanced {α : Type} {kind : Word16} {f : AnswerFrame α} {act : Nat → Nat → HostKind → α → State → State}
    (h : ∀ tag gen x y, s.request tag = some x → Balanced s (act tag gen x.kind y s)) : Balanced s (hostAnswer kind f s act) := by
  unfold hostAnswer; split
  · exact Balanced.refl s
  · exact ((s.queue_only _).journalKept rfl).balanced
  · split
    · exact ((s.lateAnswer_only _ _ _).journalKept rfl).balanced
    · next hx =>
      split
      · split
        · exact (h _ _ _ _ (State.matching_some hx)).settle
        · exact ((s.lateAnswer_only _ _ _).journalKept rfl).balanced
      · exact (h _ _ _ _ (State.matching_some hx)).settle

/-! ### POSTED (R130) -/

theorem retire_journalKept {r : JournalRecord} : JournalKept s (s.retire r) :=
  ((s.uncountUnposted_only r.card).journalKept rfl).trans (openReplies_kept r.sequence)

theorem openFetchGate_journalKept {removed : List JournalRecord} {tag : Nat} : JournalKept s (State.openFetchGate removed s tag) := by
  unfold State.openFetchGate; split
  · next hx =>
    split
    · refine JournalKept.trans (setRequest_kept ?_) ((State.queue_only _ _).journalKept rfl)
      rw [hx]
      exact List.Sublist.refl _
    · exact JournalKept.refl s
  · exact JournalKept.refl s

theorem rearm_journalKept : JournalKept s s.rearm := by
  unfold State.rearm; split
  · exact withJournal_kept rfl
  · exact JournalKept.refl s

/-- R130: the records that are left follow one another, and they and the slots are no more than before. -/
theorem leaveRecords_balanced {n : Nat} {removed left : List JournalRecord} (h : s.journal.records = removed ++ left) :
    Balanced s { s with journal := { s.journal with records := left, highestPosted := n } } where
  order o := by
    obtain ⟨hs, hbounds⟩ := o
    rw [h, List.map_append, List.append_assoc] at hs
    exact ⟨successive_suffix hs, hbounds⟩
  books b := by
    have hroom := b.room
    rw [h, List.length_append] at hroom
    exact { b with room := by dsimp only; omega }

theorem post_balanced {n : Nat} {removed left : List JournalRecord} (h : s.journal.records = removed ++ left) :
    Balanced s (s.post n removed left) := by
  unfold State.post
  exact (leaveRecords_balanced (n := n) h).trans (((((JournalKept.foldl (fun _ _ => retire_journalKept) removed _).trans inFallOrder_kept).trans
    (JournalKept.foldl (fun _ _ => openFetchGate_journalKept) _ _)).trans rearm_journalKept).balanced)

theorem takePosted_balanced {f : PostedFrame} : Balanced s (takePosted f s) := by
  unfold takePosted; split
  · exact Balanced.refl s
  · exact (s.badPosted_only.journalKept rfl).balanced
  · split
    · next h => exact (post_balanced (Journal.postable_append h)).settle
    · exact (s.badPosted_only.journalKept rfl).balanced

/-! ### The clock and the timers (R172, R176) -/

theorem elapseTo_journalKept {r : Reading} : JournalKept s (s.elapseTo r) :=
  (countDown_kept _).trans ((State.runTo_only _ r).journalKept rfl)

theorem reachInstant_journalKept {h : Hold} : JournalKept s (s.reachInstant h) := by
  have reached : JournalKept s (if s.now.le h.expiry then s.elapseTo h.expiry else s) := by
    split
    · exact elapseTo_journalKept
    · exact JournalKept.refl s
  exact (reached.trans expireHold_journalKept).trans settle_journalKept

theorem advanceTo_journalKept {r : Reading} : JournalKept s (s.advanceTo r) :=
  (JournalKept.foldl (fun _ _ => reachInstant_journalKept) _ s).trans elapseTo_journalKept

theorem elapse_journalKept {n : Nat} : JournalKept s (s.elapse n) := by
  unfold State.elapse; split
  · exact countDown_kept n
  · exact advanceTo_journalKept.trans (countDown_kept _)

theorem moveClock_journalKept {c : Clock} : JournalKept s (moveClock c s).1 := by
  have expired : ∀ t : State, JournalKept t (s.inFallOrder ((t.dueHolds c.reading).foldl State.expireHold t)) := fun t =>
    (JournalKept.foldl (fun _ _ => expireHold_journalKept) _ t).trans inFallOrder_kept
  unfold moveClock; dsimp only [done]; split
  · exact (((withClock_only s c).journalKept rfl).trans ((State.rollover_only _ true).journalKept rfl)).trans (expired _)
  · exact ((withClock_only s c).journalKept rfl).trans (expired _)

theorem fireTag_balanced {tag : Nat} : Balanced s (s.fireTag tag) := by
  unfold State.fireTag; split
  · next hx =>
    split
    · exact hostTimeout_balanced hx
    · exact Balanced.refl s
  · exact Balanced.refl s

theorem firePresence_balanced (hl : l < Config.links) : Balanced s (s.firePresence l) := by
  unfold State.firePresence; split
  · exact loseLink_balanced hl
  · exact Balanced.refl s

theorem Balanced.foldl_links {f : State → Nat → State} (h : ∀ s, ∀ l < Config.links, Balanced s (f s l)) (s : State) :
    Balanced s (linkNumbers.foldl f s) := by
  have each : ∀ (ls : List Nat) (s : State), (∀ l ∈ ls, l < Config.links) → Balanced s (ls.foldl f s) := by
    intro ls
    induction ls with
    | nil => exact fun s _ => Balanced.refl s
    | cons l ls ih =>
      exact fun s hls => (h s l (hls l List.mem_cons_self)).trans (ih _ fun k hk => hls k (List.mem_cons_of_mem l hk))
  exact each _ s fun _ => mem_linkNumbers.1

theorem fireTimers_balanced : Balanced s s.fireTimers :=
  ((Balanced.foldl (fun _ _ => fireTag_balanced) _ s).trans (Balanced.foldl_links (fun _ _ => fireGates_balanced) _)).trans
    (Balanced.foldl_links (fun _ _ => firePresence_balanced) _)

theorem pass_balanced {n : Nat} : Balanced s (s.pass n) := (elapse_journalKept.balanced.trans fireTimers_balanced).settle

theorem runFor_balanced {r : Reading} : ∀ (n : Nat) (s : State), Balanced s (State.runFor r n s)
  | 0, _ => advanceTo_journalKept.balanced
  | n + 1, _ => by
    unfold State.runFor; dsimp only; split
    · exact advanceTo_journalKept.balanced
    · exact pass_balanced.trans (runFor_balanced n _)

theorem runUntil_balanced {r : Reading} : Balanced s (s.runUntil r) := runFor_balanced _ s

end

end Sys2Proof.Machine
end

section
/-! Every command and event keeps the sequences of the Journal Queue in order and its books, and so does every step (R123, R126, R132). -/

namespace Sys2Proof.Machine

section
variable {s t : State} {l card : Nat} {e : ReplyEntry}

/-! ### The commands -/

theorem command_balanced {α : Type} {kind : Word16} {f : HostFrame α} {act : α → State → Answer}
    (h : ∀ x, Balanced s (act x s).1) : Balanced s (command kind f s act) := by
  have queued : ∀ (t : State) m, Balanced t (t.queue m) := fun t m => ((t.queue_only m).journalKept rfl).balanced
  unfold command; split
  · exact Balanced.refl s
  · exact queued s _
  · exact queued s _
  · exact (h _).trans (queued _ _)

/-- A change that leaves the records and the slots of the journal, its links and the host's entries. -/
theorem JournalKept.beside (h : (t.requests, t.links, t.nextSlot, t.journal) = (s.requests, s.links, s.nextSlot, s.journal)) :
    JournalKept s t := by
  obtain ⟨hreq, h⟩ := Prod.mk.inj h
  obtain ⟨hlinks, h⟩ := Prod.mk.inj h
  obtain ⟨hnext, hj⟩ := Prod.mk.inj h
  exact .of_stands (fun hw => ⟨hreq ▸ hw, State.waiting_congr hreq ▸ List.Subperm.refl _⟩)
    (fun hw => ⟨hlinks ▸ hw, State.stands_congr hlinks⟩) hnext (by rw [hj])

theorem Balanced.beside (h : (t.requests, t.links, t.nextSlot, t.journal) = (s.requests, s.links, s.nextSlot, s.journal)) :
    Balanced s t := (JournalKept.beside h).balanced

/-- A change of one link that leaves its reply queue. -/
theorem setLink_balanced {x : Link} (h : x.replies = (s.link l).replies) : Balanced s (s.setLink l x) :=
  (setLink_kept (by rw [h]; rfl)).balanced

theorem done_balanced {d : ResultData} (h : Balanced s t) : Balanced s (done t d).1 := h

theorem settled_balanced {a : Answer} (h : Balanced s a.1) : Balanced s (settled a).1 := h.settle

/-- R139, R182: once the reply queues are empty, an engine reset drops every slot and every entry that a request waits on. -/
theorem clearEngine_books {n : Emptied → ResultData} {b : Emptied} (h : Books 0 [] s) (hempty : ∀ l < Config.links, (s.link l).replies = []) :
    Books 0 [] (done s.clearEngine (n b)).1 := by
  have hlink : ∀ l, (s.clearEngine).stands l = s.stands l := fun l => by
    unfold State.stands
    show ((s.links.mapEntries Link.default _).get Link.default l).replies.map _ = _
    rw [Table.get_mapEntries Link.default (fun x => { x with windowA := 0, windowB := 1 }) rfl h.links]; rfl
  have hnone : ∀ l < Config.links, s.stands l = [] := fun l hl => by unfold State.stands; rw [hempty l hl]; rfl
  have hheld : s.slotsHeld = 0 := Finset.sum_eq_zero fun l hl => by
    unfold State.slotsAt; rw [hnone l (Finset.mem_range.1 hl)]; rfl
  exact
    { requests := rfl
      links := Table.wf_mapEntries _ _ h.links
      numbers := fun l => (hlink l).symm ▸ h.numbers l
      given := fun l v hv => h.given l v (hlink l ▸ hv)
      apart := List.nodup_nil
      reserved := List.forall_mem_nil _
      undos := fun l hl v hv => by rw [show (done s.clearEngine (n b)).1.stands l = s.stands l from hlink l, hnone l hl] at hv; cases hv
      held := by rw [State.slotsHeld_congr (s := s) (t := (done s.clearEngine (n b)).1) hlink, hheld]; rfl
      room := by
        have := h.room
        show s.journal.records.length + 0 ≤ _
        omega }

theorem emptiedLinks_balanced : ∀ (ls : List Nat) (a : State × Emptied), (∀ l ∈ ls, l < Config.links) →
    Balanced a.1 (ls.foldl (fun acc l => State.emptyLink acc.1 l .disabled acc.2) a).1
  | [], a, _ => Balanced.refl a.1
  | _ :: ls, _, h =>
    (emptyLink_balanced (h _ List.mem_cons_self)).trans (emptiedLinks_balanced ls _ fun k hk => h k (List.mem_cons_of_mem _ hk))

/-- R182: every link that is met is left with an empty reply queue. -/
theorem emptiedLinks_replies : ∀ (ls : List Nat) (a : State × Emptied), (∀ l ∈ ls, l < Config.links) → Books 0 [] a.1 → ∀ l,
    (a.1.link l).replies = [] ∨ l ∈ ls → ((ls.foldl (fun acc l => State.emptyLink acc.1 l .disabled acc.2) a).1.link l).replies = []
  | [], _, _, _, _, h => h.resolve_right List.not_mem_nil
  | k :: ls, a, hls, b, l, h => by
    have hk := hls k List.mem_cons_self
    have hemptied := emptyLink_replies b (st := .disabled) (n := a.2) hk
    refine emptiedLinks_replies ls _ (fun j hj => hls j (List.mem_cons_of_mem _ hj)) ((emptyLink_balanced hk).books b) l ?_
    by_cases hlk : l = k
    · exact .inl (hlk ▸ hemptied.1)
    · rw [hemptied.2 l hlk]
      exact h.imp_right fun hm => (List.mem_cons.1 hm).resolve_left hlk

theorem engineReset_balanced : Balanced s (engineReset s).1 := by
  have hall : ∀ l ∈ linkNumbers, l < Config.links := fun _ => mem_linkNumbers.1
  have emptied : Balanced s s.emptyAllLinks.1 := emptiedLinks_balanced _ (s, Emptied.zero) hall
  have replies : Books 0 [] s → ∀ l < Config.links, (s.emptyAllLinks.1.link l).replies = [] := fun b l hl =>
    emptiedLinks_replies _ (s, Emptied.zero) hall b l (.inr (mem_linkNumbers.2 hl))
  unfold engineReset
  generalize s.emptyAllLinks = a at emptied replies ⊢
  exact ⟨fun o => (emptied.order o).congr rfl rfl, fun b => clearEngine_books (n := fun _ => _) (b := a.2) (emptied.books b) (replies b)⟩

theorem startPart_balanced : Balanced s (startPart s).1 := by
  have listened : JournalKept s s.listenAll := JournalKept.foldl (fun t l => by
    split
    · exact setLink_kept rfl
    · exact JournalKept.refl t) _ s
  unfold startPart; split
  · exact Balanced.refl s
  · split
    · exact Balanced.refl s
    · generalize s.listenAll = t at listened ⊢
      exact done_balanced (listened.balanced.trans (.beside rfl))

theorem setLimits_balanced {x : LimitsFields} : Balanced s (setLimits x s).1 := by
  unfold setLimits; dsimp only; split <;> exact .beside rfl

theorem timeSet_balanced {x : TimeFields} : Balanced s (timeSet x s).1 := by
  unfold timeSet; split
  · exact Balanced.refl s
  · split
    · exact Balanced.refl s
    · dsimp only; split
      · exact ((withClock_only s _).journalKept rfl).balanced
      · split
        · exact Balanced.refl s
        · exact moveClock_journalKept.balanced

theorem setNotices_balanced {x : NoticeFields} : Balanced s (setNotices x s).1 := by
  unfold setNotices; split
  · exact Balanced.refl s
  · exact Balanced.refl s
  · split <;> exact .beside rfl

theorem readCounters_balanced : Balanced s (readCounters s).1 := by
  have zeroed : Balanced s { s with counters := ⟨Counter.zero, Counter.zero, Counter.zero, Counter.zero⟩ } := .beside rfl
  have cleared := (mapLinks_kept (s := { s with counters := ⟨Counter.zero, Counter.zero, Counter.zero, Counter.zero⟩ })
    (f := Link.clearCounters) rfl fun _ => rfl).balanced
  exact done_balanced (zeroed.trans cleared)

theorem withProgram_balanced {b : Byte} {act : Nat → State → Answer} (h : ∀ n, Balanced s (act n s).1) :
    Balanced s (withProgram b s act).1 := by
  rw [withProgram_eq]; split
  · exact Balanced.refl s
  · exact h _

theorem programSet_balanced {x : ProgramFields} : Balanced s (programSet x s).1 := withProgram_balanced fun _ => by
  split
  · exact Balanced.refl s
  · split
    · exact Balanced.refl s
    · split <;> exact .beside rfl

theorem programActivate_balanced {b : Byte} : Balanced s (programActivate b s).1 := withProgram_balanced fun _ => by
  split
  · exact Balanced.refl s
  · split
    · exact Balanced.refl s
    · split <;> exact .beside rfl

theorem programDeactivate_balanced {b : Byte} : Balanced s (programDeactivate b s).1 := withProgram_balanced fun _ => by
  split
  · exact Balanced.refl s
  · split <;> exact .beside rfl

theorem programLock_balanced {b : Byte} : Balanced s (programLock b s).1 := withProgram_balanced fun _ => by
  split
  · exact Balanced.refl s
  · split <;> exact .beside rfl

theorem passRangeSet_balanced {x : PassRangeFields} : Balanced s (passRangeSet x s).1 := by
  unfold passRangeSet; split
  · exact Balanced.refl s
  · dsimp only; split <;> exact .beside rfl

theorem siteSet_balanced {x : SiteFields} : Balanced s (siteSet x s).1 := by
  unfold siteSet; split
  · exact Balanced.refl s
  · split
    · exact Balanced.refl s
    · split <;> exact .beside rfl

theorem sliceAssign_balanced {x : SliceFields} : Balanced s (sliceAssign x s).1 := by
  unfold sliceAssign; split
  · exact Balanced.refl s
  · split
    · exact Balanced.refl s
    · split
      · exact Balanced.refl s
      · split <;> exact .beside rfl

theorem directoryMode_balanced {b : Byte} : Balanced s (directoryMode b s).1 := by
  unfold directoryMode; split
  · exact Balanced.refl s
  · split
    · exact Balanced.refl s
    · split
      · exact Balanced.refl s
      · exact .beside rfl
      · exact .beside rfl
      · split <;> exact .beside rfl

theorem withCard_balanced {w : Word64} {act : Nat → State → Answer} (h : ∀ card, Balanced s (act card s).1) :
    Balanced s (withCard w s act).1 := by
  unfold withCard; split
  · exact Balanced.refl s
  · exact h _

theorem cardEvict_balanced {w : Word64} : Balanced s (cardEvict w s).1 := withCard_balanced fun _ => by
  split
  · split <;> exact .beside rfl
  · exact Balanced.refl s
  · exact Balanced.refl s

theorem adjusting_balanced {w : Word64} {act : Nat → CardRecord → State → Answer} (h : ∀ card r t, Balanced t (act card r t).1) :
    Balanced s (adjusting w s act).1 := by
  unfold adjusting; split
  · exact Balanced.refl s
  · refine withCard_balanced fun _ => ?_
    split
    · exact Balanced.refl s
    · split
      · exact Balanced.refl s
      · split
        · exact (readRecord_journalKept ‹_›).balanced.trans (h _ _ _)
        · exact (readRecord_journalKept ‹_›).balanced

theorem occupied_journalKept {b : Bool} (h : s.occupied card = (t, b)) : JournalKept s t := by
  unfold State.occupied at h; split at h <;>
    (obtain ⟨rfl, -⟩ := Prod.mk.inj h; exact readRecord_journalKept ‹_›)

theorem loadAbsent_balanced {d : Option CardData} : Balanced s (loadAbsent d card s).1 := by
  unfold loadAbsent; split
  · exact Balanced.refl s
  · split
    · exact Balanced.refl s
    · split
      · exact Balanced.refl s
      · split
        · exact Balanced.refl s
        · exact .beside rfl

theorem cardAdjustLoad_balanced {x : CardWire} : Balanced s (cardAdjustLoad x s).1 := by
  unfold cardAdjustLoad; split
  · exact Balanced.refl s
  · split
    · exact Balanced.refl s
    · unfold loadRecord; split
      · exact (occupied_journalKept ‹_›).balanced
      · exact (occupied_journalKept ‹_›).balanced.trans loadAbsent_balanced

theorem cardAdjustUnload_balanced {w : Word64} : Balanced s (cardAdjustUnload w s).1 := adjusting_balanced fun _ _ t => by
  split
  · exact Balanced.refl t
  · split <;> exact .beside rfl

/-- R23, R126: an ADJUST record joins where the admission test has found its room. -/
theorem setBonusTo_balanced {bonus : Nat} {carried : Option Nat} {r : CardRecord} : Balanced s (setBonusTo bonus carried card r s).1 := by
  unfold setBonusTo; dsimp only; split
  · exact Balanced.refl s
  · split
    · exact done_balanced ((s.writeData_only card _).journalKept rfl).balanced
    · split
      · next h => exact (admission_kept h).1.balanced
      · next h =>
        obtain ⟨admitted, hroom⟩ := admission_kept h
        refine done_balanced ((admitted.trans ((State.writeData_only _ card _).journalKept rfl)).trans (joinRecord_kept ?_)).balanced
        rw [(State.writeData_only _ card _).journal]
        exact hroom rfl

theorem cardAdjustSetBonus_balanced {x : SetBonusFields} : Balanced s (cardAdjustSetBonus x s).1 := adjusting_balanced fun _ _ t => by
  unfold setBonus; split
  · exact Balanced.refl t
  · split
    · exact Balanced.refl t
    · exact setBonusTo_balanced

theorem setStatus_balanced {status : CardStatus} {w : Word64} : Balanced s (setStatus status w s).1 :=
  adjusting_balanced fun card _ t => done_balanced ((t.writeData_only card _).journalKept rfl).balanced

theorem directoryReadCard_balanced {w : Word64} : Balanced s (directoryReadCard w s).1 := withCard_balanced fun card => by
  show Balanced s (s.cardReport card).1
  unfold State.cardReport; split
  · split
    · exact Balanced.refl s
    · exact ((s.checkFault_only _ _).journalKept rfl).balanced
  · exact Balanced.refl s
  · exact Balanced.refl s

theorem directoryReadSet_balanced {n : Word16} : Balanced s (directoryReadSet n s).1 := by
  unfold directoryReadSet; split <;> exact Balanced.refl s

theorem windowSet_balanced {x : WindowFields} : Balanced s (windowSet x s).1 := by
  unfold windowSet; dsimp only; split
  · exact Balanced.refl s
  · split
    · exact Balanced.refl s
    · split
      · exact Balanced.refl s
      · split
        · exact done_balanced (setLink_balanced rfl)
        · exact done_balanced (setLink_balanced rfl)

theorem withLink_balanced {b : Byte} {act : Nat → State → Answer} (h : ∀ l < Config.links, Balanced s (act l s).1) :
    Balanced s (withLink b s act).1 := by
  unfold withLink; split
  · next hl => exact h _ hl
  · exact Balanced.refl s

theorem setEnabled_journalKept {b : Bool} : JournalKept s (s.setEnabled l b) := setLink_kept rfl

theorem linkEnable_balanced {b : Byte} : Balanced s (linkEnable b s).1 := withLink_balanced fun l _ => by
  dsimp only; split
  · exact done_balanced ((setEnabled_journalKept (b := true)).balanced.trans (setLink_balanced rfl))
  · exact done_balanced setEnabled_journalKept.balanced

theorem linkDisable_balanced {b : Byte} : Balanced s (linkDisable b s).1 := withLink_balanced fun l hl => by
  dsimp only; split
  · exact done_balanced setEnabled_journalKept.balanced
  · exact done_balanced (setEnabled_journalKept.balanced.trans (emptyLink_balanced hl))

theorem linkReset_balanced {b : Byte} : Balanced s (linkReset b s).1 := withLink_balanced fun _ hl => by
  split
  · exact Balanced.refl s
  · exact done_balanced (emptyLink_balanced hl)

theorem setExpectedIdentity_balanced {x : IdentityFields} : Balanced s (setExpectedIdentity x s).1 :=
  withLink_balanced fun _ _ => done_balanced (setLink_balanced rfl)

/-! ### Site links (R157 to R161) -/

theorem siteFrame_balanced {α : Type} {f : SiteFrame α} {listening up : α → State → State} (h : ∀ x, Balanced s (listening x s))
    (k : ∀ x, Balanced s (up x s)) : Balanced s (siteFrame l f s listening up) := by
  have damaged : Balanced s (s.badFrame l) := setLink_balanced rfl
  unfold siteFrame; split
  · exact Balanced.refl s
  · exact damaged
  · exact damaged
  · exact h _
  · exact k _

theorem rejectHello_balanced {b : Bool} {h : HelloFields} : Balanced s (s.rejectHello l b h) := by
  have sent := (transmit_journalKept (s := s) (l := l) (m := .linkReject b)).balanced
  have counted : Balanced (s.transmit l (.linkReject b))
    ((s.transmit l (.linkReject b)).setLink l { (s.transmit l (.linkReject b)).link l with rejected := (s.link l).rejected.bump }) :=
    setLink_balanced rfl
  exact (sent.trans counted).trans ((State.raise_only _ _ _).journalKept rfl).balanced

theorem acceptHello_balanced {h : HelloFields} : Balanced s (s.acceptHello l h) := by
  have accepted : Balanced s (s.setLink l ((s.link l).accept h s.limits.presence)) := setLink_balanced rfl
  exact (accepted.trans transmit_journalKept.balanced).trans ((State.raise_only _ _ _).journalKept rfl).balanced

theorem meetHello_balanced {h : HelloFields} : Balanced s (meetHello l h s) := by
  unfold meetHello; split
  · exact rejectHello_balanced
  · split
    · exact rejectHello_balanced
    · exact acceptHello_balanced

theorem dropInbound_journalKept : JournalKept s (s.dropInbound l) := setLink_kept rfl

theorem offer_journalKept {m : TillMsg} : JournalKept s (s.offer l m) := by
  unfold State.offer; split
  · exact setLink_kept rfl
  · exact dropInbound_journalKept

/-! ### Take-off (R162) -/

theorem State.take_stands (s : State) (l : Nat) (e : ReplyEntry) (rest : List TillMsg) (k : Nat) :
    (s.take l e rest).stands k = if k = l then s.stands l ++ [e.stand] else s.stands k := by
  have := s.setLink_stands l { s.link l with inbound := rest, replies := (s.link l).replies ++ [e] } k
  rw [List.map_append] at this
  exact this

/-- R162: the request of a new entry is being dealt with. -/
theorem take_moves {m : TillMsg} {rest : List TillMsg} (hl : l < Config.links) :
    Moves 0 [] 0 [⟨l, s.nextSlot⟩] s (s.take l (s.newEntry l m) rest) where
  order o := o.congr rfl rfl
  books b := by
    have hst := s.take_stands l (s.newEntry l m) rest
    have hfresh : ∀ k, ∀ v ∈ s.stands k, v.slot ≠ s.nextSlot := fun k v hv => (b.given k v hv).ne
    have hmem : ∀ {k v}, v ∈ (s.take l (s.newEntry l m) rest).stands k → v ∈ s.stands k ∨ v = (s.newEntry l m).stand := fun {k v} hv => by
      rw [hst] at hv; split at hv
      · next hk => subst hk; exact (List.mem_append.1 hv).imp_right List.mem_singleton.1
      · exact .inl hv
    have hwaiting : (s.take l (s.newEntry l m) rest).waiting = s.waiting := rfl
    have hslots : (s.take l (s.newEntry l m) rest).slotsHeld = s.slotsHeld := Finset.sum_congr rfl fun k _ => by
      unfold State.slotsAt; rw [hst]; split
      · next hk => rw [hk]; simp [Stand.slots, ReplyEntry.stand, State.newEntry, ReplyEntry.undo?]
      · rfl
    refine ⟨b.requests, Table.wf_set _ _ _ b.links, fun k => ?_, fun k v hv => ?_, ?_, fun w hw => ?_, fun k hk v hv u hu => ?_, ?_,
      b.room⟩
    · rw [hst]; split
      · rw [List.map_append, List.nodup_append]
        refine ⟨b.numbers l, List.nodup_singleton _, fun x hx y hy => ?_⟩
        obtain ⟨v, hv, rfl⟩ := List.mem_map.1 hx
        rw [List.mem_singleton.1 hy]
        exact hfresh l v hv
      · exact b.numbers k
    · show v.slot < s.nextSlot + 1
      rcases hmem hv with h | h
      · exact (b.given k v h).trans (Nat.lt_succ_self _)
      · rw [h]; exact Nat.lt_succ_self _
    · refine List.nodup_cons.2 ⟨fun hw => ?_, b.apart⟩
      obtain ⟨-, v, hv, hslot, -⟩ := b.reserved ⟨l, s.nextSlot⟩ hw
      exact hfresh l v hv hslot
    · rcases List.mem_cons.1 hw with rfl | hw
      · exact ⟨hl, (s.newEntry l m).stand, by rw [hst, if_pos rfl]; exact List.mem_append_right _ List.mem_cons_self, rfl, rfl⟩
      · obtain ⟨hlink, v, hv, hv'⟩ := b.reserved w hw
        refine ⟨hlink, v, ?_, hv'⟩
        rw [hst]; split
        · next hk => exact List.mem_append_left _ (hk ▸ hv)
        · exact hv
    · rcases hmem hv with h | h
      · exact b.undos k hk v h u hu
      · rw [h] at hu; cases hu
    · rw [hslots]; exact b.held

theorem takeOff_balanced {want : TillKind → Bool} {act : ReplyEntry → NotedTill → State → State} (hl : l < Config.links)
    (h : ∀ e n t, Served l e.slot t (act e n t)) : Balanced s (takeOff l want s act) := by
  unfold takeOff; split
  · exact Balanced.refl s
  · split
    · dsimp only; split
      · exact (take_moves hl).trans (decline_served (e := s.newEntry l _) [])
      · exact (take_moves hl).trans (h (s.newEntry l _) _ _ [])
    · exact Balanced.refl s

theorem moneyChecks_served {n : NotedTill} {a b : Bool} {amount : Nat} {act : State → State} (h : Served l e.slot s (act s)) :
    Served l e.slot s (moneyChecks l e n a b amount s act) := by
  unfold moneyChecks; split
  · exact declineField_served
  · split
    · exact declineField_served
    · split
      · exact ready_served
      · split
        · exact decline_served
        · exact h.kept settle_journalKept

theorem bindTo_served {b : Binding} {act : ReplyEntry → State → State} (h : ∀ e t, Served l e.slot t (act e t)) :
    Served l e.slot s (bindTo l e b s act) :=
  JournalKept.served (modEntry_kept (f := fun x => { x with bound := b }) fun _ => rfl) (h { e with bound := b } _)

theorem withCardProgram_served : Served l e.slot s (withCardProgram l e s) := by
  unfold withCardProgram; split
  · exact unexpected_served
  · exact underProgram_served fun _ => directoryDecision_served

section
variable {n : NotedTill}

theorem reverseFrom_served : Served l e.slot s (reverseFrom l e n s) := by
  unfold reverseFrom; split
  · exact decline_served
  · exact decline_served
  · refine bindTo_served fun _ t => ?_
    unfold reverseEntry; dsimp only; split
    · exact ((t.setMark_only n.till _ true).journalKept rfl).served standInReverse_served
    · exact ((t.setMark_only n.till _ true).journalKept rfl).served directoryDecision_served

theorem holdFrom_served : Served l e.slot s (holdFrom l e n s) := by
  unfold holdFrom; split
  · exact unexpected_served
  · split
    · exact decline_served
    · exact withCardProgram_served

theorem settleHold_served : Served l e.slot s (settleHold l e n s) := by
  unfold settleHold; split
  · exact unexpected_served
  · split
    · split
      · exact bindTo_served fun _ _ => directoryDecision_served
      · exact decline_served
    · split
      · exact decline_served
      · exact refer_served

theorem openTillAt_served : Served l e.slot s (openTillAt l e n s) := by
  unfold openTillAt; dsimp only; split
  · exact declineField_served
  · exact ((s.setTill_only _ _).journalKept rfl).served ready_served

theorem closeTillAt_served : Served l e.slot s (closeTillAt l e n s) := by
  unfold closeTillAt; dsimp only; split
  · exact ((s.setTill_only _ _).journalKept rfl).served ready_served
  · exact declineField_served

end

end

/-! ### The steps -/

section
variable {s t u : State}

theorem next_balanced (h : (Host.Outcome.next u : Result) = .next t) (k : Balanced s u) : Balanced s t := by cases h; exact k

/-- Every command and event but a power-on reset. -/
theorem exec_balanced {i : Instr} (hi : i ≠ .powerOnReset) (h : exec i s = .next t) : Balanced s t := by
  cases i with
  | powerOnReset => exact absurd rfl hi
  | resetEngine f => exact next_balanced h (command_balanced fun _ => engineReset_balanced)
  | start f => exact next_balanced h (command_balanced fun _ => startPart_balanced)
  | setLimits f => exact next_balanced h (command_balanced fun _ => setLimits_balanced)
  | timeSet f => exact next_balanced h (command_balanced fun _ => settled_balanced timeSet_balanced)
  | programSet f => exact next_balanced h (command_balanced fun _ => programSet_balanced)
  | programActivate f => exact next_balanced h (command_balanced fun _ => programActivate_balanced)
  | programDeactivate f => exact next_balanced h (command_balanced fun _ => programDeactivate_balanced)
  | programLock f => exact next_balanced h (command_balanced fun _ => programLock_balanced)
  | rangeProbe f => exact next_balanced h (command_balanced fun x => by rw [rangeProbe_fst]; exact Balanced.refl s)
  | passRangeSet f => exact next_balanced h (command_balanced fun _ => passRangeSet_balanced)
  | directoryMode f => exact next_balanced h (command_balanced fun _ => settled_balanced directoryMode_balanced)
  | cardEvict f => exact next_balanced h (command_balanced fun _ => settled_balanced cardEvict_balanced)
  | cardAdjustLoad f => exact next_balanced h (command_balanced fun _ => cardAdjustLoad_balanced)
  | cardAdjustUnload f => exact next_balanced h (command_balanced fun _ => cardAdjustUnload_balanced)
  | cardAdjustSetBonus f => exact next_balanced h (command_balanced fun _ => cardAdjustSetBonus_balanced)
  | cardAdjustBlock f => exact next_balanced h (command_balanced fun _ => setStatus_balanced)
  | cardAdjustUnblock f => exact next_balanced h (command_balanced fun _ => setStatus_balanced)
  | directoryReadSummary f => exact next_balanced h (command_balanced fun _ => Balanced.refl s)
  | directoryReadCard f => exact next_balanced h (command_balanced fun _ => settled_balanced directoryReadCard_balanced)
  | directoryReadSet f => exact next_balanced h (command_balanced fun _ => directoryReadSet_balanced)
  | readFault f => exact next_balanced h (command_balanced fun _ => .beside rfl)
  | siteSet f => exact next_balanced h (command_balanced fun _ => siteSet_balanced)
  | sliceAssign f => exact next_balanced h (command_balanced fun _ => sliceAssign_balanced)
  | windowSet f => exact next_balanced h (command_balanced fun _ => windowSet_balanced)
  | linkControlEnable f => exact next_balanced h (command_balanced fun _ => linkEnable_balanced)
  | linkControlDisable f => exact next_balanced h (command_balanced fun _ => settled_balanced linkDisable_balanced)
  | linkControlReset f => exact next_balanced h (command_balanced fun _ => settled_balanced linkReset_balanced)
  | linkControlSetExpectedIdentity f => exact next_balanced h (command_balanced fun _ => setExpectedIdentity_balanced)
  | setNotices f => exact next_balanced h (command_balanced fun _ => setNotices_balanced)
  | readEvents f => exact next_balanced h (command_balanced fun _ => .beside rfl)
  | readCounters f => exact next_balanced h (command_balanced fun _ => readCounters_balanced)
  | readStatus f => exact next_balanced h (command_balanced fun _ => Balanced.refl s)
  | unknownCommand f => refine next_balanced h ?_; split <;> exact .beside rfl
  | cardData f => exact next_balanced h (hostAnswer_balanced fun _ _ _ _ => takeCardData_balanced)
  | noSuchCard f => exact next_balanced h (hostAnswer_balanced fun _ _ _ _ => takeNoSuchCard_balanced)
  | referralAnswer f => exact next_balanced h (hostAnswer_balanced fun _ _ _ _ => takeReferralAnswer_balanced)
  | posted f => exact next_balanced h takePosted_balanced
  | journalSend =>
    refine next_balanced h ?_
    split
    · exact JournalKept.balanced (.of_stands (fun hw => ⟨hw, List.Subperm.refl _⟩) (fun hw => ⟨hw, fun _ => rfl⟩) rfl rfl)
    · exact Balanced.refl s
  | linkHello link f =>
    exact next_balanced h (siteFrame_balanced (fun _ => meetHello_balanced)
      fun _ => (loseLink_balanced link.isLt).settle.trans meetHello_balanced)
  | presence link f => exact next_balanced h (siteFrame_balanced (fun _ => Balanced.refl s) fun _ => setLink_balanced rfl)
  | tillMessageArrival link f =>
    have reloaded : Balanced s (s.reload link.val) := setLink_balanced rfl
    exact next_balanced h (siteFrame_balanced (fun _ => dropInbound_journalKept.balanced)
      fun _ => reloaded.trans offer_journalKept.balanced)
  | presenceTimeout link =>
    refine next_balanced h ?_
    split
    · exact (loseLink_balanced link.isLt).settle
    · exact Balanced.refl s
  | openTill link => exact next_balanced h (takeOff_balanced link.isLt fun _ _ _ => openTillAt_served)
  | closeTill link => exact next_balanced h (takeOff_balanced link.isLt fun _ _ _ => closeTillAt_served)
  | enquiry link => exact next_balanced h (takeOff_balanced link.isLt fun _ _ _ => moneyChecks_served withCardProgram_served)
  | redeem link => exact next_balanced h (takeOff_balanced link.isLt fun _ _ _ => moneyChecks_served withCardProgram_served)
  | hold link => exact next_balanced h (takeOff_balanced link.isLt fun _ _ _ => moneyChecks_served holdFrom_served)
  | complete link => exact next_balanced h (takeOff_balanced link.isLt fun _ _ _ => moneyChecks_served settleHold_served)
  | release link => exact next_balanced h (takeOff_balanced link.isLt fun _ _ _ => moneyChecks_served settleHold_served)
  | reverse link => exact next_balanced h (takeOff_balanced link.isLt fun _ _ _ => moneyChecks_served reverseFrom_served)
  | reload link => exact next_balanced h (takeOff_balanced link.isLt fun _ _ _ => moneyChecks_served withCardProgram_served)
  | unknownTillKind link => exact next_balanced h (takeOff_balanced link.isLt fun _ _ _ => declineField_served)
  | delivery link =>
    refine next_balanced h ?_
    split
    · next hready =>
      obtain ⟨he, hst, hu⟩ := oldestReady_some hready
      exact (deliver_balanced link.isLt he hst hu).settle
    · exact Balanced.refl s
  | fetchAnswerTimeout tag =>
    refine next_balanced h ?_
    split
    · next hf =>
      split
      · exact (fetchTimedOut_balanced hf).settle
      · exact Balanced.refl s
    · exact Balanced.refl s
  | fetchGateTimeout tag =>
    refine next_balanced h ?_
    split
    · next hf =>
      split
      · exact Balanced.refl s
      · exact (fetchTimedOut_balanced hf).settle
    · exact Balanced.refl s
  | referralTimeout tag =>
    refine next_balanced h ?_
    split
    · next hx => exact referralTimedOut_balanced hx rfl
    · exact Balanced.refl s
  | gateTimeout link sequence =>
    refine next_balanced h ?_
    split
    · next hgated =>
      obtain ⟨he, timer, hst⟩ := gatedOn_some hgated
      exact (gateTimeout_balanced link.isLt he (by simp [hst]) (by simp [ReplyEntry.undo?, hst])).settle
    · exact Balanced.refl s
  | holdExpiry site ref =>
    refine next_balanced h ?_
    split
    · split
      · exact runUntil_balanced.settle
      · exact Balanced.refl s
    · exact Balanced.refl s
  | dayRollover =>
    refine next_balanced h ?_
    split
    · exact Balanced.refl s
    · exact runUntil_balanced.settle
  | storedContentAltered set way x => exact next_balanced h (.beside rfl)
  | serviceMessageTransmitted =>
    refine next_balanced h ?_
    split
    · split <;> exact .beside rfl
    · exact Balanced.refl s

/-- R139: the journal after a power-on reset. -/
theorem reset_balanced (s : State) (is : List Instr) : Balanced s { State.reset with pending := is } := by
  obtain ⟨hc, -, -, -, -, -, -, -, hl, -, hj, -, -, -, hw, hs, hb, -⟩ := resetMeetsEveryInvariant
  exact ⟨fun _ => hj.congr rfl rfl, fun _ => ((JournalKept.beside rfl).balanced).books (books_of_invariants hc hl hw hs hb)⟩

theorem step_balanced (h : step s = .next t) : Balanced s t := by
  by_cases hi : s.pending.head? = some .powerOnReset
  · obtain ⟨is, rfl⟩ := step_of_powerOnReset hi h
    exact reset_balanced s is
  · cases hp : s.pending with
    | nil => rw [step_of_nil hp] at h; exact next_balanced h pass_balanced
    | cons c rest =>
      rw [step_of_cons hp] at h
      rw [hp] at hi
      exact Balanced.trans (t := { s with pending := rest }) (.beside rfl) (exec_balanced (fun hc => hi (congrArg some hc)) h)

end

/-- Settles O54, by what each command and event does to the queue: a record joins at the newest end under the next sequence, the oldest
records leave, or the queue stays. -/
theorem everyStepKeepsTheJournalInOrder : Obligations.EveryStepKeepsTheJournalInOrder := fun _ _ o h => (step_balanced h).order o

/-- Settles O55, by books that hold of the part between any two of the operations of a step, with what is owed and who is being dealt
with there, and that come out even at its end. -/
theorem everyStepKeepsTheJournalWithinBounds : Obligations.EveryStepKeepsTheJournalWithinBounds := fun _ _ hc hl hw hs hj h =>
  have b := (step_balanced h).books (books_of_invariants hc hl hw hs hj)
  ⟨b.waiters, b.slots, b.bounds⟩

end Sys2Proof.Machine
end

section
/-! The transmission of the message at the front of the service link (R129, R178, R192). -/

namespace Sys2Proof.Machine

section
variable {s : State} {m : HostMsg} {rest : List HostMsg}

theorem HostMsg.isJournal_eq_false (h : ∀ r posted, m ≠ .journal r posted) : m.isJournal = false := by
  unfold HostMsg.isJournal; split
  · next r posted => exact absurd rfl (h r posted)
  · rfl

theorem execJournalSend_journal {r : JournalRecord} {posted : Nat} (h : s.out = .journal r posted :: rest) :
    execJournalSend s = .next { s with
      out := rest, sentToHost := s.sentToHost ++ [.journal r s.journal.highestPosted]
      journal := { s.journal with highestSent := r.sequence } } := by
  unfold execJournalSend; rw [h]

theorem execJournalSend_other (h : s.out = m :: rest) (hm : m.isJournal = false) : execJournalSend s = .next s := by
  unfold execJournalSend; split
  · next hj => rw [h] at hj; cases hj; cases hm
  · rfl

theorem execServiceMessageTransmitted_journal (h : s.out = m :: rest) (hm : m.isJournal = true) :
    execServiceMessageTransmitted s = .next s := by
  unfold execServiceMessageTransmitted; rw [h]; dsimp only; rw [if_pos hm]

theorem execServiceMessageTransmitted_other (h : s.out = m :: rest) (hm : m.isJournal = false) :
    execServiceMessageTransmitted s = .next { s with out := rest, sentToHost := s.sentToHost ++ [m] } := by
  unfold execServiceMessageTransmitted; rw [h]; dsimp only; rw [if_neg (by rw [hm]; exact Bool.false_ne_true)]

end

/-- Settles O27: each of the two rows takes the front message of its own kind, and leaves one of the other kind where it stands. -/
theorem messagesLeaveInOrder : Obligations.MessagesLeaveInOrder := by
  intro m rest s hout
  refine ⟨?_, fun hm => ?_⟩
  · rintro r posted rfl
    exact ⟨execJournalSend_journal hout, execServiceMessageTransmitted_journal hout rfl⟩
  · have hother := HostMsg.isJournal_eq_false hm
    exact ⟨execServiceMessageTransmitted_other hout hother, execJournalSend_other hout hother⟩

end Sys2Proof.Machine
end

section
/-! A valid POSTED (R108, R130, R134, R137): the records that leave, the counts and the replies that they held, and the fetch gates. -/

namespace Sys2Proof.Machine
open Piece

/-! ### The records that leave (R130) -/

theorem splitAtSequence_skip {n : Nat} {ys : List JournalRecord} : ∀ {xs : List JournalRecord}, (∀ x ∈ xs, x.sequence ≠ n) →
    splitAtSequence n (xs ++ ys) = (splitAtSequence n ys).map (fun p => (xs ++ p.1, p.2))
  | [], _ => by simp
  | x :: xs, h => by
    obtain ⟨hx, hxs⟩ := List.forall_mem_cons.1 h
    show (if x.sequence = n then some ([x], xs ++ ys) else (splitAtSequence n (xs ++ ys)).map fun p => (x :: p.1, p.2)) = _
    rw [if_neg hx, splitAtSequence_skip hxs, Option.map_map]; rfl

theorem splitAtSequence_head {n : Nat} {r : JournalRecord} : ∀ {b : List JournalRecord}, (∃ h ∈ r :: b, h.sequence = n) →
    ∃ p : List JournalRecord × List JournalRecord, splitAtSequence n (r :: b) = some (r :: p.1, p.2) := fun {b} h => by
  show ∃ p : List JournalRecord × List JournalRecord, (if r.sequence = n then _ else _) = some (r :: p.1, p.2)
  split
  · exact ⟨([], b), rfl⟩
  · next hr =>
    obtain ⟨x, hx, hn⟩ := h
    have hx := (List.mem_cons.1 hx).resolve_left fun h => hr (h ▸ hn)
    cases b with
    | nil => cases hx
    | cons c b =>
      obtain ⟨p, hp⟩ := splitAtSequence_head ⟨x, hx, hn⟩
      exact ⟨(c :: p.1, p.2), by rw [hp]; rfl⟩

/-- R130: the posted record stands in the queue, with the highest sent at it or behind it. -/
theorem Journal.postable_some {j : Journal} {n : Nat} {xs b : List JournalRecord} {r : JournalRecord} (hrec : j.records = xs ++ r :: b)
    (hn : r.sequence = n) (hxs : ∀ x ∈ xs, x.sequence ≠ n ∧ x.sequence ≠ j.highestSent)
    (hs : ∃ h ∈ r :: b, h.sequence = j.highestSent) : j.postable n = some (xs ++ [r], b) := by
  obtain ⟨p, hp⟩ := splitAtSequence_head hs
  have hsent : j.sentRecords = xs ++ r :: p.1 := by
    unfold Journal.sentRecords
    rw [hrec, splitAtSequence_skip fun x hx => (hxs x hx).2, hp]; rfl
  have hcut : splitAtSequence n (r :: b) = some ([r], b) := if_pos hn
  unfold Journal.postable
  rw [hsent, if_pos, hrec, splitAtSequence_skip fun x hx => (hxs x hx).1, hcut]
  · rfl
  · exact List.any_eq_true.2 ⟨r, List.mem_append_right _ List.mem_cons_self, decide_eq_true hn⟩

/-! ### The unposted counts (R130) -/

theorem CardRecord.eq_seal {r : CardRecord} (h : r.verifies = true) : r = sealRecord r.data r.unposted := by
  obtain ⟨data, unposted, check⟩ := r
  exact congrArg (CardRecord.mk data unposted) (of_decide_eq_true h)

section
variable {s : State} {card : Nat}

/-- Outside a flush the uncounting of a card's removed record writes its resident record, takes it as a check fault, or is nothing. -/
theorem State.uncountUnposted_cases (hmode : s.dirMode.isFlushing = false) (card : Nat) :
    (∃ no r stay, s.findWay card = some ⟨no, .valid r stay⟩ ∧ r.verifies = true ∧
      s.uncountUnposted card = s.writeUnposted card (fun n => n - 1)) ∨
    (∃ no r stay, s.findWay card = some ⟨no, .valid r stay⟩ ∧ r.verifies = false ∧ s.uncountUnposted card = s.checkFault card no) ∨
    ((∀ no r stay, s.findWay card ≠ some ⟨no, .valid r stay⟩) ∧ s.uncountUnposted card = s) := by
  unfold State.uncountUnposted; split
  · next no r stay hf =>
    split
    · next hv => exact .inl ⟨no, r, stay, hf, hv, by dsimp only; rw [if_neg (by simp [hmode])]⟩
    · next hv => exact .inr (.inl ⟨no, r, stay, hf, by simpa using hv, rfl⟩)
  · next hn => exact .inr (.inr ⟨hn, rfl⟩)

theorem State.uncountUnposted_sets (hmode : s.dirMode.isFlushing = false) (hsets : ∀ k, (s.dirSet k).inOrder k) (k : Nat) :
    ((s.uncountUnposted card).dirSet k).inOrder k := by
  obtain ⟨no, r, stay, hf, -, h⟩ | ⟨no, r, stay, -, -, h⟩ | ⟨-, h⟩ := s.uncountUnposted_cases hmode card
  · rw [h]
    unfold State.writeUnposted State.writeRecord
    rw [hf]; dsimp only
    rw [State.setDirSet_dirSet]; split
    · next hk =>
      rw [hk]
      exact State.inOrder_put_record (hsets _) hf (congrArg some (Option.some.inj (State.findWay_card hf)))
    · exact hsets k
  · rw [h]
    exact State.inOrder_dropWay (hsets k)
  · rw [h]; exact hsets k

theorem State.recordOf_uncountUnposted (hmode : s.dirMode.isFlushing = false) (hsets : ∀ k, (s.dirSet k).inOrder k) {c stay : Nat}
    {x : CardRecord} (hx : s.recordOf c = some (x, stay)) (hv : x.verifies = true) :
    (s.uncountUnposted card).recordOf c = some (sealRecord x.data (x.unposted - if card = c then 1 else 0), stay) := by
  have hsame : some (x, stay) = some (sealRecord x.data (x.unposted - 0), stay) := by rw [Nat.sub_zero, ← CardRecord.eq_seal hv]
  obtain ⟨no, r, stay', hf, -, h⟩ | ⟨no, r, stay', hf, hbad, h⟩ | ⟨hn, h⟩ := s.uncountUnposted_cases hmode card
  · have hr := State.recordOf_of_findWay hf
    rw [h, State.recordOf_writeUnposted _ (hsets _) hr (State.recordOf_card hr)]
    by_cases hc : c = card
    · subst hc
      rw [hx] at hr
      cases hr
      rw [if_pos rfl, if_pos rfl]
    · rw [if_neg hc, if_neg (Ne.symm hc), hx, hsame]
  · have hne : c ≠ card := by
      rintro rfl
      rw [State.recordOf_of_findWay hf] at hx
      cases hx
      rw [hv] at hbad; cases hbad
    have hdrop := State.recordOf_dropWay (hsets _) hf rfl (c := c)
    rw [h, if_neg hne.symm, ← hsame, ← hx]
    exact hdrop.trans (if_neg hne)
  · have hne : card ≠ c := by
      rintro rfl
      obtain ⟨no, hf⟩ := State.recordOf_some hx
      exact hn no x stay hf
    rw [h, hx, if_neg hne, hsame]

/-- R130: every removed record takes one from the count of its card. -/
theorem State.recordOf_retired {c stay : Nat} : ∀ (removed : List JournalRecord) (s : State) (x : CardRecord),
    s.dirMode.isFlushing = false → (∀ k, (s.dirSet k).inOrder k) → s.recordOf c = some (x, stay) → x.verifies = true →
    (removed.foldl State.retire s).recordOf c =
      some (sealRecord x.data (x.unposted - (removed.filter (fun y => decide (y.card = c))).length), stay)
  | [], _, x, _, _, hx, hv => by
    rw [List.foldl_nil, hx, List.filter_nil, List.length_nil, Nat.sub_zero, ← CardRecord.eq_seal hv]
  | r :: removed, s, x, hmode, hsets, hx, hv => by
    have hnext : (s.retire r).recordOf c = some (sealRecord x.data (x.unposted - if r.card = c then 1 else 0), stay) :=
      State.recordOf_uncountUnposted hmode hsets hx hv
    have hmode' : (s.retire r).dirMode.isFlushing = false := by rw [(s.retire_only r).dirMode]; exact hmode
    rw [List.foldl_cons, State.recordOf_retired removed _ _ hmode' (State.uncountUnposted_sets hmode hsets) hnext (sealRecord_verifies _ _)]
    simp only [sealRecord_data, sealRecord_unposted, List.filter_cons, decide_eq_true_eq]
    split
    · rw [List.length_cons, Nat.sub_sub, Nat.add_comm 1]
    · rw [Nat.sub_zero]

theorem State.retired_sets : ∀ (removed : List JournalRecord) (s : State), s.dirMode.isFlushing = false → (∀ k, (s.dirSet k).inOrder k) →
    ∀ k, ((removed.foldl State.retire s).dirSet k).inOrder k
  | [], _, _, hsets => hsets
  | r :: removed, s, hmode, hsets => State.retired_sets removed (s.retire r) (by rw [(s.retire_only r).dirMode]; exact hmode)
      (State.uncountUnposted_sets hmode hsets)

end

/-! ### The gated replies (R130, R134) -/

/-- R134: an entry once the records of these sequences are posted. -/
def ReplyEntry.openedBy (sequences : List Nat) (e : ReplyEntry) : ReplyEntry :=
  match e.state with
  | .gated reply undo awaited _ => if awaited ∈ sequences then { e with state := .ready reply (some undo) none } else e
  | _ => e

theorem ReplyEntry.openedBy_gated {e : ReplyEntry} {reply : TillReply} {u : UndoRecord} {awaited timer : Nat}
    (h : e.state = .gated reply u awaited timer) (sequences : List Nat) :
    e.openedBy sequences = if awaited ∈ sequences then { e with state := .ready reply (some u) none } else e := by
  unfold ReplyEntry.openedBy; rw [h]

theorem ReplyEntry.openedBy_other {e : ReplyEntry} (h : ∀ reply u awaited timer, e.state ≠ .gated reply u awaited timer)
    (sequences : List Nat) : e.openedBy sequences = e := by
  unfold ReplyEntry.openedBy; split
  · next hst => exact absurd hst (h _ _ _ _)
  · rfl

theorem ReplyEntry.openedBy_stays {e : ReplyEntry} {ms ns os : List Nat}
    (h : ∀ reply u awaited timer, e.state ≠ .gated reply u awaited timer) : (e.openedBy ms).openedBy ns = e.openedBy os := by
  rw [ReplyEntry.openedBy_other h ms, ReplyEntry.openedBy_other h ns, ReplyEntry.openedBy_other h os]

theorem openGated_eq (n : Nat) (e : ReplyEntry) : openGated n e = e.openedBy [n] := by
  unfold openGated ReplyEntry.openedBy
  cases e.state <;> simp

theorem ReplyEntry.openedBy_cons (n : Nat) (ns : List Nat) (e : ReplyEntry) : (e.openedBy [n]).openedBy ns = e.openedBy (n :: ns) := by
  cases hst : e.state with
  | gated reply u awaited timer =>
    rw [ReplyEntry.openedBy_gated hst, ReplyEntry.openedBy_gated hst]
    by_cases hn : awaited = n
    · rw [if_pos (by simp [hn]), if_pos (by simp [hn])]
      exact ReplyEntry.openedBy_other (fun _ _ _ _ h => by cases h) ns
    · rw [if_neg (by simpa using hn), ReplyEntry.openedBy_gated hst]
      exact if_congr (by simp [hn]) rfl rfl
  | reserved => exact ReplyEntry.openedBy_stays (fun _ _ _ _ h => by rw [hst] at h; cases h)
  | ready reply u referral => exact ReplyEntry.openedBy_stays (fun _ _ _ _ h => by rw [hst] at h; cases h)

theorem State.retire_link {s : State} (hwf : s.links.wf Link.default = true) (r : JournalRecord) (l : Nat) :
    (s.retire r).link l = { s.link l with replies := (s.link l).replies.map (ReplyEntry.openedBy [r.sequence]) } := by
  have hlinks := (s.uncountUnposted_only r.card).links
  have hget := Table.get_mapEntries Link.default (fun x : Link => { x with replies := x.replies.map (openGated r.sequence) }) rfl
    (hlinks ▸ hwf) l
  refine hget.trans ?_
  rw [hlinks, show openGated r.sequence = ReplyEntry.openedBy [r.sequence] from funext (openGated_eq _)]; rfl

theorem State.retired_link {l : Nat} : ∀ (removed : List JournalRecord) (s : State), s.links.wf Link.default = true →
    (removed.foldl State.retire s).link l =
      { s.link l with replies := (s.link l).replies.map (ReplyEntry.openedBy (removed.map (fun r => r.sequence))) }
  | [], s, _ => by
    have hid : ReplyEntry.openedBy [] = id := funext fun e => by
      unfold ReplyEntry.openedBy; split <;> rfl
    rw [List.foldl_nil, List.map_nil, hid, List.map_id]
  | r :: removed, s, hwf => by
    have hwf' : (s.retire r).links.wf Link.default = true :=
      Table.wf_mapEntries _ _ ((s.uncountUnposted_only r.card).links ▸ hwf)
    rw [List.foldl_cons, State.retired_link removed _ hwf', State.retire_link hwf]
    simp only [List.map_map, List.map_cons]
    congr 2
    exact funext fun e => ReplyEntry.openedBy_cons _ _ e

/-! ### The fetch gates (R108) -/

/-- R108: an entry of the Host Request Table once the gates are opened that the removed records alone held. -/
def State.gateOpened (s : State) (removed : List JournalRecord) (x : Option HostEntry) : Option HostEntry :=
  match x with
  | some ⟨gen, oldGens, timer, .fetch f⟩ =>
    if !f.sent && removed.any (fun r => decide (r.card = f.card)) && !s.names f.card then
      some ⟨gen, oldGens, s.limits.hostAnswer, .fetch { f with sent := true }⟩
    else some ⟨gen, oldGens, timer, .fetch f⟩
  | x => x

section
variable {s : State} {removed : List JournalRecord}

theorem State.gateOpened_of_unfetched {x : Option HostEntry} (h : x.bind HostEntry.fetch? = none) : s.gateOpened removed x = x := by
  unfold State.gateOpened; split
  · cases h
  · rfl

theorem State.gateOpened_idem (x : Option HostEntry) : s.gateOpened removed (s.gateOpened removed x) = s.gateOpened removed x := by
  rcases x with _ | ⟨gen, oldGens, timer, f | r⟩
  · rfl
  · unfold State.gateOpened; dsimp only
    by_cases h : (!f.sent && removed.any (fun r => decide (r.card = f.card)) && !s.names f.card) = true
    · rw [if_pos h]; rfl
    · rw [if_neg h]; dsimp only; rw [if_neg h]
  · rfl

theorem State.openFetchGate_request (tag k : Nat) : (State.openFetchGate removed s tag).request k =
    if k = tag then s.gateOpened removed (s.request tag) else s.request k := by
  have hself : ∀ x, s.request tag = x → s.request k = if k = tag then x else s.request k := fun x hx => by
    split
    · next hk => rw [hk, hx]
    · rfl
  unfold State.openFetchGate; split
  · next gen oldGens timer f hx =>
    rw [hx]; unfold State.gateOpened; dsimp only
    split
    · exact State.setRequest_request _ _ _ _
    · exact hself _ hx
  · next hx =>
    have hsame : s.gateOpened removed (s.request tag) = s.request tag := by
      unfold State.gateOpened; split
      · next hx' => exact absurd hx' (hx _ _ _ _)
      · rfl
    rw [hsame]; exact hself _ rfl

theorem State.gateOpened_congr {t : State} (h : Only [.requests, .out] s t) (x : Option HostEntry) :
    t.gateOpened removed x = s.gateOpened removed x := by
  unfold State.gateOpened State.names
  rw [h.limits, h.journal]

theorem State.openedGates_request (k : Nat) : ∀ (tags : List Nat) (s : State),
    (tags.foldl (State.openFetchGate removed) s).request k = if k ∈ tags then s.gateOpened removed (s.request k) else s.request k
  | [], _ => rfl
  | tag :: tags, s => by
    rw [List.foldl_cons, State.openedGates_request k tags, State.gateOpened_congr (State.openFetchGate_only s removed tag),
      State.openFetchGate_request]
    by_cases hk : k = tag
    · subst hk
      rw [if_pos rfl, State.gateOpened_idem, ite_self, if_pos List.mem_cons_self]
    · rw [if_neg hk]
      simp only [List.mem_cons, hk, false_or]

/-- R108: every gate is tried. -/
theorem State.openedAll_request (k : Nat) :
    (s.requests.keys.foldl (State.openFetchGate removed) s).request k = s.gateOpened removed (s.request k) := by
  rw [State.openedGates_request]; split
  · rfl
  · next hk =>
    have hnone : s.request k = none := by
      by_contra hne
      exact hk (Table.mem_keys_of_get_ne none s.requests k hne)
    rw [hnone]; rfl

end

/-! ### The whole (R130, R137) -/

theorem State.rearm_journal (s : State) : s.rearm.journal =
    { s.journal with highArmed := s.journal.highArmed || decide (s.journal.records.length ≤ Config.highMark) } := by
  unfold State.rearm; split
  · next h => rw [decide_eq_true h, Bool.or_true]
  · next h => rw [decide_eq_false h, Bool.or_false]

section
variable {s : State} {n : Nat} {a b : List JournalRecord}

/-- The part once the records up to `n` have left the queue. -/
def State.postedUpTo (s : State) (n : Nat) (left : List JournalRecord) : State :=
  { s with journal := { s.journal with records := left, highestPosted := n } }

/-- The part once the records that have left are retired. -/
def State.retired (s : State) (n : Nat) (removed left : List JournalRecord) : State :=
  s.inFallOrder (removed.foldl State.retire (s.postedUpTo n left))

theorem State.post_eq (s : State) (n : Nat) (a b : List JournalRecord) : s.post n a b =
    ((s.retired n a b).requests.keys.foldl (State.openFetchGate a) (s.retired n a b)).rearm := rfl

theorem State.retired_only (s : State) (n : Nat) (a b : List JournalRecord) :
    Only (ofRecord ++ [.links]) (s.postedUpTo n b) (s.retired n a b) :=
  (Only.foldl (fun t r => t.retire_only r) a _).trans ((State.inFallOrder_only _ _).mono (by decide))

theorem State.post_after (s : State) (n : Nat) (a b : List JournalRecord) :
    Only [.requests, .out, .journal] (s.retired n a b) (s.post n a b) :=
  (Only.foldl (fun t tag => (t.openFetchGate_only a tag).mono (by decide)) _ _).trans ((State.rearm_only _).mono (by decide))

theorem State.post_journal : (s.post n a b).journal =
    { s.journal with records := b, highestPosted := n, highArmed := s.journal.highArmed || decide (b.length ≤ 3072) } := by
  rw [State.post_eq, State.rearm_journal, (Only.foldl (fun t tag => t.openFetchGate_only a tag) _ _).journal, (s.retired_only n a b).journal]
  rfl

theorem State.post_link (hwf : s.links.wf Link.default = true) (l : Nat) : (s.post n a b).link l =
    { s.link l with replies := (s.link l).replies.map (ReplyEntry.openedBy (a.map (fun x => x.sequence))) } := by
  have hlink : (s.post n a b).link l =
      (a.foldl State.retire (s.postedUpTo n b)).link l := by
    unfold State.link
    rw [(s.post_after n a b).links]
    exact congrArg (fun t => t.get Link.default l) (State.inFallOrder_only _ _).links
  rw [hlink]
  exact State.retired_link a _ hwf

theorem State.recordOf_post (hmode : s.dirMode.isFlushing = false) (hsets : ∀ k, (s.dirSet k).inOrder k) {card stay : Nat} {x : CardRecord}
    (hx : s.recordOf card = some (x, stay)) (hv : x.verifies = true) : (s.post n a b).recordOf card =
      some (sealRecord x.data (x.unposted - (a.filter (fun y => decide (y.card = card))).length), stay) := by
  have hfall : (s.retired n a b).recordOf card = (a.foldl State.retire (s.postedUpTo n b)).recordOf card :=
    State.recordOf_congr (State.findWay_inFallOrder hsets (State.retired_sets a (s.postedUpTo n b) hmode hsets) card)
  rw [State.recordOf_congr (State.findWay_congr (s.post_after n a b).dir card), hfall]
  exact State.recordOf_retired a (s.postedUpTo n b) x hmode hsets hx hv

theorem State.post_request (tag : Nat) : (s.post n a b).request tag = (s.retired n a b).gateOpened a (s.request tag) := by
  have hopened := State.openedAll_request (s := s.retired n a b) (removed := a) tag
  unfold State.request at hopened ⊢
  rw [State.post_eq, (State.rearm_only _).requests, hopened, (s.retired_only n a b).requests]; rfl

theorem State.post_frame (s : State) (n : Nat) (a b : List JournalRecord) : s.post n a b = { s with
    journal := (s.post n a b).journal, links := (s.post n a b).links, dir := (s.post n a b).dir, requests := (s.post n a b).requests
    events := (s.post n a b).events, out := (s.post n a b).out, fault := (s.post n a b).fault
    counters := (s.post n a b).counters } := by
  have h := s.post_only n a b
  rw [← h.pending, ← h.part, ← h.limits, ← h.clock, ← h.programs, ← h.dirMode, ← h.passRanges, ← h.holds, ← h.notes, ← h.renoted,
    ← h.generations, ← h.exposures, ← h.siteIds, ← h.siteHolds, ← h.slices, ← h.tills, ← h.nextStay, ← h.nextHold, ← h.nextEntry,
    ← h.nextSlot, ← h.sentToHost]

end

/-- Settles O26: the records up to the posted one retire one after another, and the gates of the fetches are tried with what is left. -/
theorem postedRemovesTheRecordsUpToIt : Obligations.PostedRemovesTheRecordsUpToIt := by
  intro n a b r s hcanonical hsets hmode hrec hlast hn hbefore hsent
  have ha : a = a.dropLast ++ [r] := by
    obtain ⟨xs, rfl⟩ := List.getLast?_eq_some_iff.1 hlast
    simp
  have hpost : s.journal.postable n.toNat = some (a, b) := by
    have := Journal.postable_some (b := b) (by rw [hrec, ha]; simp) hn hbefore hsent
    rwa [← ha] at this
  have hflush : (s.post n.toNat a b).dirMode.isFlushing = false := by rw [(s.post_only n.toNat a b).dirMode]; exact hmode
  have hexec : exec (.posted (.body n)) s = .next (s.post n.toNat a b) := by
    have htake : takePosted (.body n) s = (s.post n.toNat a b).settle := by unfold takePosted; dsimp only; rw [hpost]
    exact congrArg Host.Outcome.next (htake.trans (State.settle_of_not_flushing hflush))
  refine ⟨_, hexec, ?_, fun l => ?_, fun card x stay hx hv => State.recordOf_post hmode hsets hx hv, fun tag hf => ?_,
    fun tag g o timer f hx => ?_⟩
  · rw [← State.post_journal]; exact s.post_frame n.toNat a b
  · exact State.post_link ((tablesCanonical_iff s).1 hcanonical .links) l
  · rw [State.post_request]; exact State.gateOpened_of_unfetched hf
  · rw [State.post_request, hx]
    have hnames : (s.retired n.toNat a b).names f.card = b.any (fun y => decide (y.card = f.card)) := by
      unfold State.names; rw [(s.retired_only n.toNat a b).journal]; rfl
    have hlimits : (s.retired n.toNat a b).limits = s.limits := (s.retired_only n.toNat a b).limits
    unfold State.gateOpened; dsimp only
    rw [hnames, hlimits]
    refine if_congr ?_ rfl rfl
    simp [List.any_eq_true, and_assoc]

end Sys2Proof.Machine
end

section
/-! The undo that a gate timeout makes (R56, R57, R90, R109, R121, R127, R128, R135, R136). -/

namespace Sys2Proof.Machine
open Piece

/-! ### The undone data (R47, R56, R57, R136) -/

theorem fullDeltas_eq (f : Effect) : fullDeltas f = f.reversal := by
  cases f <;> simp [fullDeltas, Effect.reversal, Effect.bonusDebit, Effect.bonusCredit, Effect.coreDebit, Effect.coreCredit]

theorem uncountUse_eq (d : CardData) (date : Nat) : uncountUse d date = { d with uses := if d.stamp = date then d.uses - 1 else d.uses } := by
  unfold uncountUse; split <;> rfl

theorem takeBack_le (balance held amount : Nat) : takeBack balance held amount ≤ balance :=
  (Nat.min_le_right _ _).trans (Nat.sub_le _ _)

/-- R57, R136: the deltas of a later stay's UNDO record are what the purses gain. -/
theorem undoLater_deltas {f : Effect} (hf : ∀ id, f ≠ .hold id) (date heldBonus heldCore : Nat) (d : CardData) :
    (undoLater f date heldBonus heldCore d).bonusDelta = ((undoLater f date heldBonus heldCore d).data.bonus : Int) - d.bonus ∧
    (undoLater f date heldBonus heldCore d).coreDelta = ((undoLater f date heldBonus heldCore d).data.core : Int) - d.core := by
  cases f with
  | redeem b c => simp only [undoLater, uncountUse_eq]; omega
  | hold id => exact absurd rfl (hf id)
  | capture id b c x => simp only [undoLater]; omega
  | standIn x day => simp only [undoLater]; omega
  | reload a =>
    have := takeBack_le d.core heldCore a
    simp only [undoLater]; omega
  | reverse b c =>
    have := takeBack_le d.bonus heldBonus b
    have := takeBack_le d.core heldCore c
    simp only [undoLater]; omega

section
variable {s : State} {u : UndoRecord} {stay : Nat}

theorem State.undoneData_card (s : State) (u : UndoRecord) (stay : Nat) (d : CardData) : (s.undoneData u stay d).card = d.card := by
  unfold State.undoneData; dsimp only; split <;> rfl

theorem State.Undoable.undoInStay_eq (hu : s.Undoable u) (h : u.stay = some stay) (d : CardData) :
    undoInStay u.effect s.date d = s.undoneData u stay d := by
  unfold State.undoneData
  cases he : u.effect with
  | redeem b c => simp only [undoInStay, uncountUse_eq, if_pos h]
  | hold id => exact absurd he (hu.recorded id)
  | capture id b c x => simp only [undoInStay, if_pos h]
  | reload a => simp only [undoInStay, if_pos h]
  | reverse b c => simp only [undoInStay, if_pos h]
  | standIn x date => rw [(hu.standIn x date he).1] at h; cases h

theorem State.Undoable.undoLater_eq (hu : s.Undoable u) (h : u.stay ≠ some stay) (d : CardData) :
    (undoLater u.effect s.date (s.heldBonus u.card) (s.heldCore u.card) d).data = s.undoneData u stay d := by
  unfold State.undoneData
  cases he : u.effect with
  | redeem b c => simp only [undoLater, uncountUse_eq, if_neg h]; rfl
  | hold id => exact absurd he (hu.recorded id)
  | capture id b c x => simp only [undoLater, if_neg h]; rfl
  | reload a => simp only [undoLater, if_neg h]; rfl
  | reverse b c => simp only [undoLater, if_neg h]; rfl
  | standIn x date => simp only [undoLater, if_neg h]; rfl

/-! ### The purses -/

theorem State.writeData_congr {card : Nat} {r : CardRecord} {f g : CardData → CardData} (hr : s.recordOf card = some (r, stay))
    (h : f r.data = g r.data) : s.writeData card f = s.writeData card g := by
  obtain ⟨no, hf⟩ := State.recordOf_some hr
  unfold State.writeData State.writeRecord; rw [hf]; dsimp only; rw [h]

theorem State.writeRecord_absent {card : Nat} (f : CardRecord → CardRecord) (h : s.recordOf card = none) : s.writeRecord card f = s := by
  unfold State.writeRecord; split
  · next hf => rw [State.recordOf_of_findWay hf] at h; cases h
  · rfl

/-- The record of a card whose fields are written, resident or not. -/
theorem State.recordOf_writeData_map {card : Nat} {f : CardData → CardData} (h : (s.dirSet (setOf card)).inOrder (setOf card))
    (hf : ∀ d, (f d).card = d.card) (c : Nat) : (s.writeData card f).recordOf c =
      if c = card then (s.recordOf card).map (fun x => (sealRecord (f x.1.data) x.1.unposted, x.2)) else s.recordOf c := by
  cases hr : s.recordOf card with
  | none =>
    unfold State.writeData; rw [State.writeRecord_absent _ hr]; split
    · next hc => rw [hc, hr]; rfl
    · rfl
  | some x =>
    obtain ⟨r, stay⟩ := x
    exact State.recordOf_writeData f h hr ((hf _).trans (State.recordOf_card hr)) c

theorem State.inOrder_writeData_same {card : Nat} {f : CardData → CardData} (h : (s.dirSet (setOf card)).inOrder (setOf card))
    (hf : ∀ d, (f d).card = d.card) : ((s.writeData card f).dirSet (setOf card)).inOrder (setOf card) := by
  cases hr : s.recordOf card with
  | none => unfold State.writeData; rw [State.writeRecord_absent _ hr]; exact h
  | some x =>
    obtain ⟨r, stay⟩ := x
    exact State.inOrder_writeData h hr f ((hf _).trans (State.recordOf_card hr))

/-- R56, R57: the undone data of the card's record, in whatever stay it stands. -/
def State.undoneHere (s : State) (u : UndoRecord) (d : CardData) : CardData :=
  match s.recordOf u.card with
  | some (_, stay) => s.undoneData u stay d
  | none => d

theorem State.undoneHere_some {r : CardRecord} (hr : s.recordOf u.card = some (r, stay)) (d : CardData) :
    s.undoneHere u d = s.undoneData u stay d := by unfold State.undoneHere; rw [hr]

theorem State.undoneHere_card (s : State) (u : UndoRecord) (d : CardData) : (s.undoneHere u d).card = d.card := by
  unfold State.undoneHere; split
  · exact s.undoneData_card u _ d
  · rfl

theorem State.Undoable.undoPurses_eq (hu : s.Undoable u) : s.undoPurses u = (s.writeData u.card (s.undoneHere u), s.undoneDeltas u) := by
  unfold State.undoPurses State.undoneDeltas
  cases hr : s.recordOf u.card with
  | none =>
    rw [State.readRecord_absent hr]; unfold State.writeData; rw [State.writeRecord_absent _ hr, fullDeltas_eq]
  | some x =>
    obtain ⟨r, stay⟩ := x
    rw [State.readRecord_good hr (hu.verified r stay hr)]; dsimp only
    have hhere := State.undoneHere_some hr r.data
    split
    · next h => rw [State.writeData_congr hr ((hu.undoInStay_eq h r.data).trans hhere.symm), fullDeltas_eq]
    · next h =>
      obtain ⟨hb, hc⟩ := undoLater_deltas hu.recorded s.date (s.heldBonus u.card) (s.heldCore u.card) r.data
      have hdata := hu.undoLater_eq h r.data
      rw [hb, hc, hdata, State.writeData_congr hr (f := fun _ => s.undoneData u stay r.data) (g := s.undoneHere u) hhere.symm]

end

/-! ### The hold and the exposure (R90, R121) -/

section
variable {s : State}

theorem State.unexpose_exposure (s : State) (card x date c : Nat) : (s.unexpose card x date).exposure c =
    if c = card ∧ s.date = date then ⟨(s.exposure c).amount - x, (s.exposure c).count - 1⟩ else s.exposure c := by
  unfold State.unexpose
  by_cases hd : s.date = date
  · simp only [hd, and_true, if_true]
    by_cases hnone : s.exposure card = Exposure.none
    · rw [if_pos hnone]; split
      · next hc => rw [hc, hnone]; simp [Exposure.none]
      · rfl
    · rw [if_neg hnone, State.setExposure_exposure]; split
      · next hc => rw [hc]
      · rfl
  · rw [if_neg hd, if_neg fun h => hd h.2]

/-- R90: a hold whose instant has not passed stays. -/
theorem State.expireIfDue_early {id : Nat} (h : ∀ y ∈ s.holds, y.id = id → s.clock.notSet = true ∨ s.now.ms < y.expiry.ms) :
    s.expireIfDue id = s := by
  unfold State.expireIfDue; split
  · next y hy =>
    obtain ⟨hm, hid⟩ := State.holdById_some hy
    have hdue : s.holdDue y = false := by
      unfold State.holdDue Reading.le
      rcases h y hm hid with hn | hlt
      · rw [hn]; rfl
      · rw [decide_eq_false (by omega), Bool.and_false]
    rw [hdue, Bool.and_false]; rfl
  · rfl

end

/-! ### The record that joins (R109, R128) -/

section
variable {s : State} {card : Nat}

theorem State.countUnposted_sound (h : ∀ r stay, s.recordOf card = some (r, stay) → r.verifies = true) :
    s.countUnposted card = s.writeUnposted card (fun n => n + 1) := by
  unfold State.countUnposted
  cases hr : s.recordOf card with
  | none => rw [State.readRecord_absent hr]; exact (State.writeRecord_absent _ hr).symm
  | some x =>
    obtain ⟨r, stay⟩ := x
    rw [State.readRecord_good hr (h r stay hr)]

/-- R109: an entry that is no fetch of the card stays. -/
theorem State.regate_other {k : Nat} (h : ∀ f, s.fetchAt k = some f → f.card ≠ card) :
    (s.regate card).request k = s.request k ∧ (s.regate card).generation k = s.generation k := by
  unfold State.regate; split
  · next tag x f hf =>
    obtain ⟨hx, hk, hc⟩ := State.fetchFor_some hf
    have hne : k ≠ tag := fun e => h f (State.fetchAt_some.2 ⟨x, e ▸ hx, hk⟩) hc
    split
    · exact ⟨(State.setRequest_request _ _ _ _).trans (if_neg hne), (s.bumpGeneration_generation tag k).trans (if_neg hne)⟩
    · exact ⟨rfl, rfl⟩
  · exact ⟨rfl, rfl⟩

/-- R109: the one fetch of the card, when it is SENT, is WAITING-POST under a new generation. -/
theorem State.regate_single {k : Nat} {x : HostEntry} {f : Fetch} (hf : s.fetchFor card = some (k, x, f)) :
    (s.regate card).request k = some (if f.sent = true then
      { gen := nextGeneration (s.generation k), oldGens := x.gen :: x.oldGens, timer := s.limits.gate
        kind := .fetch { f with sent := false } } else x) ∧
    (s.regate card).generation k = if f.sent = true then nextGeneration (s.generation k) else s.generation k := by
  unfold State.regate; rw [hf]; dsimp only
  by_cases hs : f.sent = true
  · rw [if_pos hs, if_pos hs, if_pos hs]
    refine ⟨(State.setRequest_request _ _ _ _).trans ?_, s.bumpGeneration_generation_same k⟩
    rw [if_pos rfl, State.bumpGeneration_generation_same]
  · rw [if_neg hs, if_neg hs, if_neg hs]
    exact ⟨(State.fetchFor_some hf).1, rfl⟩

/-- R109: what a regate of a card with one fetch at most makes of an entry. -/
def State.regated (s : State) (card k : Nat) (x : HostEntry) : HostEntry :=
  match x.kind with
  | .fetch f => if f.card = card ∧ f.sent = true then
      { gen := nextGeneration (s.generation k), oldGens := x.gen :: x.oldGens, timer := s.limits.gate
        kind := .fetch { f with sent := false } }
    else x
  | .referral _ => x

theorem State.regate_entries
    (hone : ∀ a b f g, s.fetchAt a = some f → s.fetchAt b = some g → f.card = card → g.card = card → a = b) (k : Nat) :
    (s.regate card).request k = (s.request k).map (s.regated card k) ∧
    (s.regate card).generation k = match s.fetchAt k with
      | some f => if f.card = card ∧ f.sent = true then nextGeneration (s.generation k) else s.generation k
      | none => s.generation k := by
  cases hf : s.fetchAt k with
  | none =>
    obtain ⟨hreq, hgen⟩ := State.regate_other (s := s) (card := card) (k := k) fun f h => by rw [hf] at h; cases h
    refine ⟨hreq.trans ?_, hgen⟩
    cases hx : s.request k with
    | none => rfl
    | some x =>
      rw [Option.map_some]
      unfold State.regated; split
      · next f hk => rw [State.fetchAt_some.2 ⟨x, hx, hk⟩] at hf; cases hf
      · rfl
  | some f =>
    obtain ⟨x, hx, hk⟩ := State.fetchAt_some.1 hf
    rw [hx, Option.map_some]
    unfold State.regated; rw [hk]; dsimp only
    by_cases hc : f.card = card
    · obtain ⟨hreq, hgen⟩ := State.regate_single (State.fetchFor_of_single hx hk hc fun a g ha hg => hone a k g f ha hf hg hc)
      rw [hreq, hgen]
      simp only [hc, true_and, and_self]
    · obtain ⟨hreq, hgen⟩ := State.regate_other (s := s) (card := card) (k := k) fun g hg => by
        rw [hf] at hg; cases hg; exact hc
      rw [hreq, hgen, hx, if_neg fun h => hc h.1, if_neg fun h => hc h.1]
      exact ⟨rfl, rfl⟩

end

section
variable {s : State} {d : Draft} (h : ∀ r stay, s.recordOf d.card = some (r, stay) → r.verifies = true)
include h

theorem State.joinRecord_sound : s.joinRecord d =
    ((((s.appendRecord (d.record s)).writeUnposted d.card (fun n => n + 1)).regate d.card).queue (.journal (d.record s) 0)).warnHigh := by
  unfold State.joinRecord; dsimp only
  rw [State.countUnposted_sound (s := s.appendRecord (d.record s)) h]

theorem State.joinRecord_sound_dir : (s.joinRecord d).dir = (s.writeUnposted d.card (fun n => n + 1)).dir := by
  rw [State.joinRecord_dir, State.countUnposted_sound (s := s.appendRecord (d.record s)) h]
  unfold State.writeUnposted State.writeRecord
  have hway : (s.appendRecord (d.record s)).findWay d.card = s.findWay d.card := rfl
  rw [hway]; split <;> rfl

theorem State.joinRecord_sound_only : Only [.dir, .journal, .requests, .generations, .events, .out] s (s.joinRecord d) := by
  rw [State.joinRecord_sound h]
  exact ((((s.appendRecord_only _).andThen (State.writeUnposted_only _ _ _) (by decide) (by decide)).trans
    ((State.regate_only _ _).mono (by decide))).trans ((State.queue_only _ _).mono (by decide))).trans
    ((State.warnHigh_only _).mono (by decide))

theorem State.joinRecord_sound_quiet (hlen : s.journal.records.length ≠ Config.highMark) :
    (s.joinRecord d).events = s.events ∧ (s.joinRecord d).out = s.out ++ [.journal (d.record s) 0] := by
  have hbefore : Only [.dir, .requests, .generations] (s.appendRecord (d.record s))
      (((s.appendRecord (d.record s)).writeUnposted d.card (fun n => n + 1)).regate d.card) :=
    (State.writeUnposted_only _ _ _).andThen (State.regate_only _ _) (by decide) (by decide)
  rw [State.joinRecord_sound h, State.warnHigh_quiet]
  · exact ⟨hbefore.events, by rw [State.queue_out, hbefore.out]; rfl⟩
  · rw [State.queue_journal, hbefore.journal]
    simpa [State.appendRecord] using hlen

theorem State.joinRecord_sound_entries
    (hone : ∀ a b f g, s.fetchAt a = some f → s.fetchAt b = some g → f.card = d.card → g.card = d.card → a = b) (k : Nat) :
    (s.joinRecord d).request k = (s.request k).map (s.regated d.card k) ∧
    (s.joinRecord d).generation k = match s.fetchAt k with
      | some f => if f.card = d.card ∧ f.sent = true then nextGeneration (s.generation k) else s.generation k
      | none => s.generation k := by
  have hwrite : Only [.dir, .journal] s ((s.appendRecord (d.record s)).writeUnposted d.card (fun n => n + 1)) :=
    (s.appendRecord_only _).andThen (State.writeUnposted_only _ _ _) (by decide) (by decide)
  have hafter : Only [.out, .journal, .events] (((s.appendRecord (d.record s)).writeUnposted d.card (fun n => n + 1)).regate d.card)
      (s.joinRecord d) := by
    rw [State.joinRecord_sound h]
    exact ((State.queue_only _ _).mono (by decide)).trans ((State.warnHigh_only _).mono (by decide))
  have hfetch := State.fetchAt_congr hwrite.requests
  obtain ⟨hreq, hgen⟩ := State.regate_entries (s := (s.appendRecord (d.record s)).writeUnposted d.card (fun n => n + 1))
    (by simpa only [hfetch] using hone) k
  rw [hfetch] at hgen
  have hregated : ((s.appendRecord (d.record s)).writeUnposted d.card (fun n => n + 1)).regated d.card k = s.regated d.card k := by
    funext x
    unfold State.regated State.generation; rw [hwrite.generations, hwrite.limits]
  rw [hregated] at hreq
  unfold State.request at hreq ⊢
  unfold State.generation at hgen ⊢
  rw [hwrite.requests] at hreq
  rw [hwrite.generations] at hgen
  rw [hafter.requests, hafter.generations]
  exact ⟨hreq, hgen⟩

end

end Sys2Proof.Machine
end

section
/-! The gate timeout of an effect with a journal record (R135, R136). -/

namespace Sys2Proof.Machine
open Piece

/-! ### The UNDO record's joining -/

/-- R136: the UNDO record of the effect of `u` before it joins. -/
def State.undoDraft (s : State) (u : UndoRecord) (q : Nat) : Draft :=
  { kind := .undo, card := u.card, origin := u.origin, bonusDelta := (s.undoneDeltas u).1, coreDelta := (s.undoneDeltas u).2
    forfeited := none, undone := some q }

/-- R56, R57, R90, R121, R127: the part as the UNDO record of `u` is about to join. -/
def State.unmade (s : State) (u : UndoRecord) : State := ((s.writeData u.card (s.undoneHere u)).undoBeside u).releaseSlot

theorem State.undoBeside_holds (s : State) (u : UndoRecord) : (s.undoBeside u).holds = match u.effect with
    | .capture id b c _ => s.holds.map (fun h => if h.id = id then { h with bonus := b, core := c, state := .opened } else h)
    | _ => s.holds := by
  unfold State.undoBeside
  cases u.effect with
  | standIn x date => exact (s.unexpose_only _ _ _).holds
  | _ => rfl

theorem State.undoBeside_exposure (s : State) (u : UndoRecord) (card : Nat) : (s.undoBeside u).exposure card = match u.effect with
    | .standIn x date => if card = u.card ∧ s.date = date then ⟨(s.exposure card).amount - x, (s.exposure card).count - 1⟩
      else s.exposure card
    | _ => s.exposure card := by
  unfold State.undoBeside
  cases u.effect with
  | standIn x date => exact s.unexpose_exposure _ _ _ _
  | _ => rfl

section
variable {s : State} {u : UndoRecord} {q : Nat}

theorem State.unmade_only (s : State) (u : UndoRecord) : Only [.dir, .holds, .exposures, .journal] s (s.unmade u) :=
  (((s.writeData_only _ _).mono (by decide)).trans ((State.undoBeside_only _ u).mono (by decide))).trans
    ((State.releaseSlot_only _).mono (by decide))

theorem State.unmade_dir (s : State) (u : UndoRecord) : (s.unmade u).dir = (s.writeData u.card (s.undoneHere u)).dir :=
  (State.releaseSlot_only _).dir.trans (State.undoBeside_only _ u).dir

/-- The hold and the exposure are undone on whatever the directory holds. -/
theorem State.unmade_eq (s : State) (u : UndoRecord) : ∃ dir, s.unmade u = (({ s with dir := dir } : State).undoBeside u).releaseSlot :=
  ⟨_, congrArg (fun p => (State.undoBeside p u).releaseSlot) (s.writeRecord_eq _ _)⟩

theorem State.unmade_journal (s : State) (u : UndoRecord) :
    (s.unmade u).journal = { s.journal with reserved := s.journal.reserved - 1 } := by
  obtain ⟨dir, h⟩ := s.unmade_eq u
  have hj : (({ s with dir := dir } : State).undoBeside u).journal = s.journal := (State.undoBeside_only _ u).journal
  rw [h]; unfold State.releaseSlot; rw [hj]

theorem State.unmade_record (s : State) (u : UndoRecord) (q : Nat) : (s.undoDraft u q).record (s.unmade u) = s.undoRecord u q := by
  have hclock := (s.unmade_only u).clock
  unfold Draft.record State.undoRecord State.date State.now
  rw [State.unmade_journal, hclock]; rfl

theorem State.Undoable.recordOf_unmade (hu : s.Undoable u) (c : Nat) : (s.unmade u).recordOf c = if c = u.card then
    (s.recordOf u.card).map (fun x => (sealRecord (s.undoneHere u x.1.data) x.1.unposted, x.2)) else s.recordOf c :=
  (State.recordOf_congr (State.findWay_congr (s.unmade_dir u) c)).trans
    (State.recordOf_writeData_map hu.apart (s.undoneHere_card u) c)

theorem State.Undoable.unmade_verified (hu : s.Undoable u) (r : CardRecord) (stay : Nat)
    (h : (s.unmade u).recordOf u.card = some (r, stay)) : r.verifies = true := by
  rw [hu.recordOf_unmade, if_pos rfl] at h
  obtain ⟨x, -, hx⟩ := Option.map_eq_some_iff.1 h
  cases hx; exact sealRecord_verifies _ _

theorem State.Undoable.unmade_apart (hu : s.Undoable u) : ((s.unmade u).dirSet (setOf u.card)).inOrder (setOf u.card) := by
  rw [State.dirSet_congr (s.unmade_dir u)]
  exact State.inOrder_writeData_same hu.apart (s.undoneHere_card u)

/-- R90: the restored hold's instant has not passed. -/
theorem State.Undoable.undoAfter_eq (hu : s.Undoable u) {t : State} (hclock : t.clock = s.clock) (hholds : t.holds = (s.unmade u).holds) :
    t.undoAfter u = t := by
  unfold State.undoAfter; split
  · next id b c x he =>
    refine State.expireIfDue_early fun y hy hid => ?_
    obtain ⟨dir, h⟩ := s.unmade_eq u
    have hmap := hholds.trans ((congrArg State.holds h).trans (State.undoBeside_holds { s with dir := dir } u))
    rw [he] at hmap
    rw [hmap] at hy
    obtain ⟨z, hz, rfl⟩ := List.mem_map.1 hy
    have hkept : (if z.id = id then { z with bonus := b, core := c, state := .opened } else z).id = z.id ∧
        (if z.id = id then { z with bonus := b, core := c, state := .opened } else z).expiry = z.expiry := by split <;> exact ⟨rfl, rfl⟩
    unfold State.now
    rw [hclock, hkept.2]
    exact hu.capture id b c x he z hz (hkept.1.symm.trans hid)
  · rfl

theorem State.Undoable.joined_only (hu : s.Undoable u) (q : Nat) :
    Only [.dir, .journal, .requests, .generations, .events, .out] (s.unmade u) ((s.unmade u).joinRecord (s.undoDraft u q)) :=
  State.joinRecord_sound_only (d := s.undoDraft u q) hu.unmade_verified

/-- R136: the undo is the joining of its UNDO record after everything else is undone. -/
theorem State.Undoable.undo_eq (hu : s.Undoable u) (hq : u.sequence = some q) :
    s.undo u = (s.unmade u).joinRecord (s.undoDraft u q) := by
  have hjoin := hu.joined_only q
  have hafter := hu.undoAfter_eq (t := (s.unmade u).joinRecord (s.undoDraft u q)) (hjoin.clock.trans (s.unmade_only u).clock) hjoin.holds
  refine Eq.trans ?_ hafter
  unfold State.undo; split
  · next he => exact absurd he (hu.recorded _)
  · next hn _ => rw [hq] at hn; cases hn
  · next hn _ =>
    rw [hq] at hn; cases hn
    rw [hu.undoPurses_eq]; rfl

theorem State.Undoable.undo_only (hu : s.Undoable u) (hq : u.sequence = some q) :
    Only [.dir, .holds, .exposures, .journal, .requests, .generations, .events, .out] s (s.undo u) := by
  rw [hu.undo_eq hq]
  exact ((s.unmade_only u).mono (by decide)).trans ((hu.joined_only q).mono (by decide))

/-- R137: below the high mark the undo is told to the host and raises nothing. -/
theorem State.Undoable.undo_quiet (hu : s.Undoable u) (hq : u.sequence = some q) (hlen : s.journal.records.length ≠ 3072) :
    (s.undo u).events = s.events ∧ (s.undo u).out = s.out ++ [.journal (s.undoRecord u q) 0] := by
  have honly := s.unmade_only u
  obtain ⟨hevents, hout⟩ := State.joinRecord_sound_quiet (d := s.undoDraft u q) hu.unmade_verified (by rw [s.unmade_journal u]; exact hlen)
  rw [hu.undo_eq hq, hevents, hout, s.unmade_record, honly.events, honly.out]
  exact ⟨rfl, rfl⟩

/-- The directory after the undo: two writes of the card's record, of its fields and of its unposted count. -/
theorem State.Undoable.undo_dir (hu : s.Undoable u) (hq : u.sequence = some q) :
    (s.undo u).dir = ((s.unmade u).writeUnposted u.card (fun n => n + 1)).dir := by
  rw [hu.undo_eq hq]
  exact State.joinRecord_sound_dir (d := s.undoDraft u q) hu.unmade_verified

theorem State.Undoable.recordOf_undo (hu : s.Undoable u) (hq : u.sequence = some q) (c : Nat) : (s.undo u).recordOf c =
    if c = u.card then (s.recordOf u.card).map (fun x => (sealRecord (s.undoneData u x.2 x.1.data) (x.1.unposted + 1), x.2))
    else s.recordOf c := by
  rw [hu.undo_eq hq, State.recordOf_joinRecord (d := s.undoDraft u q) hu.unmade_apart]
  change (if c = u.card then ((s.unmade u).recordOf u.card).bind _ else _) = _
  rw [hu.recordOf_unmade, hu.recordOf_unmade, if_pos rfl]
  split
  · cases hr : s.recordOf u.card with
    | none => rfl
    | some x =>
      obtain ⟨r, stay⟩ := x
      simp only [Option.map_some, Option.bind_some, sealRecord_verifies, if_true, sealRecord_data, sealRecord_unposted,
        State.undoneHere_some hr]
  · rfl

theorem State.Undoable.undo_otherSets (hu : s.Undoable u) (hq : u.sequence = some q) : s.otherSets (s.undo u) (setOf u.card) :=
  fun n hn => by
    rw [State.dirSet_congr (hu.undo_dir hq)]
    unfold State.writeUnposted
    rw [State.writeRecord_others _ _ _ n hn, State.dirSet_congr (s.unmade_dir u)]
    exact State.writeRecord_others _ _ _ n hn

theorem State.Undoable.undo_order (hu : s.Undoable u) (hq : u.sequence = some q) (n : Nat) :
    ((s.undo u).dirSet n).ways.map (fun w => w.no) = (s.dirSet n).ways.map (fun w => w.no) := by
  rw [State.dirSet_congr (hu.undo_dir hq)]
  unfold State.writeUnposted
  rw [State.writeRecord_order, State.dirSet_congr (s.unmade_dir u)]
  exact State.writeRecord_order _ _ _ n

theorem State.Undoable.undo_entries (hu : s.Undoable u) (hq : u.sequence = some q) (k : Nat) :
    (s.undo u).request k = (s.request k).map (s.regated u.card k) ∧
    (s.undo u).generation k = match s.fetchAt k with
      | some f => if f.card = u.card ∧ f.sent = true then nextGeneration (s.generation k) else s.generation k
      | none => s.generation k := by
  have honly := s.unmade_only u
  have hfetch := State.fetchAt_congr honly.requests
  obtain ⟨hreq, hgen⟩ := State.joinRecord_sound_entries (d := s.undoDraft u q) hu.unmade_verified
    (fun a b f g ha hb => hu.fetched a b f g (hfetch a ▸ ha) (hfetch b ▸ hb)) k
  have hregated : (s.unmade u).regated u.card k = s.regated u.card k := by
    funext x
    unfold State.regated State.generation; rw [honly.generations, honly.limits]
  have hrequest : (s.unmade u).request k = s.request k := by unfold State.request; rw [honly.requests]
  have hgeneration : (s.unmade u).generation k = s.generation k := by unfold State.generation; rw [honly.generations]
  rw [hfetch, hgeneration] at hgen
  rw [hu.undo_eq hq]
  refine ⟨hreq.trans ?_, hgen⟩
  rw [hrequest]
  exact congrArg (fun f => (s.request k).map f) hregated

theorem State.Undoable.undone (hu : s.Undoable u) (hq : u.sequence = some q) : s.Undone (s.undo u) u q := by
  obtain ⟨dir, hunmade⟩ := s.unmade_eq u
  have hjoin : Only [.dir, .journal, .requests, .generations, .events, .out] (s.unmade u) (s.undo u) := by
    rw [hu.undo_eq hq]; exact hu.joined_only q
  exact {
    record := (hu.recordOf_undo hq u.card).trans (if_pos rfl)
    others := fun c hc => (hu.recordOf_undo hq c).trans (if_neg hc)
    sets := hu.undo_otherSets hq
    order := hu.undo_order hq
    holds := hjoin.holds.trans ((congrArg State.holds hunmade).trans (State.undoBeside_holds { s with dir := dir } u))
    exposures := fun card => (State.exposure_congr hjoin.exposures card).trans
      ((congrArg (fun t => State.exposure t card) hunmade).trans (State.undoBeside_exposure { s with dir := dir } u card))
    requests := fun tag => (hu.undo_entries hq tag).1
    generations := fun tag => (hu.undo_entries hq tag).2
    journal := by
      rw [hu.undo_eq hq, State.joinRecord_journal, s.unmade_record, s.unmade_journal]; rfl }

/-- The undo reads and changes neither the links nor the tills. -/
theorem State.Undone.congr {t t' : State} (h : s.Undone t u q) (ho : Only [.links, .tills] t t') : s.Undone t' u q where
  record := (State.recordOf_congr (State.findWay_congr ho.dir _)).trans h.record
  others := fun c hc => (State.recordOf_congr (State.findWay_congr ho.dir c)).trans (h.others c hc)
  sets := fun n hn => (State.dirSet_congr ho.dir n).trans (h.sets n hn)
  order := fun n => by rw [State.dirSet_congr ho.dir]; exact h.order n
  holds := ho.holds.trans h.holds
  exposures := fun card => (State.exposure_congr ho.exposures card).trans (h.exposures card)
  requests := fun tag => Eq.trans (by unfold State.request; rw [ho.requests]) (h.requests tag)
  generations := fun tag => Eq.trans (by unfold State.generation; rw [ho.generations]) (h.generations tag)
  journal := ho.journal.trans h.journal

end

/-! ### The mark of a REVERSE (R79) -/

section
variable {s : State} {e : ReplyEntry}

theorem State.clearMark_till (h : e.ended = false) (n : Nat) : (s.clearMark e).till n = { s.till n with
    stack := (s.till n).stack.map (fun x => if e.holdsMark n x.id then { x with reversing := false } else x) } := by
  have hunheld (hno : ∀ id, e.holdsMark n id = false) : s.till n = { s.till n with
      stack := (s.till n).stack.map (fun x => if e.holdsMark n x.id then { x with reversing := false } else x) } := by
    simp [hno]
  cases hn : e.noted with
  | none =>
    have hsame : s.clearMark e = s := by unfold State.clearMark; rw [hn]; split <;> trivial
    rw [hsame]
    exact hunheld fun id => by unfold ReplyEntry.holdsMark; rw [hn]; cases e.bound <;> simp
  | some m =>
    have hmark := State.clearMark_marked (s := s) hn n
    rw [hmark]
    cases hb : e.bound with
    | free => exact hunheld fun id => by unfold ReplyEntry.holdsMark; rw [hb]; simp
    | hold id card => exact hunheld fun id => by unfold ReplyEntry.holdsMark; rw [hb]; simp
    | entry x =>
      have hheld : ∀ id, e.holdsMark n id = (decide (x.id = id) && decide (m.till = n)) := fun id => by
        unfold ReplyEntry.holdsMark; rw [h, hb, hn]; rfl
      dsimp only
      split
      · next hk =>
        have hself : ∀ id, e.holdsMark n id = decide (id = x.id) := fun id => by
          rw [hheld, decide_eq_true hk.symm, Bool.and_true]; exact decide_eq_decide.2 eq_comm
        simp only [hself, decide_eq_true_eq]
      · next hk => exact hunheld fun id => by rw [hheld, decide_eq_false (Ne.symm hk), Bool.and_false]

end

/-! ### The gate timeout (R135) -/

section
variable {s : State} {u : UndoRecord} {q : Nat}

theorem State.gateTimeout_frame {t : State}
    (h : Only [.links, .tills, .dir, .holds, .exposures, .journal, .requests, .generations, .events, .out] s t) : t = { s with
      links := t.links, tills := t.tills, dir := t.dir, holds := t.holds, exposures := t.exposures, journal := t.journal
      requests := t.requests, generations := t.generations, events := t.events, out := t.out } := by
  rw [← h.pending, ← h.part, ← h.limits, ← h.clock, ← h.counters, ← h.programs, ← h.dirMode, ← h.passRanges, ← h.fault, ← h.notes,
    ← h.renoted, ← h.siteIds, ← h.siteHolds, ← h.slices, ← h.nextStay, ← h.nextHold, ← h.nextEntry, ← h.nextSlot, ← h.sentToHost]

theorem exec_gateTimeout {l : Fin 8} {e : ReplyEntry} {reply : TillReply} (hg : gatedOn q (s.link l).replies = some (e, reply, u))
    (hmode : (s.gateTimeout l e reply u).dirMode.isFlushing = false) :
    exec (.gateTimeout l q) s = .next (s.gateTimeout l e reply u) := by
  have hexec : execGateTimeout l q s = .next (s.gateTimeout l e reply u).settle := by unfold execGateTimeout; rw [hg]
  exact hexec.trans (congrArg Host.Outcome.next (State.settle_of_not_flushing hmode))

end

/-- Settles O48: the undo writes the card's record, restores what stands beside it and joins its UNDO record; then the mark is cleared
and the entry is finished. -/
theorem gateTimeoutUndoesTheDebit : Obligations.GateTimeoutUndoesTheDebit := by
  intro l q e reply u s hg hq hu hmode
  obtain ⟨-, timer, hst⟩ := gatedOn_some hg
  have hopen : e.ended = false := by unfold ReplyEntry.ended; rw [hst]
  have hundo := hu.undo_only hq
  have hmark : Only [.tills] (s.undo u) ((s.undo u).clearMark e) := State.clearMark_only _ e
  have hfinish : Only [.links] ((s.undo u).clearMark e) (s.gateTimeout l e reply u) := State.finish_only _ _ _ _
  have hafter : Only [.links, .tills] (s.undo u) (s.gateTimeout l e reply u) := hmark.andThen hfinish (by decide) (by decide)
  have hall : Only [.links, .tills, .dir, .holds, .exposures, .journal, .requests, .generations, .events, .out] s
      (s.gateTimeout l e reply u) := (hundo.mono (by decide)).trans (hafter.mono (by decide))
  have hlink : ∀ k, ((s.undo u).clearMark e).link k = s.link k := fun k => by
    unfold State.link; rw [hmark.links, hundo.links]
  have htills : ∀ n, (s.undo u).till n = s.till n := fun n => by unfold State.till; rw [hundo.tills]
  obtain ⟨hother, hown⟩ := State.finish_links ((s.undo u).clearMark e) l e.slot (.ready (withdrawnReply e.msg reply) none none)
  refine ⟨_, exec_gateTimeout hg (by rw [hall.dirMode]; exact hmode), State.gateTimeout_frame hall, (hu.undone hq).congr hafter,
    fun k hk => (hother k hk).trans (hlink k), ?_, fun n => ?_, fun hlen => ?_⟩
  · refine hown.trans ?_
    rw [hlink]; rfl
  · have htill : (s.gateTimeout l e reply u).till n = ((s.undo u).clearMark e).till n := by unfold State.till; rw [hfinish.tills]
    rw [htill, State.clearMark_till hopen, htills]
  · obtain ⟨hevents, hout⟩ := hu.undo_quiet hq hlen
    exact ⟨hafter.events.trans hevents, hafter.out.trans hout⟩

end Sys2Proof.Machine
end
